-- ==== Sys2Proof/Word.lean ====
section
/-! DEFINITION. The words of the KNQ-256 and the small types the commands' operands are made of: bytes, register pages,
requesters. -/

namespace Sys2Proof

/-- A byte of a Shelf, a Cellar stack, the Attic or host memory. -/
abbrev Byte := BitVec 8

/-- A 32-bit word: a register word, a vector lane, an FP32 number. -/
abbrev Word := BitVec 32

/-- The 41 page types of R31, in the order of their type codes. -/
inductive PageType where
  | hst | lnk | jq | mbx | ks | pwr | ops | thr | dom | wake | tim | servo | atc | slot | elog | tir | mq | mgt
  | xpt | cong | ctx | win | cel | rgn | eth | gl | ms | agt | late | tal | ccr | dp | col | comm | mxe | vec | vst
  | net | seam | seq | til
deriving DecidableEq, Repr

/-- Type code (R31). -/
def PageType.code : PageType → Nat
  | .hst => 0x001 | .lnk => 0x002 | .jq => 0x003 | .mbx => 0x004 | .ks => 0x005 | .pwr => 0x006 | .ops => 0x007
  | .thr => 0x008 | .dom => 0x009 | .wake => 0x00A | .tim => 0x00B | .servo => 0x00C | .atc => 0x00D | .slot => 0x00E
  | .elog => 0x00F | .tir => 0x010 | .mq => 0x011 | .mgt => 0x012 | .xpt => 0x013 | .cong => 0x014 | .ctx => 0x015
  | .win => 0x016 | .cel => 0x017 | .rgn => 0x018 | .eth => 0x019 | .gl => 0x01A | .ms => 0x01B | .agt => 0x01C
  | .late => 0x01D | .tal => 0x01E | .ccr => 0x01F | .dp => 0x020 | .col => 0x021 | .comm => 0x022 | .mxe => 0x023
  | .vec => 0x024 | .vst => 0x025 | .net => 0x026 | .seam => 0x027 | .seq => 0x028 | .til => 0x029

/-- Instances of a page type (R31). -/
def PageType.count : PageType → Nat
  | .lnk => 4 | .jq => 1024 | .ks => 16 | .cel => 8 | .rgn => 8 | .eth => 8 | .gl => 8 | .ms => 8 | .agt => 2
  | .late => 2 | .tal => 32 | .ccr => 2 | .dp => 2 | .col => 2 | .comm => 2 | .mxe => 2 | .vec => 2 | .vst => 2
  | .net => 2 | .seq => 64 | .til => 256 | _ => 1

/-- A register page: its type and which of the instances of R31 it is (a tally page counts `16 × die + k`, a tile page
`4 × group + tile`). -/
structure Page where
  ty : PageType
  inst : Nat
deriving DecidableEq, Repr

/-- BAR address of a page (R31). -/
def Page.base (p : Page) : Nat :=
  let i := p.inst
  let die (d : Nat) : Nat := 0x100000 + d * 0x40000
  match p.ty with
  | .hst => 0 | .lnk => 0x1000 + i * 0x1000 | .jq => 0x2000000 + i * 0x1000 | .mbx => 0x10000
  | .ks => 0x20000 + i * 0x1000 | .pwr => 0x30000 | .ops => 0x31000 | .thr => 0x32000 | .dom => 0x40000
  | .wake => 0x41000 | .tim => 0x50000 | .servo => 0x51000 | .atc => 0x60000 | .slot => 0x61000 | .elog => 0x62000
  | .tir => 0x70000 | .mq => 0x71000 | .mgt => 0x80000 | .xpt => 0x90000 | .cong => 0x91000 | .ctx => 0x92000
  | .win => 0x93000 | .cel => 0xA0000 + i * 0x1000 | .rgn => 0xA8000 + i * 0x1000 | .eth => 0xB0000 + i * 0x1000
  | .gl => 0xC0000 + i * 0x1000 | .ms => 0xD0000 + i * 0x1000 | .agt => die i | .late => die i + 0x1000
  | .tal => die (i / 16) + 0x10000 + (i % 16) * 0x1000 | .ccr => die i + 0x2000 | .dp => die i + 0x3000
  | .col => die i + 0x4000 | .comm => die i + 0x5000 | .mxe => die i + 0x6000 | .vec => die i + 0x7000
  | .vst => die i + 0x8000 | .net => die i + 0x9000 | .seam => 0x180000 | .seq => 0x1000000 + i * 0x10000
  | .til => 0x1000000 + (i / 4) * 0x10000 + (i % 4 + 1) * 0x1000

/-- Who issues a register access: the host through a UCIe module, or a control core (R29, R30). -/
inductive Requester where
  | host (m : Fin 4)
  | core (c : Fin 4)
deriving DecidableEq, Repr

/-- A number of its own for each requester. -/
def Requester.key : Requester → Nat
  | .host m => m.val
  | .core c => 4 + c.val

/-- Whether the access comes from a control core. -/
def Requester.isCore : Requester → Bool
  | .host _ => false
  | .core _ => true

/-- For whom an access to the device range is made (R260, R262): a tenant slot, or firmware (a control core or Onyx). -/
inductive Agent where
  | tenant (t : Fin 16)
  | firmware
deriving DecidableEq, Repr

/-- A key of the device by what it derives from (R394, R406): a tenant's root secret, tag and generation; the key of selector 16 or
17 drawn at a boot; an Attic bank's key. -/
inductive CryptKey where
  | tenant (secret tag gen : Nat)
  | boot (selector draw : Nat)
  | bank (key : Nat)
deriving DecidableEq, Repr

/-- Under what a 256-byte data unit is encrypted (R266, R288): the key and the tweak. -/
structure Prov where
  key : CryptKey
  tweak : Nat
deriving DecidableEq, Repr

/-- One layer of a replacement as the image gives it (R302): its PASS and OPEN tallies as (die, tally), the handles of its objects. -/
structure LayerSpec where
  pass : List (Nat × Nat)
  opens : List (Nat × Nat)
  objs : List Nat
deriving DecidableEq, Repr

/-- An Ethernet frame without its FCS: addresses, the priority tag's TCI where it has one, EtherType, MAC client data. -/
structure Frame where
  dst : Nat
  src : Nat
  tag : Option Nat
  ety : Nat
  data : List Byte
deriving DecidableEq, Repr

/-- The class of a shard after an interrupted step (R224). -/
inductive ShardClass where
  | lost
  | fenced
  | regather
  | commitPending
  | rerunStep
deriving DecidableEq, Repr

/-- What MACsec finds in a protected frame (R327): its SecTAG's SCI, association number and packet number, whether the ICV is right under
the association's key, and the frame it protects. -/
structure Secured where
  sci : Nat
  an : Fin 4
  pn : Nat
  icvOk : Bool
  clear : Frame
deriving DecidableEq, Repr

/-- A frame at a port's pins: as it stands on the wire, whether its FCS is right, and its protection where it has a SecTAG. -/
structure Arrival where
  wire : Frame
  fcsOk : Bool
  prot : Option Secured
deriving DecidableEq, Repr

/-- What Onyx is asked of an MKPDU (R411): to check an ICV, to compute one, to generate a SAK, to unwrap one; a SAK is installed for an
association number in either direction. -/
inductive MkaOp where
  | check (icv : Nat)
  | compute
  | generate (an : Fin 4) (tx rx : Bool)
  | unwrap (an : Fin 4) (tx rx : Bool)
deriving DecidableEq, Repr

/-- The HEARTBEAT payload (R329), which PROBE and PROBE_REPLY use too. -/
structure Heartbeat where
  time : Nat
  epoch : Nat
  state : Fin 4
  failed : Bool
  secondary : Bool
deriving DecidableEq, Repr

/-- Who makes a span access of a Shelf (R147, R150): the tile itself, another tile of its group through the crossbar, a tile of another
group through the die network, or a shared block of a die at router (4, 5) or (5, 5). -/
inductive SpanFrom where
  | own
  | group (i : Fin 4)
  | net (tile : Fin 256)
  | block (die : Fin 2) (r55 : Bool)
deriving DecidableEq, Repr

/-- A completion ring whose tail is written: a job queue's, the tier manager's driver or firmware ring's, or that of the XPT queue the
requester has selected. -/
inductive CqRing where
  | job (q : Fin 1024)
  | driver
  | firmware
  | xpt
deriving DecidableEq, Repr

/-- How a transfer's granule accesses went (R269, R272): all well, or the granule at an index failed. -/
inductive TierFault where
  | none
  | failed (granule : Nat)
deriving DecidableEq, Repr

/-- What the check of a packet's header finds (R149). -/
inductive HeaderCheck where
  | clean
  | corrected
  | failed
deriving DecidableEq, Repr

/-- What a boot stage finds when it ends (R395, R397, R449, R454): the other firmware image was booted; what made Onyx stop (0 nothing, 1
identity, 2 no bootable image); the configuration record (0 good, 1 or 3 not accepted, 2 its site section not); the Cellar stacks that
passed training. -/
structure BootReport where
  fallback : Bool
  fail : Fin 3
  record : Fin 4
  trained : BitVec 8
deriving DecidableEq, Repr

end Sys2Proof
end

