-- ==== Sys2Proof/Syntax.lean ====
section
/-! DEFINITION. The commands of the KNQ-256: one constructor for each row of the opcode table, in the table's order. Who may
send a command and when it takes effect is in the meanings; a constructor holds the row's operands only. -/

namespace Sys2Proof

/-- A command: a register access, an operation, an arrival or an event. -/
inductive Instr where
  /-- REGISTER_WRITE (R42). A naturally aligned write to a register field that has no row of its own sets the value, or is discarded as a whole for RSV, static-field or version reasons. -/
  | registerWrite (r : Requester) (a : BitVec 26) (wide : Bool) (v : BitVec 64)
  /-- UNASSIGNED_ACCESS (R28). A read of an unassigned address returns zero; a write there is discarded and counted in HST.EVT_CNT7. -/
  | unassignedAccess (r : Requester) (a : BitVec 26) (write : Bool)
  /-- UNSUPPORTED_ACCESS (R29). An access that is not a naturally aligned 32-bit or 64-bit access completes with Unsupported Request and is counted. -/
  | unsupportedAccess (r : Requester) (a : BitVec 26) (n : Nat)
  /-- SPLIT_LOW_READ (R29). A 32-bit read of bits [31:0] of a 64-bit register captures bits [63:32] for the same requester's next read of the upper half. -/
  | splitLowRead (r : Requester) (a : BitVec 26) (wide : Bool)
  /-- SPLIT_LOW_WRITE (R29). A 32-bit write of bits [31:0] of a 64-bit register is held until the same requester writes bits [63:32]; any other access by that requester discards it. -/
  | splitLowWrite (r : Requester) (a : BitVec 26) (v : BitVec 32)
  /-- ISOLATED_PAGE_ACCESS (R40). An access to a page whose domain is isolated is answered from the always-on shadow or reads zero, and a write is discarded and counted. -/
  | isolatedPageAccess (r : Requester) (a : BitVec 26) (write : Bool)
  /-- ENABLE (R46). Writing CTRL.ENABLE = 1 starts the block's work, and STAT.ENABLED follows within the lag of R44. -/
  | enable (r : Requester) (p : Page) (w : BitVec 32)
  /-- DISABLE (R43). Writing CTRL.ENABLE = 0 stops the block from taking new work while it keeps all of its state. -/
  | disable (r : Requester) (p : Page) (w : BitVec 32)
  /-- ENABLED_CLEARED (R43). STAT.ENABLED falls to 0 once the work that was already started has ended after a disable. -/
  | enabledCleared (p : Page)
  /-- SOFT_RESET (R45). Writing CTRL.SOFT_RESET = 1 sets RESET_BUSY, ends held work with ABORTED and returns the page's fields to their reset values. -/
  | softReset (r : Requester) (p : Page) (w : BitVec 32)
  /-- RESET_DONE (R45). A soft reset completes: RESET_BUSY clears and EVT_STAT.RESET_DONE is set. -/
  | resetDone (p : Page)
  /-- EVT_FORCE (R38). Writing 1 to an EVT_FORCE bit sets the EVT_STAT bit as if the event had occurred, without counting it. -/
  | evtForce (r : Requester) (p : Page) (bits : BitVec 32)
  /-- EVT_CLEAR (R39). An RW1C write to EVT_STAT clears the bits written as 1, and EVT_CAUSE re-arms once every bit is clear. -/
  | evtClear (r : Requester) (p : Page) (bits : BitVec 32)
  /-- EQ_TAIL_WRITE (R385). Advancing EQ_TAIL frees room, and the device then writes one record for each routed page whose line is high and not yet reported. -/
  | eqTailWrite (r : Requester) (tail : BitVec 12)
  /-- NF_RECORD_CLEAR (R80). Writing 1 to NF_POS.VALID or SAT_POS.VALID clears the first-position record and re-arms capture. -/
  | nfRecordClear (r : Requester) (p : Page) (sat : Bool)
  /-- MXE_SIGNAL (R95). A tile SIGNAL operation moves nothing and completes once every earlier operation of the tile has completed. -/
  | mxeSignal (t : Fin 256)
  /-- CLEAR (R104). The CLEAR opcode discards the active accumulator set and begins a new chunk. -/
  | clearAcc (t : Fin 256)
  /-- MMA (R88). An MMA accumulates A × B into the active set as part of the current chunk. -/
  | mma (t : Fin 256)
  /-- DRAIN (R106). A DRAIN hands the active set to the drain converter and writes the converted output. -/
  | drain (t : Fin 256)
  /-- MMA_DRAIN (R90). An MMA_DRAIN accumulates A × B and then drains the same set. -/
  | mmaDrain (t : Fin 256)
  /-- CONVERT (R94). A CONVERT turns FP32 source lines into INT or QBI output through the drain converter. -/
  | convertT (t : Fin 256)
  /-- EXPAND (R90). An EXPAND turns INT or QBI source lines into FP32 output, scaled by SCALE_S. -/
  | expandT (t : Fin 256)
  /-- MXE_OP_START (R96). A queued tile operation starts and gives up its queue place when the loader issues its first operand access, after any interlock wait. -/
  | mxeOpStart (t : Fin 256)
  /-- REDUCTION_STEP_ENTER (R105). A reduction step enters the array once its target set will be ACTIVE three cycles later. -/
  | reductionStepEnter (t : Fin 256)
  /-- DRAIN_HANDOVER (R105). A drain hands its set over in the cycle after its last products accumulate, and the other set becomes ACTIVE if it is FREE. -/
  | drainHandover (t : Fin 256)
  /-- CONVERTER_TAKE_SET (R104). The idle drain converter takes a PENDING set, which becomes DRAINING. -/
  | converterTakeSet (t : Fin 256)
  /-- SET_FREE (R104). The last Shelf write of a drain is issued, the set returns to zeros and becomes FREE, or becomes ACTIVE if no set is. -/
  | setFree (t : Fin 256)
  /-- TILE_OP_COMPLETE (R95). A tile operation reports its status and OP_ID once its writes are visible, and advances its completion tally. -/
  | tileOpComplete (t : Fin 256)
  /-- VEC_SIGNAL (R129). A vector SIGNAL descriptor completes with DONE. -/
  | vecSignal (t : Fin 256)
  /-- RUN (R131). A RUN resets the registers, runs the entry's prologue once, the body SWEEPS times and the epilogue once. -/
  | run (t : Fin 256)
  /-- BIND_PROG (R127). BIND_PROG empties a program slot, copies an image from the die image store into it and validates it. -/
  | bindProg (t : Fin 256)
  /-- BIND_TABLE (R134). BIND_TABLE copies a function-table image into a table slot and validates it. -/
  | bindTable (t : Fin 256)
  /-- BIND_COMPLETE (R132). A bind completes once the slot holds the validated image, and only then advances its tally. -/
  | bindComplete (t : Fin 256)
  /-- VEC_COMPLETE (R132). A RUN completes once its last write is visible and its summary accepted, then reports its status and advances its tally. -/
  | vecComplete (t : Fin 256)
  /-- NOP (R119). The NOP instruction does nothing for one issue cycle. -/
  | nop (t : Fin 256)
  /-- FADD (R119). FADD adds two FP32 vectors lane by lane. -/
  | fadd (t : Fin 256)
  /-- FSUB (R119). FSUB subtracts two FP32 vectors lane by lane. -/
  | fsub (t : Fin 256)
  /-- FMUL (R119). FMUL multiplies two FP32 vectors lane by lane. -/
  | fmul (t : Fin 256)
  /-- FMA (R119). FMA forms va × vb + vc with a single rounding. -/
  | fma (t : Fin 256)
  /-- FMAX (R119). FMAX takes the lane-wise maximum under R59. -/
  | fmax (t : Fin 256)
  /-- FMIN (R119). FMIN takes the lane-wise minimum under R59. -/
  | fmin (t : Fin 256)
  /-- FABS (R119). FABS clears each lane's sign bit. -/
  | fabs (t : Fin 256)
  /-- FNEG (R119). FNEG inverts each lane's sign bit. -/
  | fneg (t : Fin 256)
  /-- FSCALE (R119). FSCALE multiplies each lane by 2^IMM with one rounding. -/
  | fscale (t : Fin 256)
  /-- FSQRT (R119). FSQRT takes the square root of each lane. -/
  | fsqrt (t : Fin 256)
  /-- FRCP (R119). FRCP takes the correctly rounded reciprocal of each lane. -/
  | frcp (t : Fin 256)
  /-- FRSQRT (R119). FRSQRT takes the correctly rounded reciprocal square root of each lane. -/
  | frsqrt (t : Fin 256)
  /-- IADD (R119). IADD adds INT32 lanes with saturation. -/
  | iadd (t : Fin 256)
  /-- ISUB (R119). ISUB subtracts INT32 lanes with saturation. -/
  | isub (t : Fin 256)
  /-- IMUL (R119). IMUL multiplies INT32 lanes with saturation. -/
  | imul (t : Fin 256)
  /-- AND (R119). AND combines two vectors bitwise. -/
  | andV (t : Fin 256)
  /-- OR (R119). OR combines two vectors bitwise. -/
  | orV (t : Fin 256)
  /-- XOR (R119). XOR combines two vectors bitwise. -/
  | xorV (t : Fin 256)
  /-- SHL (R119). SHL shifts each lane left logically by vb & 31. -/
  | shl (t : Fin 256)
  /-- SHRA (R119). SHRA shifts each lane right arithmetically by vb & 31. -/
  | shra (t : Fin 256)
  /-- CVTIF (R119). CVTIF converts INT32 lanes to FP32 scaled by 2^S. -/
  | cvtif (t : Fin 256)
  /-- CVTFI (R119). CVTFI converts FP32 lanes to INT32 under R68 with NEAREST rounding. -/
  | cvtfi (t : Fin 256)
  /-- FCMPLT (R119). FCMPLT sets a predicate to va < vb. -/
  | fcmplt (t : Fin 256)
  /-- FCMPLE (R119). FCMPLE sets a predicate to va ≤ vb. -/
  | fcmple (t : Fin 256)
  /-- FCMPEQ (R119). FCMPEQ sets a predicate to va = vb. -/
  | fcmpeq (t : Fin 256)
  /-- FISNF (R119). FISNF sets a predicate where va is a NaN or an infinity. -/
  | fisnf (t : Fin 256)
  /-- PAND (R119). PAND combines two predicates with AND. -/
  | pand (t : Fin 256)
  /-- POR (R119). POR combines two predicates with OR. -/
  | por (t : Fin 256)
  /-- PNOT (R119). PNOT complements a predicate. -/
  | pnot (t : Fin 256)
  /-- SEL (R119). SEL chooses va or vb per lane by a predicate. -/
  | selV (t : Fin 256)
  /-- MOV (R119). MOV copies a vector, a broadcast scalar or an immediate. -/
  | movV (t : Fin 256)
  /-- LANEID (R119). LANEID writes each lane's index as INT32. -/
  | laneid (t : Fin 256)
  /-- TBLV (R136). TBLV evaluates the value member of a function table at each lane's input. -/
  | tblv (t : Fin 256)
  /-- TBLD (R137). TBLD evaluates the derivative member of a function table at each lane's input. -/
  | tbld (t : Fin 256)
  /-- LD (R123). LD loads 512 bytes from a Shelf into a vector register. -/
  | ld (t : Fin 256)
  /-- ST (R123). ST stores a vector register as 512 bytes to a Shelf. -/
  | st (t : Fin 256)
  /-- LDX (R123). LDX loads two INT or QBI blocks and expands them exactly to FP32. -/
  | ldx (t : Fin 256)
  /-- STQ (R124). STQ converts two 64-lane halves into INT or QBI blocks and stores them, with dither and residue where asked. -/
  | stq (t : Fin 256)
  /-- SSET (R119). SSET sets a scalar register to an immediate. -/
  | sset (t : Fin 256)
  /-- SLD (R123). SLD loads one 32-bit word into a scalar register. -/
  | sld (t : Fin 256)
  /-- SFADD (R119). SFADD adds two scalar registers. -/
  | sfadd (t : Fin 256)
  /-- SFMUL (R119). SFMUL multiplies two scalar registers. -/
  | sfmul (t : Fin 256)
  /-- SFMAX (R119). SFMAX takes the maximum of two scalar registers. -/
  | sfmax (t : Fin 256)
  /-- SREDSUM (R122). SREDSUM sums a vector's lanes in a fixed pairwise tree into one or two scalars. -/
  | sredsum (t : Fin 256)
  /-- SREDMAX (R122). SREDMAX takes the maximum of a vector's lanes in a fixed tree shape. -/
  | sredmax (t : Fin 256)
  /-- SUMMARY (R138). SUMMARY sends one 32-byte scalar message to a control core's summary slot. -/
  | summary (t : Fin 256)
  /-- AINC (R119). AINC sets the per-sweep increment of an address register. -/
  | ainc (t : Fin 256)
  /-- XINC (R119). XINC sets the per-sweep increment of the index register. -/
  | xinc (t : Fin 256)
  /-- XPITCH (R119). XPITCH sets the pitch of the index register. -/
  | xpitch (t : Fin 256)
  /-- BODY (R131). BODY marks the first instruction of the body. -/
  | body (t : Fin 256)
  /-- END (R131). END adds the increments to the address and index registers and returns to the start of the body, or falls through after the last sweep. -/
  | endV (t : Fin 256)
  /-- HALT (R131). HALT ends the epilogue and so the program. -/
  | halt (t : Fin 256)
  /-- SUMMARY_MESSAGE (R139). A summary message arriving at a slot is stored, discarded or counted, and completes the slot with combined words when the count reaches EXPECT. -/
  | summaryMessage (k : Nat)
  /-- ARM (R139). Writing SLOT_CTRL.ARM re-arms a summary slot, clearing its entries and count. -/
  | arm (r : Requester) (d : Fin 2) (slot : Fin 64)
  /-- SHELF_SPAN_ACCESS (R148). A granted span access reads or writes one 64-byte span of a Shelf bank atomically. -/
  | shelfSpanAccess (f : SpanFrom) (t : Fin 256) (span : Fin 24576) (write : Option (BitVec 64 × BitVec 512)) (waits : Fin 4) (late : Nat)
  /-- NET_PACKET (R149). A packet on the crossbar, network or seam has its header checked, with single-bit errors corrected and counted. -/
  | netPacket (d : Fin 2) (col row : Fin 6) (seam : Bool) (h : HeaderCheck)
  /-- DIE_FAULT_CLEAR (R457). Once every outstanding transaction on the die has ended, the fault controller clears DIE_FAULT and the die returns to service. -/
  | dieFaultClear (d : Fin 2)
  /-- LB_FILL_WRITE (R157). A fill write arriving at a landing buffer is written if its GEN matches, and is otherwise discarded and counted in LB_DROP. -/
  | lbFillWrite (k : Nat)
  /-- FILL_COMPLETE (R157). The last write of a fill becomes visible, the buffer becomes FULL and the fill tally advances, deferred while the fill is speculative. -/
  | fillComplete (k : Nat)
  /-- TIME_SET (R164). A write of TIME_SET steps TIME only while both Agate engines are EMPTY or IDLE, and is otherwise refused with STEP_REFUSED. -/
  | timeSet (r : Requester) (v : BitVec 64)
  /-- PPS_EDGE (R166). A rising edge on PPS_IN captures TIME in PPS_CAPT and, in PPS mode, runs a servo update. -/
  | ppsEdge
  /-- SERVO_OFFSET (R166). A write of SERVO_OFFSET in PTP mode runs a servo update with that offset. -/
  | servoOffset (r : Requester) (e : BitVec 32)
  /-- HOLDOVER (R166). Three seconds without a servo update put the servo in HOLDOVER, and FREQ_ADJ holds at I. -/
  | holdover
  /-- PPS_OUT_PULSE (R477). When TIME reaches a multiple of 10⁹ ns, PPS_OUT drives a pulse of WIDTH_MS if enabled. -/
  | ppsOutPulse
  /-- LOAD (R197). A LOAD on AGT[0] admits, remaps groups, then reads and validates a timetable image for the whole package. -/
  | load (r : Requester)
  /-- LOAD_DONE (R197). A timetable load ends: it fills the stores, buffers, slots, views and counts, or records the first failure in LOAD_STAT and leaves both engines EMPTY. -/
  | loadDone
  /-- START (R198). A START in IDLE begins a run at START_TIME, or fails with START_PAST. -/
  | start (r : Requester)
  /-- STOP (R198). A STOP makes the run end when the current segment completes. -/
  | stop (r : Requester)
  /-- ABORT (R194). An ABORT ends the run with ABORTED. -/
  | abort (r : Requester)
  /-- BEAT_FETCH (R185). A sequencer fetches and checks beats into its 64-beat window and prepares their descriptors, running ahead into the successor or PREDICT. -/
  | beatFetch (d : Fin 2) (st : Fin 33) (upset : BitVec 256)
  /-- TALLY_INCREMENT (R174). A tally increment arriving on the notice network is applied to COUNT, and LAST_SRC records its source. -/
  | tallyIncrement (k : Nat)
  /-- WAIT_MET_NOTICE (R179). A notice that a wait has been met reaches the sequencer over the notice network. -/
  | waitMetNotice (d : Fin 2) (st : Fin 33)
  /-- TALLY_ADD (R201). A write of TALLY_ADD advances a tally by AMOUNT with source class 9. -/
  | tallyAdd (r : Requester) (d : Fin 2) (k : Fin 16) (j : BitVec 8) (n : BitVec 16)
  /-- ISSUE (R178). An ISSUE beat fires once its time and waits allow, and starts delivering its descriptors. -/
  | issue (d : Fin 2) (st : Fin 33)
  /-- DESCRIPTOR_DELIVER (R178). A descriptor of an ISSUE is delivered to its target queue once that queue has room. -/
  | descriptorDeliver (d : Fin 2) (st : Fin 33)
  /-- FILL (R177). A FILL beat fires within 64 beats of its stream's head and copies LEN64 × 64 bytes into a landing buffer. -/
  | fill (d : Fin 2) (st : Fin 33)
  /-- RELEASE (R157). A RELEASE beat fires once its buffer is not FILLING and returns the buffer to EMPTY with GEN + 1. -/
  | release (d : Fin 2) (st : Fin 33)
  /-- DECIDE (R182). A DECIDE beat fires and hands its decision point to a control core. -/
  | decideBeat (d : Fin 2) (st : Fin 33)
  /-- BEAT_END (R168). An END beat fires; the stream enters the successor once it is known, and the segment completes when every stream has fired its END. -/
  | beatEnd (d : Fin 2) (st : Fin 33)
  /-- BEAT_SIGNAL (R172). A SIGNAL beat fires and advances its SIG tally. -/
  | beatSignal (d : Fin 2) (st : Fin 33)
  /-- DECISION_EVALUATE (R182). Once every slot a decision point reads is COMPLETE, the core evaluates the predicate rules, sends the successor with its anchor and re-arms the slots. -/
  | decisionEvaluate (k : Nat) (guard : Option (Fin 1023))
  /-- DECISION_ARRIVE (R169). A decision reaches an Agate engine, which anchors the successor and confirms or squashes the speculative work. -/
  | decisionArrive (d : Fin 2)
  /-- DEC_TIMEOUT (R182). No decision within DEC_TIMEOUT of the DECIDE ends the run with TIMEOUT. -/
  | decTimeout (k : Nat)
  /-- WATCH_TIMEOUT (R194). A head beat still unfired at its planned time plus WATCH ends the run with TIMEOUT. -/
  | watchTimeout (d : Fin 2) (st : Fin 33)
  /-- PHASE_REPORT (R420). A phase report reaching PWR triggers a new evaluation of the package level. -/
  | phaseReport
  /-- PHASE_FORECAST (R420). A forecast of a phase change reaching PWR schedules level changes for the forecast's planned time. -/
  | phaseForecast
  /-- GRADIENT_STAMP (R222). When a shard's reduce-scatter completes, Oneisor writes the gradient stamp and advances the shard's stamp tally. -/
  | gradientStamp (d : Fin 2) (k : Fin 16) (shard : BitVec 52) (step : BitVec 32) (td : Fin 2) (t : Fin 4096)
  /-- EPOCH_FLIP (R222). On COMMIT, once the stamp and optimiser tallies are met, Oneisor flips the shard's epoch word in one 8-byte write and advances the flip tally. -/
  | epochFlip (d : Fin 2) (k : Fin 16) (shard : BitVec 52) (step : BitVec 32) (waits : List ((Fin 2 × Fin 4096) × BitVec 32)) (td : Fin 2) (t : Fin 4096)
  /-- CLASSIFY (R224). Before the next run Oneisor classifies each shard from its epoch word and gradient stamp. -/
  | classify (d : Fin 2) (k : Fin 16) (shard : BitVec 52) (last : BitVec 32)
  /-- DEFINE (R233). A DEFINE command makes a FREE communicator ACTIVE with its epoch. -/
  | define (r : Requester) (d : Fin 2) (k : Fin 16)
  /-- COMM_RETIRE (R233). A RETIRE command returns an ACTIVE or FAILED communicator with no work outstanding to FREE. -/
  | commRetire (r : Requester) (d : Fin 2) (k : Fin 16)
  /-- COL_SIGNAL (R236). A collective SIGNAL completes DONE locally. -/
  | colSignal (d : Fin 2)
  /-- ALL_REDUCE (R236). ALL_REDUCE delivers the full reduction to every member. -/
  | allReduce (d : Fin 2)
  /-- REDUCE_SCATTER (R236). REDUCE_SCATTER delivers the reduction of block r to rank r. -/
  | reduceScatter (d : Fin 2)
  /-- ALL_GATHER (R236). ALL_GATHER delivers every rank's block to every member. -/
  | allGather (d : Fin 2)
  /-- BROADCAST (R236). BROADCAST delivers the root's bytes to every member. -/
  | broadcast (d : Fin 2)
  /-- PERMUTE (R252). PERMUTE moves bytes between members under a validated map. -/
  | permute (d : Fin 2)
  /-- RING_PASS (R248). RING_PASS passes blocks around the ring into receive slots, step by step. -/
  | ringPass (d : Fin 2)
  /-- RESHARD (R251). RESHARD fences the old layout epoch and then permutes under the new epoch. -/
  | reshard (d : Fin 2)
  /-- BARRIER (R247). BARRIER completes once every member's BARRIER of the same OPSEQ has arrived. -/
  | barrier (d : Fin 2)
  /-- COL_OP_START (R248). A collective operation starts in issue order once fewer than eight are running. -/
  | colOpStart (d : Fin 2)
  /-- RING_STEP_ADMIT (R248). A RING_PASS step is admitted to its slot once FREE_TALLY and the slot's last forward send allow. -/
  | ringStepAdmit (d : Fin 2) (i : Fin 8)
  /-- COL_DATA_FRAME (R246). A collective DATA frame is placed, added to its piece slot, held, discarded or NACKed. -/
  | colDataFrame (n : Fin 8) (f : Frame)
  /-- COL_ACK (R243). A collective ACK marks frames of a flow as received by the peer. -/
  | colAck (n : Fin 8) (f : Frame)
  /-- COL_NACK (R243). A collective NACK ends the sender's operation with the status it carries. -/
  | colNack (n : Fin 8) (f : Frame)
  /-- COL_RTO (R243). A frame unacknowledged for RTO is retransmitted, and after RETRIES the operation ends with TIMEOUT. -/
  | colRto (d : Fin 2) (i : Fin 8) (rank : Fin 64) (psn : BitVec 32)
  /-- COL_ACK_DELAY (R243). ACK_DELAY after the first unacknowledged frame the receiver sends an ACK. -/
  | colAckDelay (d : Fin 2) (i : Fin 8) (rank : Fin 64)
  /-- COL_COMPLETE (R247). A collective operation completes, advances its tally, writes an arrival record and passes its slack to PWR. -/
  | colComplete (d : Fin 2) (i : Fin 8)
  /-- MQ_DOORBELL (R283). A write of MQ_TAIL or FQ_TAIL makes new tier-manager commands available in the driver or firmware ring. -/
  | mqDoorbell (r : Requester) (fw : Bool) (tail : BitVec 12)
  /-- CREATE (R263). CREATE reserves an object's placement, optionally zero-filling it, and puts the handle in CREATING. -/
  | create (fw : Bool)
  /-- CREATE_COMPLETE (R263). The zero-fill of a CREATE ends, the object becomes RESIDENT and DONE is written. -/
  | createComplete (fw : Bool)
  /-- DESTROY (R263). DESTROY refuses further accesses to an object and waits for outstanding ones. -/
  | destroy (fw : Bool)
  /-- DESTROY_COMPLETE (R263). Once outstanding accesses end, the placement is freed and the handle becomes FREE. -/
  | destroyComplete (fw : Bool)
  /-- MIGRATE (R263). MIGRATE refuses later writes and copies an object to a new tier beneath its unchanged address. -/
  | migrate (fw : Bool)
  /-- MIGRATE_COMPLETE (R263). A migration's copy ends; the translation switches, caches are invalidated and the source is freed. -/
  | migrateComplete (k : Nat) (f : TierFault)
  /-- QUERY (R273). QUERY returns an object's current tier, state and stack mask in a completion. -/
  | query (fw : Bool)
  /-- REFILL (R278). REFILL, from the firmware ring only, rewrites a SHARED object from an installed bank and moves its home there. -/
  | refill (fw : Bool)
  /-- REFILL_COMPLETE (R278). Every granule of a REFILL is written, the object's home becomes the bank and it returns to RESIDENT. -/
  | refillComplete (k : Nat) (f : TierFault)
  /-- TIR_SIGNAL (R279). A tier-manager SIGNAL descriptor completes DONE. -/
  | tirSignal
  /-- MOVE (R280). A MOVE copies LEN bytes from SRC to DST in ascending 4 KiB granules. -/
  | move
  /-- MOVE_COMPLETE (R280). Every byte of a MOVE is visible at DST, and it advances the issuing die's tally. -/
  | moveComplete (k : Nat) (f : TierFault)
  /-- TIER_DEADLINE (R272). A granule access that misses its tier's deadline ends its request with TIER_LATE and records LAST_ERR. -/
  | tierDeadline (kind : Fin 3) (k : Nat) (g : Nat)
  /-- CELLAR_READ (R267). A Cellar read is decrypted, ECC-corrected and, in protected regions, tag-checked. -/
  | cellarRead (who : Agent) (a : BitVec 52) (len : Nat) (ecc : Fin 3)
  /-- CELLAR_WRITE (R268). A Cellar write is encrypted and applied atomically or by read-modify-write, with its tag updated. -/
  | cellarWrite (who : Agent) (a : BitVec 52) (bytes : List Byte)
  /-- ATTIC_READ (R270). A read of the Attic window is decrypted with the slot's released key, or refused. -/
  | atticRead (who : Agent) (a : BitVec 52) (len : Nat) (bad : Bool)
  /-- BOXROOM_ACCESS (R271). A Boxroom access goes through the aperture's module for its page, sealed or clear. -/
  | boxroomAccess (who : Agent) (a : BitVec 52) (len : Nat) (write : Option (List Byte)) (poison : Bool)
  /-- INSTALL (R290). INSTALL checks a weight-set package in two passes and then programs the inactive bank in the order of R291. -/
  | install (r : Requester) (slot : Fin 32)
  /-- INSTALL_COMPLETE (R291). The final selector write marks the target bank VALID and the install ends, or a failure leaves it not VALID. -/
  | installComplete (bad : Bool)
  /-- ACTIVATE (R296). ACTIVATE flips a slot's ACTIVE bank, optionally raising FLOOR. -/
  | activate (r : Requester) (slot : Fin 32) (raise : Bool)
  /-- ATTIC_RETIRE (R296). RETIRE marks a slot's inactive bank not VALID. -/
  | atticRetire (r : Requester) (slot : Fin 32)
  /-- EMPTY (R296). EMPTY marks both banks of a slot not VALID. -/
  | empty (r : Requester) (slot : Fin 32)
  /-- SELECTOR_WRITE_DONE (R294). A selector copy is programmed, read back good, and the selector write completes. -/
  | selectorWriteDone (corrected : Bool)
  /-- REPLACE_IN_PLACE (R302). After ACTIVATE, Oneisor replaces a slot's objects layer by layer behind the replacement front. -/
  | replaceInPlace (slot : Fin 32) (layers : List LayerSpec)
  /-- FRONT_ADVANCE (R302). Once PASS of a layer has advanced for every old request, the layer is refilled and OPEN is granted to new requests. -/
  | frontAdvance (slot : Fin 32)
  /-- GEN_SWITCH (R303). After the new generation is staged, Oneisor writes SLOT_SVC.GEN between two admissions. -/
  | genSwitch (slot : Fin 32)
  /-- OLD_GEN_DESTROY (R303). When the old generation's pin count reaches 0, its objects are destroyed and its bank freed. -/
  | oldGenDestroy (slot : Fin 32)
  /-- FRAME_RECEIVE (R310). A received frame is sorted by the first rule that applies and delivered, discarded or counted. -/
  | frameReceive (n : Fin 9) (a : Arrival)
  /-- FRAME_TRANSMIT (R312). At a frame boundary the port starts the head of class 7 or of the highest open class whose frame fits. -/
  | frameTransmit (n : Fin 9) (carrier : Bool)
  /-- LINK_UP (R323). A fabric port's link comes up, and a HELLO follows within 100 µs. -/
  | linkUp (n : Fin 8) (lpi : Bool)
  /-- LINK_DOWN (R312). A fabric port's link goes down, queued frames are discarded and the width returns to PORT_CFG.WIDTH. -/
  | linkDown (n : Fin 8)
  /-- HELLO (R323). A HELLO from a KNQ-256 partner sets PARTNER_KNQ. -/
  | hello (n : Fin 8) (member : BitVec 16)
  /-- HELLO_TIMER (R323). Each second a port sends a HELLO. -/
  | helloTimer (n : Fin 8)
  /-- HEARTBEAT (R330). A valid heartbeat on a twin port drives the twin role state machine. -/
  | heartbeat (n : Fin 8) (sender : BitVec 48) (h : Heartbeat)
  /-- HEARTBEAT_SEND (R329). Every HB_INTERVAL each twin port sends a HEARTBEAT in class 7. -/
  | heartbeatSend (n : Fin 8)
  /-- LINK_SILENT (R330). LOSS_TIME without a valid heartbeat makes the twin link silent, and probing begins. -/
  | linkSilent
  /-- PROBE_SEND (R330). While the link is silent, a PROBE goes out every 1 ms on every probe path. -/
  | probeSend
  /-- PROBE (R330). A received PROBE is answered with a PROBE_REPLY within 1 ms. -/
  | probe (n : Fin 9) (sender : BitVec 48)
  /-- PROBE_REPLY (R330). A valid PROBE_REPLY marks the twin alive, and LINK_LOST is set. -/
  | probeReply (sender : BitVec 48)
  /-- PROMOTE_TIMEOUT (R330). Silence for PROMOTE_AFTER with no probe reply makes a healthy standby, or the primary in FENCED, begin promotion. -/
  | promoteTimeout
  /-- FENCE_TIMEOUT (R330). Silence for FENCE_AFTER with no probe reply fences an ACTIVE package. -/
  | fenceTimeout
  /-- PROMOTION_COMPLETE (R331). Promotion completes, the package becomes ACTIVE and admits requests, and TWIN_PROMOTED is raised. -/
  | promotionComplete
  /-- SWITCHOVER (R330). The SWITCHOVER command fences an ACTIVE package. -/
  | switchover (r : Requester)
  /-- RESUME (R330). The RESUME command makes a FENCED package begin promotion with epoch + 1. -/
  | resume (r : Requester)
  /-- HEALTH_FAILED (R330). Setting TWIN_HEALTH.FAILED fences an ACTIVE package and stops a standby from promoting. -/
  | healthFailed (r : Requester) (failed : Bool)
  /-- GL_LOAD (R315). A gate-list LOAD checks a list and makes it pending with change time C. -/
  | glLoad (r : Requester) (n : Fin 8)
  /-- GL_CANCEL (R315). CANCEL drops a pending gate list before its change time. -/
  | glCancel (r : Requester) (n : Fin 8)
  /-- GATE_CHANGE (R316). At C the pending gate list becomes the operating list. -/
  | gateChange (n : Fin 8)
  /-- GATE_ENTRY_BOUNDARY (R317). At an entry boundary of the gate cycle the port's gates open or close. -/
  | gateEntryBoundary (n : Fin 8)
  /-- SHED_TARGET (R324). Writing SHED_CTRL.TARGET with another width makes the port propose a lane change with SHED_REQ. -/
  | shedTarget (r : Requester) (n : Fin 8) (target : Fin 3)
  /-- SHED_REQ (R324). A received SHED_REQ is answered with SHED_ACK or SHED_NAK. -/
  | shedReq (n : Fin 8) (sender : BitVec 48) (x : BitVec 64) (target : Fin 8)
  /-- SHED_ACK (R324). A received SHED_ACK commits both ends to switching width at T_sw. -/
  | shedAck (n : Fin 8)
  /-- SHED_NAK (R325). A received SHED_NAK is counted, and the proposer proposes again no sooner than 100 µs later. -/
  | shedNak (n : Fin 8)
  /-- SHED_NO_ANSWER (R325). No answer within 20 µs to a SHED_REQ is counted, and a new proposal follows. -/
  | shedNoAnswer (n : Fin 8)
  /-- SHED_SWITCH (R324). At T_sw both ends switch PCS width, idling or resuming lanes. -/
  | shedSwitch (n : Fin 8)
  /-- SHED_RELOCK_FAIL (R325). Lanes not locked by T_sw + Q take the link down and count SHED_FAIL. -/
  | shedRelockFail (n : Fin 8)
  /-- LPI_ENTER (R326). After IDLE_NS with empty queues in an LPI_OK entry, the port enters low-power idle. -/
  | lpiEnter (n : Fin 8)
  /-- LPI_WAKE (R326). A queued frame, or WAKE_NS before the LPI_OK entry ends, starts the wake. -/
  | lpiWake (n : Fin 8)
  /-- TXQ_DOORBELL (R333). A write of TXQ_TAIL makes firmware transmit entries available to the port. -/
  | txqDoorbell (r : Requester) (n : Fin 9) (tail : BitVec 12)
  /-- FW_TX_ENTRY (R333). The port takes a transmit entry, checks it, sends the frame and writes its completion. -/
  | fwTxEntry (n : Fin 9)
  /-- MDIO_CMD (R334). A write of MDIO_CMD runs a Clause 22 read or write of the external PHY. -/
  | mdioCmd (r : Requester) (reg : Fin 32) (phy : Fin 32) (write : Bool) (answer : BitVec 16)
  /-- COLLISION (R335). A half-duplex collision sends a jam and backs off, or discards the frame. -/
  | collision (late : Bool)
  /-- BACKOFF_EXPIRY (R335). The backoff of a half-duplex frame ends and the port retries. -/
  | backoffExpiry
  /-- MKPDU (R411). Onyx checks or computes the ICV of an MKPDU, and unwraps or generates SAKs that it installs in the port. -/
  | mkpdu (n : Fin 8) (cak : Fin 16) (op : MkaOp) (pdu : List Byte)
  /-- CTX_CREATE (R346). CREATE copies quarter 0 of a connection context from CTX_SRC and advances its incarnation. -/
  | ctxCreate (r : Requester) (conn : BitVec 20)
  /-- LISTEN (R346). LISTEN makes an IDLE context wait for a CONNECT. -/
  | listen (r : Requester) (conn : BitVec 20)
  /-- CONNECT (R346). CONNECT sends a CONNECT packet and puts the context in CONNECTING. -/
  | connect (r : Requester) (conn : BitVec 20)
  /-- CTX_CLOSE (R346). CLOSE refuses new entries and, once outstanding operations end, sends CLOSE. -/
  | ctxClose (r : Requester) (conn : BitVec 20)
  /-- CTX_FREE (R346). FREE clears an idle, listening, closed or error context. -/
  | ctxFree (r : Requester) (conn : BitVec 20)
  /-- CTX_READ (R372). READ writes a context image to CTX_SRC, with the key reading as zero. -/
  | ctxRead (r : Requester) (conn : BitVec 20)
  /-- WRITE_PACKET (R360). A WRITE packet is placed at its offset in the window, counted into its message tracker, or answered with a NACK. -/
  | writePacket (n : Fin 8) (f : Frame)
  /-- READ_REQ (R363). A READ_REQ makes the responder read the window and send READ_RESP packets. -/
  | readReq (n : Fin 8) (f : Frame)
  /-- READ_RESP (R363). A READ_RESP packet is placed at the requester's destination. -/
  | readResp (n : Fin 8) (f : Frame)
  /-- ACK_PACKET (R366). An ACK packet marks packets acknowledged, ends completed messages and updates the congestion window. -/
  | ackPacket (n : Fin 8) (f : Frame)
  /-- NACK_PACKET (R359). A NACK packet ends the requester's message with the status it carries. -/
  | nackPacket (n : Fin 8) (f : Frame)
  /-- CONNECT_PACKET (R346). A CONNECT packet opens a matching LISTEN context with an ACCEPT, or draws a CLOSE. -/
  | connectPacket (n : Fin 8) (f : Frame)
  /-- ACCEPT (R346). An ACCEPT packet opens a CONNECTING context. -/
  | accept (n : Fin 8) (f : Frame)
  /-- CLOSE_PACKET (R346). A CLOSE packet ends outstanding operations and draws a CLOSE_ACK. -/
  | closePacket (n : Fin 8) (f : Frame)
  /-- CLOSE_ACK (R346). A CLOSE_ACK moves a CLOSING context to CLOSED. -/
  | closeAck (n : Fin 8) (f : Frame)
  /-- MESSAGE_COMPLETE (R361). When a message's bytes are all placed and visible, the tally is bumped once, RX_DONE is set and an ACK with COMPLETE is sent. -/
  | messageComplete (k : Nat)
  /-- CMRN_RTO (R362). RTO_NS after a message's last transmission, its unacknowledged packets are retransmitted under new PSNs, or the connection enters ERROR. -/
  | cmrnRto (k : Nat)
  /-- CMRN_ACK_DELAY (R362). ACK_DELAY_NS after a message's first unacknowledged packet, an ACK entry is sent. -/
  | cmrnAckDelay (k : Nat)
  /-- CONTEXT_FETCH_DONE (R350). A spilled context becomes resident, and its held packets are processed in arrival order. -/
  | contextFetchDone (ns : BitVec 32) (f : TierFault)
  /-- MISS_TIMEOUT (R350). A packet held in the miss buffer longer than MISS_TIMEOUT is dropped. -/
  | missTimeout (k : Nat)
  /-- WQ_DOORBELL (R354). A write of WQ_DOORBELL gives an XPT work queue a new tail. -/
  | wqDoorbell (r : Requester) (q : BitVec 12) (tail : BitVec 12)
  /-- XPT_ENTRY_START (R357). An XPT entry at a queue's head starts once its chain and fence conditions hold. -/
  | xptEntryStart (q : Fin 4096)
  /-- XPT_SIGNAL (R356). An XPT SIGNAL entry completes DONE at once. -/
  | xptSignal (i : Nat)
  /-- XPT_WRITE (R358). An XPT WRITE entry is cut into messages and sent as sprayed packets, the last message carrying any BUMP. -/
  | xptWrite (i : Nat)
  /-- XPT_READ (R358). An XPT READ entry sends READ_REQ messages for the window range. -/
  | xptRead (i : Nat)
  /-- XPT_ENTRY_COMPLETE (R359). When every message of an entry has ended, its completion record is written and a beat-queue tally is advanced. -/
  | xptEntryComplete (i : Nat)
  /-- Q_ABORT (R354). Q_CTRL.ABORT ends a queue's waiting and queued entries with ABORTED. -/
  | qAbort (r : Requester)
  /-- WIN_OPEN (R352). OPEN installs a window image with a new generation and VALID. -/
  | winOpen (r : Requester) (i : BitVec 16)
  /-- WIN_REVOKE (R352). REVOKE advances a window's generation and clears VALID. -/
  | winRevoke (r : Requester) (i : BitVec 16)
  /-- WIN_READ (R374). READ returns a window image. -/
  | winRead (r : Requester) (i : BitVec 16)
  /-- WIN_CMD_DONE (R352). A window command completes once no packet admitted under the old generation remains unplaced. -/
  | winCmdDone
  /-- SQ_DOORBELL (R387). A write of SQ_TAIL makes new job entries available to Oneisor. -/
  | sqDoorbell (r : Requester) (q : Fin 1024) (tail : BitVec 12)
  /-- JOB_SIGNAL (R382). A SIGNAL job entry completes DONE at once. -/
  | jobSignal (q : Fin 1024)
  /-- JOB_RUN (R382). A RUN job entry loads and starts a timetable on AGT[0] for the queue's tenant once Agate is free. -/
  | jobRun (q : Fin 1024)
  /-- ADMIT (R382). ADMIT pins weight-set generations, copies the argument block into the admission ring and advances ADMIT_TALLY. -/
  | admitEntry (q : Fin 1024) (opens : List (Fin 32 × Nat × Fin 2 × Fin 4096))
  /-- ADMIT_COMPLETE (R382). When DONE_TALLY has advanced for the batch, the ADMIT completes DONE and its pins are released. -/
  | admitComplete (i : Nat)
  /-- JOB_STOP (R382). A STOP job entry writes STOP on AGT[0] and completes DONE. -/
  | jobStop (q : Fin 1024)
  /-- COAL_TIMEOUT (R386). COAL_NS after the first unsignalled completion record, the queue raises its MSI-X vector. -/
  | coalTimeout (q : Fin 1024)
  /-- CXL_MEM_ACCESS (R388). A CXL.mem load or store through the HDM decoder reads or writes Shelf bytes. -/
  | cxlMemAccess (m : Fin 4) (x : BitVec 29) (write : Option (BitVec 64 × BitVec 512))
  /-- RETRAIN (R377). LINK_CTRL.RETRAIN retrains a UCIe module from TRAINING. -/
  | retrain (r : Requester) (m : Fin 4)
  /-- LINK_DISABLE (R377). Setting LINK_CTRL.DISABLE holds a UCIe module in DOWN. -/
  | linkDisable (r : Requester) (m : Fin 4)
  /-- LINK_STAGE_ADVANCE (R377). A UCIe module reaches its next bring-up stage, up to UP. -/
  | linkStageAdvance (m : Fin 4) (degraded memEn : Bool)
  /-- LINK_STAGE_TIMEOUT (R377). A UCIe module that does not advance within its stage's timeout stays there and raises LINK_DOWN. -/
  | linkStageTimeout (m : Fin 4)
  /-- MODULE_DOWN (R378). A UCIe module leaves UP, and its rings, records and Boxroom traffic move or fail. -/
  | moduleDown (m : Fin 4)
  /-- MODULE_RESET (R448). A CXL hot reset, link-down or FLR returns one module to DOWN for retraining. -/
  | moduleReset (m : Fin 4)
  /-- GET_VERSION (R400). The SPDM responder answers GET_VERSION with versions 1.2 and 1.3. -/
  | getVersion (fn : Fin 4)
  /-- GET_CAPABILITIES (R400). The SPDM responder answers GET_CAPABILITIES. -/
  | getCapabilities (fn : Fin 4)
  /-- NEGOTIATE_ALGORITHMS (R400). The SPDM responder answers NEGOTIATE_ALGORITHMS, or fails with NegotiationFail. -/
  | negotiateAlgorithms (fn : Fin 4) (offersRsaPss4096 : Bool) (offersSha512 : Bool)
  /-- GET_DIGESTS (R400). The SPDM responder returns the digests of its certificate slots. -/
  | getDigests (fn : Fin 4)
  /-- GET_CERTIFICATE (R400). The SPDM responder returns a certificate chain. -/
  | getCertificate (fn : Fin 4) (slot : Fin 8)
  /-- CHALLENGE (R400). The SPDM responder returns CHALLENGE_AUTH signed with the DIK. -/
  | challenge (fn : Fin 4) (nonce : BitVec 256)
  /-- GET_MEASUREMENTS (R400). The SPDM responder returns measurement blocks, signed when asked. -/
  | getMeasurements (fn : Fin 4) (block : BitVec 8) (sign : Bool) (nonce : BitVec 256)
  /-- SPDM_UNSUPPORTED (R400). Any other SPDM request draws ERROR with UnsupportedRequest. -/
  | spdmUnsupported (fn : Fin 4)
  /-- ENROL (R402). ENROL installs a new IVK, SUK and policy digest, and extends M5. -/
  | enrol (r : Requester)
  /-- FW_UPDATE (R398). FW_UPDATE verifies a firmware bundle and writes it into the inactive image. -/
  | fwUpdate (r : Requester)
  /-- FW_ACTIVATE (R398). FW_ACTIVATE flips the firmware selector to the other image for the next boot. -/
  | fwActivate (r : Requester)
  /-- FW_RAISE_FLOOR (R398). FW_RAISE_FLOOR sets FLOOR to the SVN of the running active bundle. -/
  | fwRaiseFloor (r : Requester)
  /-- CAK_IMPORT (R411). CAK_IMPORT stores a CAK and its CKN at CAK_INDEX. -/
  | cakImport (r : Requester)
  /-- CAK_DELETE (R411). CAK_DELETE clears one CAK. -/
  | cakDelete (r : Requester) (k : Fin 16)
  /-- EXTEND (R399). EXTEND extends one of M8 to M15 with a digest. -/
  | extendM (r : Requester) (k : Fin 16)
  /-- DEBUG_GRANT (R413). DEBUG_GRANT verifies a debug token, revokes every tenant, extends M6 and sets BOOT_STAT.DEBUG. -/
  | debugGrant (r : Requester)
  /-- ENTROPY_FAIL (R393). A failed entropy health test stops the DRBG, and commands that need randomness end with ABORTED. -/
  | entropyFail
  /-- KS_ACTIVATE (R408). ACTIVATE unwraps a TENANT package and derives and installs the slot's keys, or is held while the slot scrubs. -/
  | ksActivate (r : Requester) (t : Fin 16)
  /-- ACTIVATION_DONE (R408). Unwrap and derivation end, and the slot becomes ACTIVE. -/
  | activationDone (t : Fin 16)
  /-- KS_REVOKE (R409). REVOKE puts a tenant slot in REVOKING, refuses and aborts the tenant's work, and closes its connections. -/
  | ksRevoke (r : Requester) (t : Fin 16) (scrub : Bool)
  /-- REVOKE_LANDED (R409). The last admitted burst and placement land, and the slot's keys are cleared everywhere. -/
  | revokeLanded (t : Fin 16) (n : BitVec 32)
  /-- ZEROISED (R408). Every key copy is cleared, KEY_GEN goes to KS_LAST_GEN, and the slot goes to SCRUBBING or FREE. -/
  | zeroised (t : Fin 16)
  /-- SCRUB_DONE (R410). The scrub of the slot's regions completes, the slot becomes FREE and a held ACTIVATE proceeds. -/
  | scrubDone (t : Fin 16)
  /-- NAP (R437). PWR_CMD NAP is checked against its refusers and begins entry to NAP. -/
  | nap (r : Requester)
  /-- STANDBY (R437). PWR_CMD STANDBY is checked against its refusers and begins entry to STANDBY. -/
  | standby (r : Requester)
  /-- WAKE (R438). PWR_CMD WAKE ends NAP or STANDBY through the wake order. -/
  | wake (r : Requester)
  /-- STATE_ENTRY_COMPLETE (R438). Entry to NAP or STANDBY completes once the domains are isolated and powered down. -/
  | stateEntryComplete
  /-- NAP_AUTO_WAKE (R438). A Shelf access, LOAD, START, RUN or ADMIT in NAP wakes the package automatically. -/
  | napAutoWake
  /-- WAKE_N (R474). A falling edge on WAKE_N ends STANDBY. -/
  | wakeN
  /-- WAKE_STAGE_READY (R440). A wake stage's ready signal rises, and its TIME is recorded before the next stage starts. -/
  | wakeStageReady
  /-- WAKE_STAGE_TIMEOUT (R440). A wake stage times out, and PWR isolates again whatever it raised. -/
  | wakeStageTimeout (dom : Fin 100)
  /-- CAP_TICK (R423). Every 10 µs the cap loop lowers or raises the package level from measured power. -/
  | capTick (p10 : BitVec 32)
  /-- LEARN_TICK (R422). Every 1 µs PWR computes normalised group and uncore power for phase learning. -/
  | learnTick (dyn : List (BitVec 20)) (unc : List (BitVec 24))
  /-- RAMP_COMPLETE (R419). A group's voltage reaches its target, and its clock switches to the new level. -/
  | rampComplete (g : Fin 64)
  /-- CURRENT_ALARM (R424). IALERT_N, or a 1 µs estimate above 1,100 W, lowers every group by two levels with reason CURRENT. -/
  | currentAlarm
  /-- CURRENT_RELEASE (R424). Every 50 µs after the alarm has been clear for 100 µs, one level is released. -/
  | currentRelease
  /-- DROOP (R425). Supply droop below DROOP_MV halves a group's clock within 1 ns. -/
  | droop (g : Fin 64)
  /-- DROOP_END (R425). After 64 stretched cycles above the threshold the group returns to full rate. -/
  | droopEnd (g : Fin 64)
  /-- THERMAL_TICK (R426). Above TJ_LIMIT PWR lowers the level every 100 µs, and well below it raises the level every 1 ms. -/
  | thermalTick (tj : BitVec 8) (g : Fin 64)
  /-- THERMAL_TRIP (R426). A sensor at 110 °C sets every group to level 0 until all sensors read below 100 °C. -/
  | thermalTrip (tj : BitVec 8) (g : Fin 64)
  /-- SHIFT_PERIOD_END (R434). At the end of each SHIFT_PERIOD PWR updates CLIM and BOOST and sends power hints. -/
  | shiftPeriodEnd
  /-- POWER_HINT (R434). A received POWER_HINT naming this chip's rank as last contributes to BOOST. -/
  | powerHint (sender : BitVec 48) (c : Fin 32) (last : Option (Fin 64))
  /-- COLD_RESET (R448). Power-up or RESET_N low returns every domain to reset, and the boot follows on release. -/
  | coldReset
  /-- BOOT_STAGE_COMPLETE (R449). A boot stage completes, its time is recorded and the next stage starts; the last sets READY under R450. -/
  | bootStageComplete (b : BootReport)
  /-- BOOT_STAGE_TIMEOUT (R451). A boot stage that does not complete within its timeout fails the boot. -/
  | bootStageTimeout
  /-- CHAR_TRIAL_END (R452). A 50 µs known-answer trial of a group ends, and the group passes, fails or moves to the next candidate. -/
  | charTrialEnd (p : Fin 68) (pass : Bool)
  /-- SITE_RETIRE (R455). RETIRE schedules a physical group's retirement to a spare and optionally persists it. -/
  | siteRetire (r : Requester) (p : Fin 68) (persist : Bool)
  /-- SITE_RESTORE (R455). RESTORE clears a group's retirement for the next boot. -/
  | siteRestore (r : Requester) (p : Fin 68)
  /-- SITE_PARAMS (R455). PARAMS replaces the site parameters of the configuration record for the next boot. -/
  | siteParams (r : Requester)
  /-- SITE_DONE (R455). A site-section write completes and SITE_RESULT is set. -/
  | siteDone
  /-- PG_FALL (R470). A power-good input falls outside a power-state transition, which is a fatal fault. -/
  | pgFall
  /-- SEAM_CHANNEL_DOWN (R458). A seam channel leaves CH_UP, which is a fatal fault. -/
  | seamChannelDown (c : Fin 8)
  /-- REFCLK_STOP (R476). A stopped REFCLK_CORE is detected within 10 µs and treated as a fatal fault. -/
  | refclkStop
  /-- OVER_TEMP (R426). A sensor at 120 °C asserts THERM_SHDN_N and is a fatal fault. -/
  | overTemp
  /-- WD_KICK (R459). A write of WD_KICK clears WD_WARNED and restarts a control-core watchdog. -/
  | wdKick (r : Requester) (d : Fin 2) (cores : BitVec 2)
  /-- CORE_WATCHDOG_EXPIRY (R459). A control-core watchdog expires, first with a warning and on the second expiry as a fatal fault. -/
  | coreWatchdogExpiry (c : Fin 4)
  /-- PWR_WATCHDOG_EXPIRY (R459). The PWR watchdog expires after 1 ms without a cap-loop tick, a fatal fault. -/
  | pwrWatchdogExpiry
  /-- ONYX_WATCHDOG_EXPIRY (R459). The Onyx watchdog expires after 500 ms, a fatal fault. -/
  | onyxWatchdogExpiry
  /-- LOG_ADD (R462). A write of LOG_ADD offers an event-log entry from a control core. -/
  | logAdd (r : Requester) (code : BitVec 16) (status : BitVec 8)
  /-- LOG_PROGRAM_DONE (R461). A log entry's program and read-back complete, and the next waiting entry is programmed. -/
  | logProgramDone
  /-- LOG_READ (R467). A write of LOG_READ reads the named entry into LOG_DATA. -/
  | logRead (r : Requester) (seq : BitVec 32)
  /-- POWER_FAIL_WARNING (R464). PWRFAIL_N asserted drops every group to level 0, and the Attic finishes its program and logs POWER_FAIL. -/
  | powerFailWarning
  /-- POWER_FAIL_RELEASE (R475). PWRFAIL_N released while every PG is still high returns the device to normal service. -/
  | powerFailRelease
  /-- POWER_LOSS (R465). Power fails and the state of R465 is lost or kept. -/
  | powerLoss
  /-- RESET_RELEASE (R449). The release of RESET_N starts the climb through the boot stages from stage RESET. -/
  | resetRelease
  /-- BANK_KEY_RELEASE (R405). Onyx finishes verifying a VALID bank's record and unwrapping its key, writes the key to the Attic controller, extends M7 and lets that slot's Attic reads proceed. -/
  | bankKeyRelease (bank : Fin 64)
  /-- MAILBOX_CMD_DONE (R415). A running Onyx mailbox command ends, MBX_RESULT takes its status, BUSY clears and EVT_STAT.CMD_DONE is set. -/
  | mailboxCmdDone
  /-- CONTEXT_WRITE_BACK_DONE (R349). The write-back of an evicted connection context completes, freeing its slot and letting a fetch of that context start. -/
  | contextWriteBackDone
  /-- CONNECT_RETRANSMIT (R346). RTO_NS after a CONNECT was last sent from a CONNECTING context, it is sent again, or after RETRIES unanswered sends the context enters ERROR. -/
  | connectRetransmit (conn : BitVec 20)
  /-- CLOSE_RETRANSMIT (R346). A CLOSING context's timer expires: CLOSE is sent after the RTO_NS × RETRIES wait or sent again, and after RETRIES retransmissions the context goes to CLOSED with its remaining operations ABORTED. -/
  | closeRetransmit (conn : BitVec 20)
  /-- LPI_WAKE_DONE (R326). A fabric port finishes waking from low-power idle, LPI clears, and frames that waited for the wake may be sent. -/
  | lpiWakeDone (n : Fin 8)
  /-- FORECAST_TIME (R420). The planned time of a forecast phase arrives, and PWR applies the lowering decision it scheduled for that time. -/
  | forecastTime
  /-- THERMAL_TRIP_RELEASE (R426). Once every sensor reads below 100 °C, the hardware trip releases and groups may leave level 0. -/
  | thermalTripRelease
  /-- CQ_TAIL_WRITE (R381). A write of a completion ring's tail (job-queue CQ_TAIL, tier-manager CQ_TAIL or FCQ_TAIL, XPT Q_CQ_TAIL) frees room, and a head entry or command that waited for room is taken. -/
  | cqTailWrite (r : Requester) (ring : CqRing) (tail : BitVec 12)
  /-- NAP_WAKE_DONE (R438). A wake from NAP completes within 40 µs, the package is ACTIVE again and the accesses or commands that waited for the wake complete. -/
  | napWakeDone
deriving DecidableEq, Repr

end Sys2Proof
end

