-- ==== Sys2Proof/WellFormed.lean ====
section
/-! DEFINITION. Which commands are well formed: what the operands of a row must be for a sender to be able to send it. Most operands
are bounded by their types. A meaning gives a command that is not well formed some next state too. -/

namespace Sys2Proof

/-- The page index has such a page (R31). -/
def Page.present (p : Page) : Bool := p.inst < p.ty.count

/-- A naturally aligned access of 32 or 64 bits (R29). -/
def aligned (a n : Nat) : Bool := (n == 4 || n == 8) && a % n == 0

/-- The page type has the first-position record: NF_POS or SAT_POS (R79, R257). -/
def hasRecord : PageType → Bool → Bool
  | .mxe, _ | .vec, _ => true
  | .col, sat => sat
  | _, _ => false

/-- A frame's addresses, tag and EtherType fit their fields on the wire. -/
def Frame.wf (f : Frame) : Bool :=
  f.dst < 2 ^ 48 && f.src < 2 ^ 48 && f.ety < 2 ^ 16 && f.tag.all (· < 2 ^ 16)

/-- An arrival's frames and SecTAG fit their fields. -/
def Arrival.wf (a : Arrival) : Bool := a.wire.wf && a.prot.all fun p => p.clear.wf && p.sci < 2 ^ 64 && p.pn < 2 ^ 64

/-- A heartbeat's numbers fit its payload (R329). -/
def Heartbeat.wf (h : Heartbeat) : Bool := h.time < 2 ^ 64 && h.epoch < 2 ^ 32

/-- The command is well formed. -/
def Instr.wf : Instr → Bool
  | .registerWrite _ a wide v => aligned a.toNat (if wide then 8 else 4) && (wide || v.toNat < 2 ^ 32)
  | .unsupportedAccess _ a n => !aligned a.toNat n && 0 < n
  | .splitLowRead _ a wide => aligned a.toNat (if wide then 8 else 4)
  | .splitLowWrite _ a _ => aligned a.toNat 8
  | .enable _ p w => p.present && w.getLsbD 0 && !w.getLsbD 1
  | .disable _ p w => p.present && !w.getLsbD 0 && !w.getLsbD 1
  | .enabledCleared p => p.present
  | .softReset _ p w => p.present && w.getLsbD 1
  | .resetDone p => p.present
  | .evtForce _ p _ => p.present
  | .evtClear _ p _ => p.present
  | .nfRecordClear _ p sat => p.present && hasRecord p.ty sat
  | .colDataFrame _ f => f.wf
  | .colAck _ f => f.wf
  | .colNack _ f => f.wf
  | .cellarRead _ _ len _ => 0 < len
  | .cellarWrite _ _ bytes => !bytes.isEmpty
  | .atticRead _ _ len _ => 0 < len
  | .boxroomAccess _ _ len w _ => 0 < len && w.all (fun b => b.length == len)
  | .frameReceive _ a => a.wf
  | .heartbeat _ _ h => h.wf
  | .writePacket _ f => f.wf
  | .readReq _ f => f.wf
  | .readResp _ f => f.wf
  | .ackPacket _ f => f.wf
  | .nackPacket _ f => f.wf
  | .connectPacket _ f => f.wf
  | .accept _ f => f.wf
  | .closePacket _ f => f.wf
  | .closeAck _ f => f.wf
  | .unassignedAccess .. | .isolatedPageAccess .. | .eqTailWrite .. | .mxeSignal .. | .clearAcc .. | .mma .. | .drain ..
  | .mmaDrain .. | .convertT .. | .expandT .. | .mxeOpStart .. | .reductionStepEnter .. | .drainHandover ..
  | .converterTakeSet .. | .setFree .. | .tileOpComplete .. | .vecSignal .. | .run .. | .bindProg .. | .bindTable ..
  | .bindComplete .. | .vecComplete .. | .nop .. | .fadd .. | .fsub .. | .fmul .. | .fma .. | .fmax .. | .fmin .. | .fabs ..
  | .fneg .. | .fscale .. | .fsqrt .. | .frcp .. | .frsqrt .. | .iadd .. | .isub .. | .imul .. | .andV .. | .orV .. | .xorV ..
  | .shl .. | .shra .. | .cvtif .. | .cvtfi .. | .fcmplt .. | .fcmple .. | .fcmpeq .. | .fisnf .. | .pand .. | .por ..
  | .pnot .. | .selV .. | .movV .. | .laneid .. | .tblv .. | .tbld .. | .ld .. | .st .. | .ldx .. | .stq .. | .sset ..
  | .sld .. | .sfadd .. | .sfmul .. | .sfmax .. | .sredsum .. | .sredmax .. | .summary .. | .ainc .. | .xinc .. | .xpitch ..
  | .body .. | .endV .. | .halt .. | .summaryMessage .. | .arm .. | .shelfSpanAccess .. | .netPacket .. | .dieFaultClear ..
  | .lbFillWrite .. | .fillComplete .. | .timeSet .. | .ppsEdge | .servoOffset .. | .holdover | .ppsOutPulse | .load ..
  | .loadDone | .start .. | .stop .. | .abort .. | .beatFetch .. | .tallyIncrement .. | .waitMetNotice .. | .tallyAdd ..
  | .issue .. | .descriptorDeliver .. | .fill .. | .release .. | .decideBeat .. | .beatEnd .. | .beatSignal ..
  | .decisionEvaluate .. | .decisionArrive .. | .decTimeout .. | .watchTimeout .. | .phaseReport | .phaseForecast
  | .gradientStamp .. | .epochFlip .. | .classify .. | .define .. | .commRetire .. | .colSignal .. | .allReduce ..
  | .reduceScatter .. | .allGather .. | .broadcast .. | .permute .. | .ringPass .. | .reshard .. | .barrier .. | .colOpStart ..
  | .ringStepAdmit .. | .colRto .. | .colAckDelay .. | .colComplete .. | .mqDoorbell .. | .create .. | .createComplete ..
  | .destroy .. | .destroyComplete .. | .migrate .. | .migrateComplete .. | .query .. | .refill .. | .refillComplete ..
  | .tirSignal | .move | .moveComplete .. | .tierDeadline .. | .install .. | .installComplete .. | .activate ..
  | .atticRetire .. | .empty .. | .selectorWriteDone .. | .replaceInPlace .. | .frontAdvance .. | .genSwitch ..
  | .oldGenDestroy .. | .frameTransmit .. | .linkUp .. | .linkDown .. | .hello .. | .helloTimer .. | .heartbeatSend ..
  | .linkSilent | .probeSend | .probe .. | .probeReply .. | .promoteTimeout | .fenceTimeout | .promotionComplete
  | .switchover .. | .resume .. | .healthFailed .. | .glLoad .. | .glCancel .. | .gateChange .. | .gateEntryBoundary ..
  | .shedTarget .. | .shedReq .. | .shedAck .. | .shedNak .. | .shedNoAnswer .. | .shedSwitch .. | .shedRelockFail ..
  | .lpiEnter .. | .lpiWake .. | .txqDoorbell .. | .fwTxEntry .. | .mdioCmd .. | .collision .. | .backoffExpiry | .mkpdu ..
  | .ctxCreate .. | .listen .. | .connect .. | .ctxClose .. | .ctxFree .. | .ctxRead .. | .messageComplete .. | .cmrnRto ..
  | .cmrnAckDelay .. | .contextFetchDone .. | .missTimeout .. | .wqDoorbell .. | .xptEntryStart .. | .xptSignal ..
  | .xptWrite .. | .xptRead .. | .xptEntryComplete .. | .qAbort .. | .winOpen .. | .winRevoke .. | .winRead .. | .winCmdDone
  | .sqDoorbell .. | .jobSignal .. | .jobRun .. | .admitEntry .. | .admitComplete .. | .jobStop .. | .coalTimeout ..
  | .cxlMemAccess .. | .retrain .. | .linkDisable .. | .linkStageAdvance .. | .linkStageTimeout .. | .moduleDown ..
  | .moduleReset .. | .getVersion .. | .getCapabilities .. | .negotiateAlgorithms .. | .getDigests .. | .getCertificate ..
  | .challenge .. | .getMeasurements .. | .spdmUnsupported .. | .enrol .. | .fwUpdate .. | .fwActivate .. | .fwRaiseFloor ..
  | .cakImport .. | .cakDelete .. | .extendM .. | .debugGrant .. | .entropyFail | .ksActivate .. | .activationDone ..
  | .ksRevoke .. | .revokeLanded .. | .zeroised .. | .scrubDone .. | .nap .. | .standby .. | .wake .. | .stateEntryComplete
  | .napAutoWake | .wakeN | .wakeStageReady | .wakeStageTimeout .. | .capTick .. | .learnTick .. | .rampComplete ..
  | .currentAlarm | .currentRelease | .droop .. | .droopEnd .. | .thermalTick .. | .thermalTrip .. | .shiftPeriodEnd
  | .powerHint .. | .coldReset | .bootStageComplete .. | .bootStageTimeout | .charTrialEnd .. | .siteRetire ..
  | .siteRestore .. | .siteParams .. | .siteDone | .pgFall | .seamChannelDown .. | .refclkStop | .overTemp | .wdKick ..
  | .coreWatchdogExpiry .. | .pwrWatchdogExpiry | .onyxWatchdogExpiry | .logAdd .. | .logProgramDone | .logRead ..
  | .powerFailWarning | .powerFailRelease | .powerLoss | .resetRelease | .bankKeyRelease .. | .mailboxCmdDone
  | .contextWriteBackDone | .connectRetransmit .. | .closeRetransmit .. | .lpiWakeDone .. | .forecastTime | .thermalTripRelease
  | .cqTailWrite .. | .napWakeDone => true

end Sys2Proof
end

