-- ==== Sys2Proof/Machine/Store.lean ====
section
/-! DEFINITION. Sparse stores: a list of (key, value) pairs in one canonical form (keys strictly rising, no entry equal
to the value an unlisted key reads as). Every memory, register file and table of the block is one of these. -/

namespace Sys2Proof.Machine

/-- The value at key `k`, or `d` where nothing is listed. -/
def Store.get {α : Type} (d : α) : List (Nat × α) → Nat → α
  | [], _ => d
  | (k', v) :: m, k => if k' = k then v else Store.get d m k

/-- `m` with no entry for `k`. -/
def Store.erase {α : Type} : List (Nat × α) → Nat → List (Nat × α)
  | [], _ => []
  | (k', v) :: m, k => if k' = k then Store.erase m k else (k', v) :: Store.erase m k

/-- `m` with the entry `(k, v)` put before the first larger key. -/
def Store.insert {α : Type} : List (Nat × α) → Nat → α → List (Nat × α)
  | [], k, v => [(k, v)]
  | (k', v') :: m, k, v => if k < k' then (k, v) :: (k', v') :: m else (k', v') :: Store.insert m k v

/-- `m` with `v` at key `k`; writing the value an unlisted key reads as removes the entry. -/
def Store.set {α : Type} [DecidableEq α] (d : α) (m : List (Nat × α)) (k : Nat) (v : α) : List (Nat × α) :=
  if v = d then Store.erase m k else Store.insert (Store.erase m k) k v

/-- The keys rise strictly from a lower bound (`none`: no bound). -/
def Store.rising {α : Type} : Option Nat → List (Nat × α) → Bool
  | _, [] => true
  | lo, (k, _) :: m => (match lo with | none => true | some l => decide (l < k)) && Store.rising (some k) m

/-- The canonical form: keys strictly rising and no entry equal to the default. -/
def Store.wf {α : Type} [DecidableEq α] (d : α) (m : List (Nat × α)) : Bool :=
  Store.rising none m && m.all (fun e => decide (e.2 ≠ d))

/-- `n` consecutive values from key `k` on. -/
def Store.read {α : Type} (d : α) (m : List (Nat × α)) (k : Nat) : Nat → List α
  | 0 => []
  | n + 1 => Store.get d m k :: Store.read d m (k + 1) n

/-- The values of a list stored at consecutive keys from `k` on, the first at `k`. -/
def Store.write {α : Type} [DecidableEq α] (d : α) : List (Nat × α) → Nat → List α → List (Nat × α)
  | m, _, [] => m
  | m, k, v :: vs => Store.write d (Store.set d m k v) (k + 1) vs

end Sys2Proof.Machine
end

