-- ==== Sys2Proof/Machine/Operands.lean ====
section
/-! DEFINITION. Operand forms: little-endian bit fields of descriptors, records and packets, byte lists, and the SECDED
check code of R170 that every control structure carries. -/

namespace Sys2Proof.Machine

/-- The `w` bits of `d` from bit `lo` on. -/
def bitsOf (d lo w : Nat) : Nat := (d >>> lo) % 2 ^ w

/-- The `w`-bit field at byte offset `off`, bit `lo`, of a little-endian structure `d`. -/
def fieldAt (d off lo w : Nat) : Nat := bitsOf d (8 * off + lo) w

/-- Bit `i` of `d`. -/
def bitAt (d i : Nat) : Bool := (d >>> i) % 2 == 1

/-- `v` placed in `w` bits at byte offset `off`, bit `lo`, of a structure that is zero there. -/
def placeAt (off lo w v : Nat) : Nat := (v % 2 ^ w) <<< (8 * off + lo)

/-- The little-endian number of a byte list. -/
def leNat : List Byte → Nat
  | [] => 0
  | b :: bs => b.toNat + 256 * leNat bs

/-- The `n` low bytes of `v`, least significant first. -/
def leBytes : Nat → Nat → List Byte
  | 0, _ => []
  | n + 1, v => BitVec.ofNat 8 v :: leBytes n (v / 256)

/-- Two's complement reading of the low `w` bits. -/
def signedOf (w v : Nat) : Int :=
  let u := v % 2 ^ w
  if u < 2 ^ (w - 1) then (u : Int) else (u : Int) - (2 ^ w : Nat)

/-- The low `w` bits of an integer in two's complement. -/
def unsignedOf (w : Nat) (i : Int) : Nat := (i % (2 ^ w : Nat)).toNat

/-- `a + b`, held at the largest `w`-bit number (R39: counters saturate). -/
def satAdd (w a b : Nat) : Nat := min (2 ^ w - 1) (a + b)

/-- The number of set bits among the low `n` bits of `v`. -/
def popCount : Nat → Nat → Nat
  | 0, _ => 0
  | n + 1, v => v % 2 + popCount n (v / 2)

/-- The set bit positions below `n`, ascending. -/
def bitList (n v : Nat) : List Nat := (List.range n).filter (bitAt v)

/-- `n` is a power of two. -/
def isPow2 (n : Nat) : Bool := n != 0 && (n &&& (n - 1)) == 0

/-- The next integer after `p` that is not a power of two (`p ≥ 3`): the walk of R170's `pos`. -/
def nextPos (p : Nat) : Nat := if isPow2 (p + 1) then p + 2 else p + 1

/-- The XOR of `pos(j)` over the set data bits, and the XOR of those bits: `k` bits of `d`, `p` being the position of
the first (R170). -/
def secWalk : Nat → Nat → Nat → Nat × Bool
  | 0, _, _ => (0, false)
  | k + 1, d, p =>
    let rest := secWalk k (d / 2) (nextPos p)
    if d % 2 = 1 then (rest.1 ^^^ p, !rest.2) else rest

/-- Whether some data bit among `k` has position `s`; its index. -/
def posIndex : Nat → Nat → Nat → Nat → Option Nat
  | 0, _, _, _ => none
  | k + 1, p, j, s => if p = s then some j else posIndex k (nextPos p) (j + 1) s

/-- The parity of the low `n` bits. -/
def parity (n v : Nat) : Bool := popCount n v % 2 == 1

/-- The check code of `k` data bits `d` with `r` Hamming bits (R170, encode). -/
def secEncode (k r d : Nat) : Nat :=
  let c := secWalk k d 3
  let odd := c.2 != parity r c.1
  c.1 % 2 ^ r + (if odd then 2 ^ r else 0)

/-- What a check found. -/
inductive CheckResult where
  | clean (d : Nat)          -- the data as stored
  | corrected (d : Nat)      -- the data after one bit was put right
  | failed                   -- an uncorrectable error
deriving DecidableEq, Repr

/-- The check of `k` data bits `d` against the stored code `c` (R170, decode). -/
def secDecode (k r d c : Nat) : CheckResult :=
  let w := secWalk k d 3
  let s := (w.1 % 2 ^ r) ^^^ (c % 2 ^ r)
  let p := w.2 != parity (r + 1) c
  if p then
    if s = 0 ∨ isPow2 s then .corrected d
    else match posIndex k 3 0 s with
      | some j => .corrected (d ^^^ 2 ^ j)
      | none => .failed
  else if s = 0 then .clean d else .failed

/-- The Hamming bits of a structure of `n` bytes: 8, 16, 32, 64 (R170). -/
def checkBits (n : Nat) : Nat := if n ≤ 8 then 6 else if n ≤ 16 then 7 else if n ≤ 32 then 8 else 9

/-- The data bits of an `n`-byte structure: all but CHECK, which lies in the low bits of its last word. -/
def dataOf (n v : Nat) : Nat :=
  let lo := 8 * n - 32
  let w := checkBits n + 1
  v % 2 ^ lo + ((v >>> (lo + w)) <<< lo) % 2 ^ (8 * n - w)

/-- The structure with data bits `d` and code `c`. -/
def ofData (n d c : Nat) : Nat :=
  let lo := 8 * n - 32
  let w := checkBits n + 1
  d % 2 ^ lo + ((c % 2 ^ w) <<< lo) + ((d >>> lo) <<< (lo + w))

/-- The check of an `n`-byte structure; the result carries the structure with any single error put right. -/
def checkStruct (n v : Nat) : CheckResult :=
  let k := 8 * n - (checkBits n + 1)
  match secDecode k (checkBits n) (dataOf n v) (v >>> (8 * n - 32)) with
  | .clean d => .clean (ofData n d (secEncode k (checkBits n) d))
  | .corrected d => .corrected (ofData n d (secEncode k (checkBits n) d))
  | .failed => .failed

/-- The structure with its CHECK field computed. -/
def withCheck (n v : Nat) : Nat :=
  ofData n (dataOf n v) (secEncode (8 * n - (checkBits n + 1)) (checkBits n) (dataOf n v))

/-- A mask with ones in the fields listed as (offset, low bit, width). -/
def maskOf (fs : List (Nat × Nat × Nat)) : Nat :=
  fs.foldl (fun m f => m ||| placeAt f.1 f.2.1 f.2.2 (2 ^ f.2.2 - 1)) 0

/-- A structure has a bit set outside the fields listed. -/
def reservedSet (n d : Nat) (fs : List (Nat × Nat × Nat)) : Bool := d % 2 ^ (8 * n) &&& (2 ^ (8 * n) - 1 - maskOf fs) != 0

/-- `n` rounded up to a multiple of `k`. -/
def roundUp (n k : Nat) : Nat := (n + k - 1) / k * k

/-- One byte's worth of the CRC-32 of IEEE 802.3, bit by bit (reflected polynomial 0xEDB88320). -/
def crcStep : Nat → Nat → Nat
  | 0, c => c
  | k + 1, c => crcStep k (if c % 2 = 1 then c / 2 ^^^ 0xEDB88320 else c / 2)

/-- CRC-32 of IEEE 802.3 over a byte list (R293). -/
def crc32 (bs : List Byte) : Nat := bs.foldl (fun c b => crcStep 8 (c ^^^ b.toNat)) 0xFFFFFFFF ^^^ 0xFFFFFFFF

end Sys2Proof.Machine
end

