-- ==== Sys2Proof/Config.lean ====
section
/-! DEFINITION. What one part or one implementation fixes, and the free values: constants with no body, of which no proof
can see a value. The cryptographic functions are constants of this kind too: the model knows that both ends compute the same
function, and nothing else about it (log 26). -/

namespace Sys2Proof

/-- The boot value of the register field at an offset and low bit of a page type, where the spec's Reset column says
`boot` and no rule states the number (R14). UNVERIFIED, free (log 7). -/
opaque Config.boot : Nat → Nat → Nat → Nat

/-- The `n`-th free value: what the spec leaves undefined, unspecified or random. Each draw takes a new `n`. -/
opaque Config.free : Nat → Nat

/-- A byte of host memory that nothing has written. -/
opaque Config.hostByte : Nat → Byte

/-- What a Cellar block or tag holds before the device writes it (R483). -/
opaque Config.dram : Nat → Nat

/-- A byte of the Attic's banks as the model's start finds it. -/
opaque Config.atticByte : Nat → Byte

/-- Bank record of a VALID bank as the model's start finds it (R291). -/
opaque Config.bankRecord : Nat → List Byte

/-- Wear count of an Attic block as the model's start finds it. -/
opaque Config.wear : Nat → Nat

/-- What the manufacture and earlier enrolments left in the part: 1 IVK modulus, 2 SUK, 3 policy digest, 4 REQUIRE_POLICY,
5 unclaimed, 6 and 7 digests of the firmware keys in ROM, 8 weight-signing key modulus, 9 modulus of the debug key, 10 ROM digest,
11 to 13 digests of the running components, 14 digest of the configuration record, 15 VALID images, 16 SUK identity of the DEK, 18 and 19 SVNs of the
firmware images, 20 digest of the bundle header. -/
opaque Config.part : Nat → Nat

/-- Fields of the configuration record as the model's start finds them (R454): 0 SITE_SEQ, 1 RETIRED, 2 TWIN_PORTS, 3 SECONDARY,
4 UNCLAIMED, 5 PTP_PORT, 6 PTP_EN, 7 TWIN_MAC_BASE, 8 MGT_IP, 9 TWIN_MGT_IP; 17 MAC_BASE; 100 + p FMAX of physical group p; 200 + i
energy coefficient i. -/
opaque Config.record : Nat → Nat

/-- Event-log entries as the model's start finds them, by SEQ (R460). -/
opaque Config.logEntry : Nat → Nat

/-- Certificate chain of an SPDM slot as manufacture or earlier enrolments left it. -/
opaque Config.chain : Nat → List Byte

/-- XTS-AES-256 of the 16-byte block `i` of a data unit (R266, R288), and its inverse. -/
opaque Config.xtsSeal : Prov → Nat → Nat → Nat
opaque Config.xtsOpen : Prov → Nat → Nat → Nat

/-- The 64-bit tag of a unit's ciphertext (R267). -/
opaque Config.cmac : Prov → List Byte → Nat

/-- SHA-512. -/
opaque Config.sha512 : List Byte → Nat

/-- RSASSA-PSS verification: modulus, message, signature. -/
opaque Config.pssVerify : Nat → List Byte → List Byte → Bool

/-- RSAES-OAEP unwrap: private key, label, wrapped value. -/
opaque Config.oaepOpen : Nat → List Byte → List Byte → Option Nat

/-- AES-256-GCM: key, IV, additional data; plaintext to ciphertext and tag, and back. -/
opaque Config.gcmSeal : Nat → Nat → List Byte → List Byte → List Byte × Nat
opaque Config.gcmOpen : Nat → Nat → List Byte → List Byte → Nat → Option (List Byte)

/-- HKDF-SHA-512 of a Camern connection's key and salt: secret, tag, generation, KEY_ID (R406). -/
opaque Config.camernKey : Nat → Nat → Nat → Nat → Nat

/-- A signature under the DIK (R394). -/
opaque Config.dikSign : List Byte → List Byte

/-- The integrity check value of an MKPDU under a CAK (R411), and the SAK it wraps. -/
opaque Config.mkaIcv : List Byte → List Byte → Nat
opaque Config.mkaSak : List Byte → List Byte → Nat

end Sys2Proof
end

