-- ==== Sys2Proof/Machine/Fields.lean ====
section
/-! DEFINITION. The register fields of every page, named as the spec's register maps name them: byte offset of the register,
lowest bit, width and reset value. A field whose Reset column reads `boot` and whose number no rule states takes the
unnamed boot constant (log 7). -/

namespace Sys2Proof.Machine

/-- A register field: byte offset of its register in the page, lowest bit in the register, width, reset value. -/
structure Fld where
  off : Nat
  lo : Nat
  width : Nat
  reset : Nat
deriving DecidableEq, Repr

/-- The key of a field in the register store: the bit address, in the BAR, of the field's lowest bit. -/
def Fld.key (p : Page) (f : Fld) : Nat := (p.base + f.off) * 8 + f.lo

/-- Clock of an operating point in MHz (R417). -/
def opMHz (k : Nat) : Nat := [600, 800, 1000, 1200, 1300, 1400, 1450, 1500, 1550, 1600, 1650, 1700, 1750].getD k 0

/-- Group voltage of an operating point in mV (R417). -/
def opMilliV (k : Nat) : Nat := [530, 560, 600, 640, 665, 690, 700, 715, 735, 750, 775, 800, 820].getD k 0

/-- Clock of domain `k` in ACTIVE (R441) (1,562.5 MHz rounded down); a tile group's is its level's, which boot sets. -/
def domMHz (k : Nat) : Nat :=
  if k < 64 then Config.boot 0x9 (0x100 + 4 * k) 0 % 2 ^ 12
  else if k < 67 then 1600 else if k < 75 then 1000 else if k < 83 then 1562 else if k < 87 then 2000 else if k = 87 then 800
  else if k = 88 then 1000 else if k = 89 then 500 else if k = 90 then 400 else if k < 93 then 1200 else if k = 93 then 125
  else if k < 99 then 1600 else if k = 99 then 1000 else 0

/-- Timeout of wake stage `k + 1` at reset, in µs (R440). -/
def wakeTimeout (k : Nat) : Nat := [5000, 500, 2000, 200].getD k 0

namespace F.com  -- the common page words: R34 to R39
def ENABLE : Fld := ⟨0x008, 0, 1, 0⟩
def VERSION_SELECT : Fld := ⟨0x008, 4, 4, 1⟩
def ENABLED : Fld := ⟨0x00C, 0, 1, 0⟩
def RESET_BUSY : Fld := ⟨0x00C, 1, 1, 0⟩
def ISOLATED : Fld := ⟨0x00C, 2, 1, 0⟩
def EVT_STAT : Fld := ⟨0x010, 0, 32, 0⟩
def EVT_MASK : Fld := ⟨0x014, 0, 32, 0xFFFFFFFF⟩
def CAUSE_FIRST_BIT : Fld := ⟨0x01C, 0, 5, 0⟩
def CAUSE_FORCED : Fld := ⟨0x01C, 5, 1, 0⟩
def CAUSE_VALID : Fld := ⟨0x01C, 7, 1, 0⟩
def CAUSE_STATUS : Fld := ⟨0x01C, 8, 8, 0⟩
def CAUSE_DETAIL : Fld := ⟨0x01C, 16, 12, 0⟩
def EVT_CNT (n : Nat) : Fld := ⟨0x020 + 4 * n, 0, 32, 0⟩
end F.com

namespace F.hst  -- page type 0x001: R390
def HOST_STAT_READY : Fld := ⟨0x40, 0, 1, 0⟩
def HOST_STAT_MODULES_UP : Fld := ⟨0x40, 1, 4, 0⟩
def EQ_BASE_ADDR : Fld := ⟨0x48, 0, 51, 0⟩
def EQ_CFG_LOG2 : Fld := ⟨0x50, 0, 4, 6⟩
def EQ_CFG_VECTOR : Fld := ⟨0x50, 4, 11, 0⟩
def EQ_CFG_IRQ_EN : Fld := ⟨0x50, 15, 1, 0⟩
def EQ_CFG_MODULE : Fld := ⟨0x50, 16, 2, 0⟩
def EQ_HEAD_HEAD : Fld := ⟨0x54, 0, 12, 0⟩
def EQ_TAIL_TAIL : Fld := ⟨0x58, 0, 12, 0⟩
def EQ_OVERFLOW_COUNT : Fld := ⟨0x5C, 0, 32, 0⟩
def EVT_ROUTE_ROUTE : Fld := ⟨0x60, 0, 64, 0⟩
end F.hst

namespace F.lnk  -- page type 0x002: R391
def LINK_STAT_STAGE : Fld := ⟨0x40, 0, 3, 0⟩
def LINK_STAT_LANES : Fld := ⟨0x40, 3, 7, 0⟩
def LINK_STAT_DEGRADED : Fld := ⟨0x40, 10, 1, 0⟩
def LINK_STAT_MEM_EN : Fld := ⟨0x40, 11, 1, 0⟩
def LINK_CTRL_RETRAIN : Fld := ⟨0x44, 0, 1, 0⟩
def LINK_CTRL_DISABLE : Fld := ⟨0x44, 1, 1, 0⟩
def DOWNS_COUNT : Fld := ⟨0x48, 0, 32, 0⟩
def FLIT_RETRY_COUNT : Fld := ⟨0x4C, 0, 32, 0⟩
def POISON_RX_COUNT : Fld := ⟨0x50, 0, 32, 0⟩
def CPL_TIMEOUT_COUNT : Fld := ⟨0x54, 0, 32, 0⟩
def TX_BYTES_COUNT : Fld := ⟨0x58, 0, 64, 0⟩
def RX_BYTES_COUNT : Fld := ⟨0x60, 0, 64, 0⟩
end F.lnk

namespace F.jq  -- page type 0x003: R392
def JQ_CFG_TENANT : Fld := ⟨0x40, 0, 4, 0⟩
def JQ_CFG_SQ_LOG2 : Fld := ⟨0x40, 4, 4, 6⟩
def JQ_CFG_CQ_LOG2 : Fld := ⟨0x40, 8, 4, 6⟩
def JQ_CFG_MODULE : Fld := ⟨0x40, 12, 2, 0⟩
def QUEUE_INDEX_INDEX : Fld := ⟨0x44, 0, 10, 0⟩
def SQ_BASE_ADDR : Fld := ⟨0x48, 0, 51, 0⟩
def CQ_BASE_ADDR : Fld := ⟨0x50, 0, 51, 0⟩
def SQ_TAIL_TAIL : Fld := ⟨0x58, 0, 12, 0⟩
def SQ_HEAD_HEAD : Fld := ⟨0x5C, 0, 12, 0⟩
def CQ_HEAD_HEAD : Fld := ⟨0x60, 0, 12, 0⟩
def CQ_TAIL_TAIL : Fld := ⟨0x64, 0, 12, 0⟩
def IRQ_CFG_VECTOR : Fld := ⟨0x68, 0, 11, 0⟩
def IRQ_CFG_IRQ_EN : Fld := ⟨0x68, 11, 1, 0⟩
def IRQ_CFG_COAL_COUNT : Fld := ⟨0x68, 16, 8, 1⟩
def COAL_NS_NS : Fld := ⟨0x6C, 0, 16, 0⟩
def JQ_STAT_WAITING : Fld := ⟨0x70, 0, 1, 0⟩
def JQ_STAT_REASON : Fld := ⟨0x70, 1, 2, 0⟩
def JQ_SUBMITTED_COUNT : Fld := ⟨0x74, 0, 32, 0⟩
def JQ_REFUSED_COUNT : Fld := ⟨0x78, 0, 32, 0⟩
end F.jq

namespace F.mbx  -- page type 0x004: R415
def MBX_CMD_OP : Fld := ⟨0x40, 0, 4, 0⟩
def MBX_CMD_INDEX : Fld := ⟨0x40, 4, 4, 0⟩
def MBX_SRC_ADDR : Fld := ⟨0x48, 0, 52, 0⟩
def MBX_LEN_LENGTH : Fld := ⟨0x50, 0, 32, 0⟩
def MBX_RESULT_STATUS : Fld := ⟨0x54, 0, 8, 0⟩
def MBX_RESULT_OP : Fld := ⟨0x54, 8, 4, 0⟩
def MBX_RESULT_BUSY : Fld := ⟨0x54, 31, 1, 0⟩
def BOOT_STAT_IMAGE : Fld := ⟨0x58, 0, 1, Config.boot 0x4 (0x58) 0 % 2 ^ 1⟩
def BOOT_STAT_FALLBACK : Fld := ⟨0x58, 1, 1, Config.boot 0x4 (0x58) 1 % 2 ^ 1⟩
def BOOT_STAT_ENROLLED : Fld := ⟨0x58, 2, 1, Config.boot 0x4 (0x58) 2 % 2 ^ 1⟩
def BOOT_STAT_POLICY_MET : Fld := ⟨0x58, 3, 1, Config.boot 0x4 (0x58) 3 % 2 ^ 1⟩
def BOOT_STAT_DEBUG : Fld := ⟨0x58, 4, 1, 0⟩
def BOOT_STAT_FAIL : Fld := ⟨0x58, 5, 3, 0⟩
def BOOT_STAT_SVN : Fld := ⟨0x58, 16, 16, Config.boot 0x4 (0x58) 16 % 2 ^ 16⟩
def FW_FLOOR_FLOOR : Fld := ⟨0x5C, 0, 16, Config.boot 0x4 (0x5C) 0 % 2 ^ 16⟩
def SERIAL_SERIAL : Fld := ⟨0x60, 0, 64, Config.boot 0x4 (0x60) 0 % 2 ^ 64⟩
def MEAS_SEL_INDEX : Fld := ⟨0x68, 0, 4, 0⟩
def MEAS_COUNT_COUNT : Fld := ⟨0x6C, 0, 32, 0⟩
def DEBUG_NONCE_NONCE : Fld := ⟨0x70, 0, 64, Config.boot 0x4 (0x70) 0 % 2 ^ 64⟩
def CAK_VALID_VALID : Fld := ⟨0x78, 0, 16, 0⟩
def SIG_FAIL_COUNT : Fld := ⟨0x7C, 0, 32, 0⟩
def MEAS_DATA_DIGEST (k : Nat) : Fld := ⟨0x80 + 4 * k, 0, 32, 0⟩
end F.mbx

namespace F.ks  -- page type 0x005: R416
def KS_CMD_CMD : Fld := ⟨0x40, 0, 2, 0⟩
def KS_CMD_SCRUB : Fld := ⟨0x40, 2, 1, 0⟩
def KS_SRC_ADDR : Fld := ⟨0x48, 0, 52, 0⟩
def KS_LEN_LENGTH : Fld := ⟨0x50, 0, 16, 0⟩
def KS_STAT_STATE : Fld := ⟨0x54, 0, 3, 0⟩
def KS_STAT_RESULT : Fld := ⟨0x54, 8, 8, 0⟩
def KS_STAT_KEY_GEN : Fld := ⟨0x54, 16, 16, 0⟩
def KS_TAG_TENANT_TAG : Fld := ⟨0x58, 0, 32, 0⟩
def KS_LAST_GEN_GEN : Fld := ⟨0x5C, 0, 16, 0⟩
def KS_T_REVOKE_TIME : Fld := ⟨0x60, 0, 64, 0⟩
def KS_T_ZERO_TIME : Fld := ⟨0x68, 0, 64, 0⟩
def KS_LANDED_COUNT : Fld := ⟨0x70, 0, 32, 0⟩
def KS_SCRUB_BYTES : Fld := ⟨0x78, 0, 64, 0⟩
end F.ks

namespace F.pwr  -- page type 0x006: R443
def PWR_CAP_CAP_W : Fld := ⟨0x40, 0, 10, 0x352⟩
def PWR_CAP_HEADROOM_W : Fld := ⟨0x40, 16, 8, 10⟩
def PWR_CTRL_LEARN_EN : Fld := ⟨0x44, 0, 1, 1⟩
def PWR_CTRL_KEEP_LEARN : Fld := ⟨0x44, 1, 1, 0⟩
def PWR_CTRL_SHIFT_EN : Fld := ⟨0x44, 2, 1, 0⟩
def PWR_CTRL_SHIFT_FLOOR : Fld := ⟨0x44, 4, 4, 4⟩
def PWR_CTRL_DEFAULT_PREF : Fld := ⟨0x44, 8, 4, 9⟩
def PWR_CTRL_DROOP_MV : Fld := ⟨0x44, 12, 8, 45⟩
def PWR_CMD_CMD : Fld := ⟨0x48, 0, 2, 0⟩
def PWR_STATE_STATE : Fld := ⟨0x4C, 0, 3, 0⟩
def PWR_STATE_RESULT : Fld := ⟨0x4C, 8, 8, 0⟩
def PWR_STATE_REFUSERS : Fld := ⟨0x4C, 16, 8, 0⟩
def TJ_CFG_TJ_LIMIT : Fld := ⟨0x50, 0, 8, 100⟩
def TJ_CFG_TJ_NOW : Fld := ⟨0x50, 8, 8, 0⟩
def TJ_CFG_TJ_GROUP : Fld := ⟨0x50, 16, 6, 0⟩
def PKG_MW_MW : Fld := ⟨0x54, 0, 32, 0⟩
def PKG_PEAK_MW_MW : Fld := ⟨0x58, 0, 32, 0⟩
def LEVEL_PKG_LEVEL : Fld := ⟨0x5C, 0, 4, 9⟩
def LEVEL_CLIM : Fld := ⟨0x5C, 4, 4, 12⟩
def LEVEL_BOOST : Fld := ⟨0x5C, 8, 1, 0⟩
def CAL_RATIO : Fld := ⟨0x60, 0, 16, 0x8000⟩
def SHIFT_CFG_COMM_MASK : Fld := ⟨0x64, 0, 32, 0⟩
def SLACK_HIGH_NS : Fld := ⟨0x68, 0, 32, 0x1388⟩
def SLACK_LOW_NS : Fld := ⟨0x6C, 0, 32, 0x3e8⟩
def SHIFT_PERIOD_US : Fld := ⟨0x70, 0, 16, 0x3e8⟩
def RES_ACTIVE_NS : Fld := ⟨0x80, 0, 64, 0⟩
def RES_NAP_NS : Fld := ⟨0x88, 0, 64, 0⟩
def RES_STANDBY_NS : Fld := ⟨0x90, 0, 64, 0⟩
def ENTRIES_NAP_COUNT : Fld := ⟨0x98, 0, 32, 0⟩
def ENTRIES_STANDBY_COUNT : Fld := ⟨0x9C, 0, 32, 0⟩
def REFUSED_COUNT : Fld := ⟨0xA0, 0, 32, 0⟩
def WAKES_AUTO_COUNT : Fld := ⟨0xA4, 0, 32, 0⟩
def HINTS_TX_COUNT : Fld := ⟨0xA8, 0, 32, 0⟩
def HINTS_RX_COUNT : Fld := ⟨0xAC, 0, 32, 0⟩
end F.pwr

namespace F.ops  -- page type 0x007: R444
def OP_MHZ (k : Nat) : Fld := ⟨0x100 + 4 * k, 0, 12, opMHz k⟩
def OP_MV (k : Nat) : Fld := ⟨0x100 + 4 * k, 12, 12, opMilliV k⟩
def EST_GROUP_MW (k : Nat) : Fld := ⟨0x800 + 4 * k, 0, 16, 0xffff⟩
def EST_UNCORE_10MW (k : Nat) : Fld := ⟨0x800 + 4 * k, 16, 16, 0xffff⟩
def PHASE_PREF_LEVEL (k : Nat) : Fld := ⟨0x401 + 1 * k, 0, 4, 9⟩
end F.ops

namespace F.thr  -- page type 0x008: R445
def ENERGY_PKG_UJ : Fld := ⟨0x80, 0, 64, 0⟩
def ENERGY_DIE0_UJ : Fld := ⟨0x88, 0, 64, 0⟩
def ENERGY_DIE1_UJ : Fld := ⟨0x90, 0, 64, 0⟩
def ENERGY_OTHER_UJ : Fld := ⟨0x98, 0, 64, 0⟩
def ENERGY_TENANT_UJ (k : Nat) : Fld := ⟨0x100 + 8 * k, 0, 64, 0⟩
def GRP_REASON (k : Nat) : Fld := ⟨0x200 + 8 * k, 0, 3, 0⟩
def GRP_LEVEL (k : Nat) : Fld := ⟨0x200 + 8 * k, 4, 4, Config.boot 0x8 (0x200 + 8 * k) 4 % 2 ^ 4⟩
def GRP_PHASE (k : Nat) : Fld := ⟨0x200 + 8 * k, 8, 8, 0⟩
def GRP_THR_US (k : Nat) : Fld := ⟨0x204 + 8 * k, 0, 32, 0⟩
def PHASE_ENERGY_MJ (k : Nat) : Fld := ⟨0x400 + 4 * k, 0, 32, 0⟩
def THR_RING_BASE_ADDR : Fld := ⟨0x800, 0, 52, 0⟩
def THR_RING_SIZE_LOG2 : Fld := ⟨0x808, 0, 5, 6⟩
def THR_RING_HEAD_HEAD : Fld := ⟨0x80C, 0, 16, 0⟩
def THR_RING_TAIL_TAIL : Fld := ⟨0x810, 0, 16, 0⟩
def THR_DROPPED_COUNT : Fld := ⟨0x814, 0, 32, 0⟩
def THR_CTRL_RING_EN : Fld := ⟨0x818, 0, 1, 0⟩
def COEF_VALUE (k : Nat) : Fld := ⟨0xA00 + 4 * k, 0, 32, Config.boot 0x8 (0xA00 + 4 * k) 0 % 2 ^ 32⟩
def THR_NS_GROUP_NS (k : Nat) : Fld := ⟨0x40 + 8 * k, 0, 64, 0⟩
end F.thr

namespace F.dom  -- page type 0x009: R446
def DOM_COUNT_COUNT : Fld := ⟨0x40, 0, 8, 100⟩
def DOM_MHZ (k : Nat) : Fld := ⟨0x100 + 4 * k, 0, 12, domMHz k⟩
def DOM_GATED (k : Nat) : Fld := ⟨0x100 + 4 * k, 12, 1, 0⟩
def DOM_ISOLATED (k : Nat) : Fld := ⟨0x100 + 4 * k, 13, 1, 0⟩
def DOM_OFF (k : Nat) : Fld := ⟨0x100 + 4 * k, 14, 1, 0⟩
def DOM_STRETCH (k : Nat) : Fld := ⟨0x100 + 4 * k, 15, 1, 0⟩
end F.dom

namespace F.wake  -- page type 0x00A: R446
def WAKE_STAT_STAGE : Fld := ⟨0x40, 0, 3, 0⟩
def WAKE_STAT_FAILED : Fld := ⟨0x40, 3, 1, 0⟩
def WAKE_STAT_FAIL_DOMAIN : Fld := ⟨0x40, 8, 7, 0⟩
def WAKE_T_TIME (k : Nat) : Fld := ⟨0x48 + 8 * k, 0, 64, 0⟩
def WAKE_TO_US (k : Nat) : Fld := ⟨0x70 + 4 * k, 0, 32, wakeTimeout k⟩
end F.wake

namespace F.tim  -- page type 0x00B: R167
def TIME_TIME : Fld := ⟨0x40, 0, 64, 0⟩
def TIME_SET_VALUE : Fld := ⟨0x48, 0, 64, 0⟩
def FREQ_ADJ_ADJ : Fld := ⟨0x50, 0, 32, 0⟩
end F.tim

namespace F.servo  -- page type 0x00C: R167, R477
def SERVO_CTRL_MODE : Fld := ⟨0x40, 0, 2, 0⟩
def SERVO_CTRL_LOCK_NS : Fld := ⟨0x40, 16, 16, 100⟩
def SERVO_GAIN_KP : Fld := ⟨0x44, 0, 16, 0x100⟩
def SERVO_GAIN_KI : Fld := ⟨0x44, 16, 16, 16⟩
def SERVO_OFFSET_OFFSET : Fld := ⟨0x48, 0, 32, 0⟩
def SERVO_STAT_STATE : Fld := ⟨0x4C, 0, 2, 0⟩
def LAST_ERROR_ERROR : Fld := ⟨0x50, 0, 32, 0⟩
def PPS_CAPT_TIME : Fld := ⟨0x58, 0, 64, 0⟩
def PPS_OUT_CFG_EN : Fld := ⟨0x60, 0, 1, 0⟩
def PPS_OUT_CFG_WIDTH_MS : Fld := ⟨0x60, 8, 8, 100⟩
end F.servo

namespace F.atc  -- page type 0x00D: R305
def ATC_CMD_OP : Fld := ⟨0x40, 0, 3, 0⟩
def ATC_CMD_SLOT : Fld := ⟨0x40, 8, 5, 0⟩
def ATC_CMD_RAISE_FLOOR : Fld := ⟨0x40, 16, 1, 0⟩
def ATC_SRC_ADDR : Fld := ⟨0x48, 0, 52, 0⟩
def ATC_SRC_LEN_LENGTH : Fld := ⟨0x50, 0, 36, 0⟩
def ATC_RESULT_STATUS : Fld := ⟨0x58, 0, 8, 0⟩
def ATC_RESULT_OP : Fld := ⟨0x58, 8, 3, 0⟩
def ATC_RESULT_SLOT : Fld := ⟨0x58, 16, 5, 0⟩
def ATC_RESULT_BUSY : Fld := ⟨0x58, 31, 1, 0⟩
def ATC_PROGRESS_BYTES : Fld := ⟨0x60, 0, 64, 0⟩
def ATC_WEAR_MAX_CYCLES : Fld := ⟨0x68, 0, 14, Config.boot 0xD (0x68) 0 % 2 ^ 14⟩
def ATC_WEAR_BLOCK : Fld := ⟨0x68, 16, 14, Config.boot 0xD (0x68) 16 % 2 ^ 14⟩
def ATC_INSTALLS_COUNT : Fld := ⟨0x6C, 0, 32, 0⟩
def ATC_READ_FAIL_COUNT : Fld := ⟨0x70, 0, 32, 0⟩
end F.atc

namespace F.slot  -- page type 0x00E: R306
def SL_STAT_ACTIVE (k : Nat) : Fld := ⟨0x100 + 32 * k, 0, 1, Config.boot 0xE (0x100 + 32 * k) 0 % 2 ^ 1⟩
def SL_STAT_VALID (k : Nat) : Fld := ⟨0x100 + 32 * k, 1, 2, Config.boot 0xE (0x100 + 32 * k) 1 % 2 ^ 2⟩
def SL_STAT_PROGRAMMING (k : Nat) : Fld := ⟨0x100 + 32 * k, 3, 1, 0⟩
def SL_STAT_EMPTY (k : Nat) : Fld := ⟨0x100 + 32 * k, 4, 1, Config.boot 0xE (0x100 + 32 * k) 4 % 2 ^ 1⟩
def SL_STAT_KEY_READY (k : Nat) : Fld := ⟨0x100 + 32 * k, 5, 1, Config.boot 0xE (0x100 + 32 * k) 5 % 2 ^ 1⟩
def SL_STAT_FLOOR (k : Nat) : Fld := ⟨0x100 + 32 * k, 16, 16, Config.boot 0xE (0x100 + 32 * k) 16 % 2 ^ 16⟩
def SL_SEQ_SEQ (k : Nat) : Fld := ⟨0x104 + 32 * k, 0, 32, Config.boot 0xE (0x104 + 32 * k) 0 % 2 ^ 32⟩
def SL_SET_A_SET (k : Nat) : Fld := ⟨0x108 + 32 * k, 0, 32, Config.boot 0xE (0x108 + 32 * k) 0 % 2 ^ 32⟩
def SL_SET_B_SET (k : Nat) : Fld := ⟨0x10C + 32 * k, 0, 32, Config.boot 0xE (0x10C + 32 * k) 0 % 2 ^ 32⟩
def SL_LEN_A_UNITS (k : Nat) : Fld := ⟨0x110 + 32 * k, 0, 21, Config.boot 0xE (0x110 + 32 * k) 0 % 2 ^ 21⟩
def SL_LEN_B_UNITS (k : Nat) : Fld := ⟨0x114 + 32 * k, 0, 21, Config.boot 0xE (0x114 + 32 * k) 0 % 2 ^ 21⟩
def SL_CFG_REPL_MODE (k : Nat) : Fld := ⟨0x118 + 32 * k, 0, 1, 0⟩
def SL_CFG_SERVICE_MODE (k : Nat) : Fld := ⟨0x118 + 32 * k, 1, 2, 0⟩
def SL_SVC_GEN (k : Nat) : Fld := ⟨0x11C + 32 * k, 0, 1, 0⟩
def SL_SVC_REPLACING (k : Nat) : Fld := ⟨0x11C + 32 * k, 1, 1, 0⟩
def SL_SVC_SVC_FAILED (k : Nat) : Fld := ⟨0x11C + 32 * k, 2, 1, 0⟩
def SL_SVC_PIN0 (k : Nat) : Fld := ⟨0x11C + 32 * k, 8, 8, 0⟩
def SL_SVC_PIN1 (k : Nat) : Fld := ⟨0x11C + 32 * k, 16, 8, 0⟩
def SL_SVC_FRONT (k : Nat) : Fld := ⟨0x11C + 32 * k, 24, 8, 0⟩
end F.slot

namespace F.elog  -- page type 0x00F: R467
def BOOT_PROGRESS_STAGE : Fld := ⟨0x40, 0, 4, 0⟩
def BOOT_PROGRESS_FAILED : Fld := ⟨0x40, 4, 1, 0⟩
def BOOT_PROGRESS_FAIL_STATUS : Fld := ⟨0x40, 8, 8, 0⟩
def BOOT_PROGRESS_BOOT : Fld := ⟨0x40, 16, 16, Config.boot 0xF (0x40) 16 % 2 ^ 16⟩
def BOOT_US_US (k : Nat) : Fld := ⟨0x48 + 4 * k, 0, 32, 0⟩
def LOG_HEAD_SEQ : Fld := ⟨0x64, 0, 32, Config.boot 0xF (0x64) 0 % 2 ^ 32⟩
def LOG_OLDEST_SEQ : Fld := ⟨0x68, 0, 32, Config.boot 0xF (0x68) 0 % 2 ^ 32⟩
def LOG_READ_SEQ : Fld := ⟨0x6C, 0, 32, 0⟩
def LOG_STAT_READ_VALID : Fld := ⟨0x70, 0, 1, 0⟩
def LOG_STAT_MISSING : Fld := ⟨0x70, 1, 1, 0⟩
def LOG_STAT_BUSY : Fld := ⟨0x70, 2, 1, 0⟩
def LOG_DROPPED_COUNT : Fld := ⟨0x74, 0, 32, 0⟩
def LOG_WRITES_COUNT : Fld := ⟨0x78, 0, 64, 0⟩
def LOG_DATA_ENTRY (k : Nat) : Fld := ⟨0x80 + 4 * k, 0, 32, 0⟩
def LOG_RATE_US : Fld := ⟨0xA0, 0, 16, 0x3e8⟩
def LOG_ADD_CODE : Fld := ⟨0xA4, 0, 16, 0⟩
def LOG_ADD_STATUS : Fld := ⟨0xA4, 16, 8, 0⟩
def LOG_ADD_DETAIL_DETAIL : Fld := ⟨0xA8, 0, 32, 0⟩
end F.elog

namespace F.tir  -- page type 0x010: R282
def TIR_TABLE_ADDR : Fld := ⟨0x40, 0, 52, 0⟩
def DL_CEL_NS : Fld := ⟨0x48, 0, 32, 0x2710⟩
def DL_ATC_NS : Fld := ⟨0x4C, 0, 32, 0x186a0⟩
def DL_BOX_NS : Fld := ⟨0x50, 0, 32, 0xc350⟩
def OBJ_LIVE_COUNT : Fld := ⟨0x54, 0, 17, 0⟩
def XC_HIT_COUNT : Fld := ⟨0x58, 0, 64, 0⟩
def XC_MISS_COUNT : Fld := ⟨0x60, 0, 64, 0⟩
def MOVE_BYTES_COUNT : Fld := ⟨0x68, 0, 64, 0⟩
def LATE_COUNT : Fld := ⟨0x70, 0, 32, 0⟩
def FAILED_COUNT : Fld := ⟨0x74, 0, 32, 0⟩
def AUTH_FAIL_COUNT : Fld := ⟨0x78, 0, 32, 0⟩
def WRITE_REFUSED_COUNT : Fld := ⟨0x7C, 0, 32, 0⟩
def LAST_ERR_ADDR : Fld := ⟨0x80, 0, 52, 0⟩
def LAST_ERR_STATUS : Fld := ⟨0x80, 52, 8, 0⟩
def LAST_ERR_TIER : Fld := ⟨0x80, 60, 3, 0⟩
def AP_BASE_HOST (k : Nat) : Fld := ⟨0x400 + 16 * k, 0, 51, 0⟩
def AP_PAGES_PAGES (k : Nat) : Fld := ⟨0x408 + 16 * k, 0, 28, 0⟩
def AP_CFG_TENANT (k : Nat) : Fld := ⟨0x40C + 16 * k, 0, 4, 0⟩
def AP_CFG_SEALED (k : Nat) : Fld := ⟨0x40C + 16 * k, 4, 1, 0⟩
def AP_CFG_WRITABLE (k : Nat) : Fld := ⟨0x40C + 16 * k, 5, 1, 0⟩
def AP_CFG_MODULES (k : Nat) : Fld := ⟨0x40C + 16 * k, 8, 4, 0⟩
def AP_CFG_VALID (k : Nat) : Fld := ⟨0x40C + 16 * k, 31, 1, 0⟩
end F.tir

namespace F.mq  -- page type 0x011: R283
def MQ_BASE_ADDR : Fld := ⟨0x40, 0, 52, 0⟩
def MQ_CFG_LOG2 : Fld := ⟨0x48, 0, 4, 6⟩
def MQ_TAIL_TAIL : Fld := ⟨0x4C, 0, 12, 0⟩
def MQ_HEAD_HEAD : Fld := ⟨0x50, 0, 12, 0⟩
def CQ_BASE_ADDR : Fld := ⟨0x58, 0, 52, 0⟩
def CQ_CFG_LOG2 : Fld := ⟨0x60, 0, 4, 6⟩
def CQ_HEAD_HEAD : Fld := ⟨0x64, 0, 12, 0⟩
def CQ_TAIL_TAIL : Fld := ⟨0x68, 0, 12, 0⟩
def MQ_STAT_MIGRATING : Fld := ⟨0x6C, 0, 3, 0⟩
def MQ_STAT_STALLED : Fld := ⟨0x6C, 3, 1, 0⟩
def MQ_STAT_FSTALLED : Fld := ⟨0x6C, 4, 1, 0⟩
def FQ_BASE_ADDR : Fld := ⟨0x70, 0, 52, 0⟩
def FQ_CFG_LOG2 : Fld := ⟨0x78, 0, 4, 6⟩
def FQ_TAIL_TAIL : Fld := ⟨0x7C, 0, 12, 0⟩
def FQ_HEAD_HEAD : Fld := ⟨0x80, 0, 12, 0⟩
def FCQ_BASE_ADDR : Fld := ⟨0x88, 0, 52, 0⟩
def FCQ_CFG_LOG2 : Fld := ⟨0x90, 0, 4, 6⟩
def FCQ_HEAD_HEAD : Fld := ⟨0x94, 0, 12, 0⟩
def FCQ_TAIL_TAIL : Fld := ⟨0x98, 0, 12, 0⟩
end F.mq

namespace F.mgt  -- page type 0x012: R340
def MGT_CFG_SPEED : Fld := ⟨0x40, 0, 2, 2⟩
def MGT_CFG_FULL_DUPLEX : Fld := ⟨0x40, 2, 1, 1⟩
def MGT_MAC_MAC : Fld := ⟨0x48, 0, 48, Config.boot 0x12 (0x48) 0 % 2 ^ 48⟩
def MDIO_CMD_REG : Fld := ⟨0x50, 0, 5, 0⟩
def MDIO_CMD_PHYAD : Fld := ⟨0x50, 5, 5, 0⟩
def MDIO_CMD_WRITE : Fld := ⟨0x50, 10, 1, 0⟩
def MDIO_DATA_DATA : Fld := ⟨0x54, 0, 16, 0⟩
def MDIO_DATA_BUSY : Fld := ⟨0x54, 16, 1, 0⟩
def TX_FRAMES_COUNT : Fld := ⟨0xB0, 0, 32, 0⟩
def RX_FRAMES_COUNT : Fld := ⟨0xB4, 0, 32, 0⟩
def RX_FCS_ERR_COUNT : Fld := ⟨0xB8, 0, 32, 0⟩
def RX_NO_ENTRY_COUNT : Fld := ⟨0xBC, 0, 32, 0⟩
def COLLISIONS_COUNT : Fld := ⟨0xC0, 0, 32, 0⟩
def LATE_COLL_COUNT : Fld := ⟨0xC4, 0, 32, 0⟩
def EXCESS_COLL_COUNT : Fld := ⟨0xC8, 0, 32, 0⟩
def DEFERRED_COUNT : Fld := ⟨0xCC, 0, 32, 0⟩
def RXQ_BASE_ADDR : Fld := ⟨0x80, 0, 52, 0⟩
def RXQ_CFG_LOG2 : Fld := ⟨0x88, 0, 4, 6⟩
def RXQ_HEAD_HEAD : Fld := ⟨0x8C, 0, 12, 0⟩
def RXQ_TAIL_TAIL : Fld := ⟨0x90, 0, 12, 0⟩
def TXQ_BASE_ADDR : Fld := ⟨0x98, 0, 52, 0⟩
def TXQ_CFG_LOG2 : Fld := ⟨0xA0, 0, 4, 6⟩
def TXQ_TAIL_TAIL : Fld := ⟨0xA4, 0, 12, 0⟩
def TXQ_HEAD_HEAD : Fld := ⟨0xA8, 0, 12, 0⟩
end F.mgt

namespace F.xpt  -- page type 0x013: R371
def XPT_CFG_UDP_PORT : Fld := ⟨0x40, 0, 16, 0xb6b2⟩
def XPT_CFG_ADDR_VALID : Fld := ⟨0x40, 16, 8, 0⟩
def WQ_DOORBELL_QUEUE : Fld := ⟨0x44, 0, 12, 0⟩
def WQ_DOORBELL_TAIL : Fld := ⟨0x44, 12, 12, 0⟩
def Q_SEL_QUEUE : Fld := ⟨0x48, 0, 12, 0⟩
def Q_CTRL_ENABLE : Fld := ⟨0x4C, 0, 1, 0⟩
def Q_CTRL_ABORT : Fld := ⟨0x4C, 1, 1, 0⟩
def Q_CTRL_TENANT : Fld := ⟨0x4C, 2, 4, 0⟩
def Q_CTRL_WQ_LOG2 : Fld := ⟨0x4C, 6, 4, 6⟩
def Q_CTRL_CQ_LOG2 : Fld := ⟨0x4C, 10, 4, 6⟩
def Q_WQ_BASE_ADDR : Fld := ⟨0x50, 0, 52, 0⟩
def Q_CQ_BASE_ADDR : Fld := ⟨0x58, 0, 52, 0⟩
def Q_STAT_HEAD : Fld := ⟨0x60, 0, 12, 0⟩
def Q_STAT_CQ_HEAD : Fld := ⟨0x60, 12, 12, 0⟩
def Q_STAT_STARTED : Fld := ⟨0x60, 24, 7, 0⟩
def Q_STAT_WAITING : Fld := ⟨0x60, 31, 1, 0⟩
def Q_CQ_TAIL_TAIL : Fld := ⟨0x64, 0, 12, 0⟩
def Q_COMP_COMP : Fld := ⟨0x68, 0, 32, 0⟩
def TX_PAYLOAD_COUNT : Fld := ⟨0xF0, 0, 64, 0⟩
def RX_PAYLOAD_COUNT : Fld := ⟨0xF8, 0, 64, 0⟩
def RX_NO_CONN_COUNT : Fld := ⟨0x100, 0, 32, 0⟩
def RX_CLOSED_COUNT : Fld := ⟨0x104, 0, 32, 0⟩
def RX_RETIRED_GEN_COUNT : Fld := ⟨0x108, 0, 32, 0⟩
def RX_AUTH_FAIL_COUNT : Fld := ⟨0x10C, 0, 32, 0⟩
def RX_REPLAY_COUNT : Fld := ⟨0x110, 0, 32, 0⟩
def RX_NO_TRACKER_COUNT : Fld := ⟨0x114, 0, 32, 0⟩
def RX_DUP_COUNT : Fld := ⟨0x118, 0, 32, 0⟩
def RX_FORMAT_COUNT : Fld := ⟨0x11C, 0, 32, 0⟩
def RETRANSMITS_COUNT : Fld := ⟨0x120, 0, 32, 0⟩
def TIMEOUTS_COUNT : Fld := ⟨0x124, 0, 32, 0⟩
def NACK_SENT_COUNT : Fld := ⟨0x128, 0, 32, 0⟩
def NACK_RECEIVED_COUNT : Fld := ⟨0x12C, 0, 32, 0⟩
def TRACKERS_REQ : Fld := ⟨0x130, 0, 15, 0⟩
def TRACKERS_RESP : Fld := ⟨0x130, 16, 15, 0⟩
def ADDR_LO_IP (k : Nat) : Fld := ⟨0x70 + 16 * k, 0, 64, 0⟩
def ADDR_HI_IP (k : Nat) : Fld := ⟨0x78 + 16 * k, 0, 64, 0⟩
end F.xpt

namespace F.cong  -- page type 0x014: R373
def CC_TARGET_NS_TARGET_NS (k : Nat) : Fld := ⟨0x100 + 32 * k, 0, 32, 0x1f40⟩
def CC_CWND_INIT_CWND_INIT (k : Nat) : Fld := ⟨0x104 + 32 * k, 0, 16, 0x100⟩
def CC_CWND_MIN_CWND_MIN (k : Nat) : Fld := ⟨0x104 + 32 * k, 16, 16, 16⟩
def CC_CWND_MAX_CWND_MAX (k : Nat) : Fld := ⟨0x108 + 32 * k, 0, 16, 0x4000⟩
def CC_AI_BYTES_AI_BYTES (k : Nat) : Fld := ⟨0x108 + 32 * k, 16, 16, 0x4000⟩
def CC_BETA_BETA (k : Nat) : Fld := ⟨0x10C + 32 * k, 0, 10, 0x200⟩
def CC_MD_MAX_MD_MAX (k : Nat) : Fld := ⟨0x10C + 32 * k, 10, 10, 0x200⟩
def CC_EWMA_SHIFT_EWMA_SHIFT (k : Nat) : Fld := ⟨0x10C + 32 * k, 20, 4, 3⟩
def CC_RTO_NS_RTO_NS (k : Nat) : Fld := ⟨0x110 + 32 * k, 0, 32, 0xc350⟩
def CC_RETRIES_RETRIES (k : Nat) : Fld := ⟨0x114 + 32 * k, 0, 8, 8⟩
def CC_ACK_DELAY_NS_ACK_DELAY_NS (k : Nat) : Fld := ⟨0x114 + 32 * k, 16, 16, 0x7d0⟩
end F.cong

namespace F.ctx  -- page type 0x015: R372
def CTX_TABLE_ADDR : Fld := ⟨0x40, 0, 52, 0⟩
def CTX_CMD_CONN : Fld := ⟨0x48, 0, 20, 0⟩
def CTX_CMD_CMD : Fld := ⟨0x48, 20, 4, 0⟩
def CTX_RESULT_STATUS : Fld := ⟨0x4C, 0, 8, 0⟩
def CTX_RESULT_BUSY : Fld := ⟨0x4C, 31, 1, 0⟩
def CTX_SRC_ADDR : Fld := ⟨0x50, 0, 52, 0⟩
def MISS_TIMEOUT_NS : Fld := ⟨0x58, 0, 32, 0x186a0⟩
def RESIDENT_COUNT : Fld := ⟨0x5C, 0, 16, 0⟩
def PINNED_COUNT : Fld := ⟨0x60, 0, 16, 0⟩
def MISS_BYTES_BYTES : Fld := ⟨0x64, 0, 22, 0⟩
def FETCHES_COUNT : Fld := ⟨0x68, 0, 64, 0⟩
def EVICTIONS_COUNT : Fld := ⟨0x70, 0, 64, 0⟩
def MISS_DROPS_COUNT : Fld := ⟨0x78, 0, 32, 0⟩
def MISS_TIMEOUTS_COUNT : Fld := ⟨0x7C, 0, 32, 0⟩
def FETCH_FAIL_COUNT : Fld := ⟨0x80, 0, 32, 0⟩
def FETCH_NS_MAX_NS : Fld := ⟨0x84, 0, 32, 0⟩
end F.ctx

namespace F.win  -- page type 0x016: R374
def WIN_CMD_INDEX : Fld := ⟨0x40, 0, 16, 0⟩
def WIN_CMD_CMD : Fld := ⟨0x40, 16, 3, 0⟩
def WIN_RESULT_STATUS : Fld := ⟨0x44, 0, 8, 0⟩
def WIN_RESULT_BUSY : Fld := ⟨0x44, 31, 1, 0⟩
def WIN_SRC_ADDR : Fld := ⟨0x48, 0, 52, 0⟩
def OPEN_WINDOWS_COUNT : Fld := ⟨0x50, 0, 17, 0⟩
def VIOLATIONS_COUNT : Fld := ⟨0x54, 0, 32, 0⟩
def VIOL_HEAD_HEAD : Fld := ⟨0x58, 0, 4, 0⟩
def VIOL_TIME (k : Nat) : Fld := ⟨0x100 + 32 * k, 0, 64, 0⟩
def VIOL_CONN_CONN (k : Nat) : Fld := ⟨0x108 + 32 * k, 0, 20, 0⟩
def VIOL_INC_INC (k : Nat) : Fld := ⟨0x108 + 32 * k, 20, 8, 0⟩
def VIOL_WINDOW_WINDOW (k : Nat) : Fld := ⟨0x10C + 32 * k, 0, 16, 0⟩
def VIOL_GEN_GEN (k : Nat) : Fld := ⟨0x10C + 32 * k, 16, 16, 0⟩
def VIOL_OFFSET_OFFSET (k : Nat) : Fld := ⟨0x110 + 32 * k, 0, 40, 0⟩
def VIOL_STATUS_STATUS (k : Nat) : Fld := ⟨0x114 + 32 * k, 8, 8, 0⟩
def VIOL_TYPE_TYPE (k : Nat) : Fld := ⟨0x114 + 32 * k, 16, 4, 0⟩
def VIOL_MSG_ID_MSG_ID (k : Nat) : Fld := ⟨0x118 + 32 * k, 0, 32, 0⟩
end F.win

namespace F.cel  -- page type 0x017: R284
def CEL_STAT_TRAINED : Fld := ⟨0x40, 0, 1, Config.boot 0x17 (0x40) 0 % 2 ^ 1⟩
def CEL_STAT_SELF_REFRESH : Fld := ⟨0x40, 1, 1, 0⟩
def CEL_STAT_GIB : Fld := ⟨0x40, 8, 8, 48⟩
def RD_BYTES_COUNT : Fld := ⟨0x48, 0, 64, 0⟩
def WR_BYTES_COUNT : Fld := ⟨0x50, 0, 64, 0⟩
def TAG_BYTES_COUNT : Fld := ⟨0x58, 0, 64, 0⟩
def ECC_CORR_COUNT : Fld := ⟨0x60, 0, 32, 0⟩
def ECC_FAIL_COUNT : Fld := ⟨0x64, 0, 32, 0⟩
def AUTH_FAIL_COUNT : Fld := ⟨0x68, 0, 32, 0⟩
def RMW_COUNT : Fld := ⟨0x6C, 0, 32, 0⟩
def FAIL_ADDR_OFFSET : Fld := ⟨0x70, 0, 36, 0⟩
def FAIL_ADDR_VALID : Fld := ⟨0x70, 63, 1, 0⟩
end F.cel

namespace F.rgn  -- page type 0x018: R285
def RG_SPAN_BASE (k : Nat) : Fld := ⟨0x100 + 16 * k, 0, 15, 0⟩
def RG_SPAN_LIMIT (k : Nat) : Fld := ⟨0x100 + 16 * k, 16, 15, 0⟩
def RG_CFG_KEY (k : Nat) : Fld := ⟨0x104 + 16 * k, 0, 5, 0⟩
def RG_CFG_PROTECT (k : Nat) : Fld := ⟨0x104 + 16 * k, 5, 1, 0⟩
def RG_CFG_VALID (k : Nat) : Fld := ⟨0x104 + 16 * k, 31, 1, 0⟩
def RG_USE_OBJECTS (k : Nat) : Fld := ⟨0x108 + 16 * k, 0, 17, 0⟩
end F.rgn

namespace F.eth  -- page type 0x019: R336, R337
def PORT_CFG_MODE : Fld := ⟨0x40, 0, 2, 0⟩
def PORT_CFG_WIDTH : Fld := ⟨0x40, 2, 2, 0⟩
def PORT_CFG_SHED_EN : Fld := ⟨0x40, 4, 1, 0⟩
def PORT_CFG_LPI_EN : Fld := ⟨0x40, 5, 1, 0⟩
def PORT_CFG_MAX_PAYLOAD : Fld := ⟨0x40, 8, 14, 0x2400⟩
def PORT_STAT_LINK_UP : Fld := ⟨0x44, 0, 1, 0⟩
def PORT_STAT_CUR_WIDTH : Fld := ⟨0x44, 1, 2, 0⟩
def PORT_STAT_PARTNER_KNQ : Fld := ⟨0x44, 3, 1, 0⟩
def PORT_STAT_LPI : Fld := ⟨0x44, 4, 1, 0⟩
def PORT_STAT_SHED_PENDING : Fld := ⟨0x44, 5, 1, 0⟩
def PORT_MAC_MAC : Fld := ⟨0x48, 0, 48, Config.boot 0x19 (0x48) 0 % 2 ^ 48⟩
def CTL_ETHERTYPE_TYPE : Fld := ⟨0x50, 0, 16, 0x88b6⟩
def SHED_CTRL_TARGET : Fld := ⟨0x54, 0, 2, 0⟩
def TS_LAT_TX_LAT : Fld := ⟨0x58, 0, 16, Config.boot 0x19 (0x58) 0 % 2 ^ 16⟩
def TS_LAT_RX_LAT : Fld := ⟨0x58, 16, 16, Config.boot 0x19 (0x58) 16 % 2 ^ 16⟩
def LPI_CFG_IDLE_NS : Fld := ⟨0x5C, 0, 16, 0x7d0⟩
def LPI_CFG_WAKE_NS : Fld := ⟨0x5C, 16, 16, 0x1f40⟩
def MCAST_ADDR (k : Nat) : Fld := ⟨0x60 + 8 * k, 0, 48, 0⟩
def MCAST_VALID (k : Nat) : Fld := ⟨0x60 + 8 * k, 63, 1, 0⟩
def RXQ_BASE_ADDR : Fld := ⟨0x80, 0, 52, 0⟩
def RXQ_CFG_LOG2 : Fld := ⟨0x88, 0, 4, 6⟩
def RXQ_HEAD_HEAD : Fld := ⟨0x8C, 0, 12, 0⟩
def RXQ_TAIL_TAIL : Fld := ⟨0x90, 0, 12, 0⟩
def TXQ_BASE_ADDR : Fld := ⟨0x98, 0, 52, 0⟩
def TXQ_CFG_LOG2 : Fld := ⟨0xA0, 0, 4, 6⟩
def TXQ_TAIL_TAIL : Fld := ⟨0xA4, 0, 12, 0⟩
def TXQ_HEAD_HEAD : Fld := ⟨0xA8, 0, 12, 0⟩
def TX_FRAMES_COUNT : Fld := ⟨0x100, 0, 64, 0⟩
def TX_BYTES_COUNT : Fld := ⟨0x108, 0, 64, 0⟩
def RX_FRAMES_COUNT : Fld := ⟨0x110, 0, 64, 0⟩
def RX_BYTES_COUNT : Fld := ⟨0x118, 0, 64, 0⟩
def FEC_CORR_COUNT : Fld := ⟨0x120, 0, 64, 0⟩
def FEC_UNCORR_COUNT : Fld := ⟨0x128, 0, 64, 0⟩
def LPI_NS_COUNT : Fld := ⟨0x130, 0, 64, 0⟩
def TXC_COUNT (k : Nat) : Fld := ⟨0x140 + 8 * k, 0, 64, 0⟩
def RX_FCS_ERR_COUNT : Fld := ⟨0x180, 0, 32, 0⟩
def RX_RUNT_COUNT : Fld := ⟨0x184, 0, 32, 0⟩
def RX_TRUNC_COUNT : Fld := ⟨0x188, 0, 32, 0⟩
def RX_FILTERED_COUNT : Fld := ⟨0x18C, 0, 32, 0⟩
def RX_PAUSE_COUNT : Fld := ⟨0x190, 0, 32, 0⟩
def RX_NO_ENTRY_COUNT : Fld := ⟨0x194, 0, 32, 0⟩
def TX_OVERSIZE_COUNT : Fld := ⟨0x198, 0, 32, 0⟩
def TX_DISCARD_LINKDOWN_COUNT : Fld := ⟨0x19C, 0, 32, 0⟩
def LINK_DOWNS_COUNT : Fld := ⟨0x1A0, 0, 32, 0⟩
def SHED_DONE_COUNT : Fld := ⟨0x1A4, 0, 32, 0⟩
def SHED_NAK_COUNT : Fld := ⟨0x1A8, 0, 32, 0⟩
def SHED_FAIL_COUNT : Fld := ⟨0x1AC, 0, 32, 0⟩
def CTL_BAD_COUNT : Fld := ⟨0x1B0, 0, 32, 0⟩
def TWIN_CFG_PORTS : Fld := ⟨0x200, 0, 8, Config.boot 0x19 (0x200) 0 % 2 ^ 8⟩
def TWIN_CFG_SECONDARY : Fld := ⟨0x200, 8, 1, Config.boot 0x19 (0x200) 8 % 2 ^ 1⟩
def TWIN_CMD_CMD : Fld := ⟨0x204, 0, 2, 0⟩
def TWIN_HEALTH_FAILED : Fld := ⟨0x208, 0, 1, 0⟩
def TWIN_STAT_STATE : Fld := ⟨0x20C, 0, 2, 2⟩
def TWIN_STAT_SILENT : Fld := ⟨0x20C, 2, 1, 0⟩
def TWIN_STAT_LINK_LOST : Fld := ⟨0x20C, 3, 1, 0⟩
def TWIN_EPOCH_EPOCH : Fld := ⟨0x210, 0, 32, 0⟩
def HB_INTERVAL_US : Fld := ⟨0x214, 0, 16, 100⟩
def LOSS_TIME_US : Fld := ⟨0x218, 0, 32, 0x2710⟩
def FENCE_AFTER_US : Fld := ⟨0x21C, 0, 32, 0x4e20⟩
def PROMOTE_AFTER_US : Fld := ⟨0x220, 0, 32, 0x61a8⟩
def DECLINED_COUNT : Fld := ⟨0x224, 0, 32, 0⟩
def LAST_HB_TIME : Fld := ⟨0x228, 0, 64, 0⟩
end F.eth

namespace F.gl  -- page type 0x01A: R338
def GL_CTRL_GATE_EN : Fld := ⟨0x40, 0, 1, 0⟩
def GL_CMD_LOAD : Fld := ⟨0x44, 0, 1, 0⟩
def GL_CMD_CANCEL : Fld := ⟨0x44, 1, 1, 0⟩
def GL_ADDR_ADDR : Fld := ⟨0x48, 0, 52, 0⟩
def GL_LEN_ENTRIES : Fld := ⟨0x50, 0, 11, 0⟩
def GL_CYCLE_NS : Fld := ⟨0x54, 0, 32, 0⟩
def GL_BASE_TIME_TIME : Fld := ⟨0x58, 0, 64, 0⟩
def GL_STAT_LOAD_STATUS : Fld := ⟨0x60, 0, 8, 0⟩
def GL_STAT_PENDING : Fld := ⟨0x60, 8, 1, 0⟩
def GL_STAT_OPER_VALID : Fld := ⟨0x60, 9, 1, 0⟩
def GL_STAT_ITEM : Fld := ⟨0x60, 16, 10, 0⟩
def GL_CHANGE_TIME : Fld := ⟨0x68, 0, 64, 0⟩
def GL_POS_ENTRY : Fld := ⟨0x70, 0, 10, 0⟩
def GL_POS_GATES : Fld := ⟨0x70, 16, 7, 127⟩
def GL_CYCLES_COUNT : Fld := ⟨0x78, 0, 64, 0⟩
def GL_HELD_COUNT : Fld := ⟨0x80, 0, 64, 0⟩
end F.gl

namespace F.ms  -- page type 0x01B: R339
def MS_CTRL_ENABLE : Fld := ⟨0x40, 0, 1, 0⟩
def MS_CTRL_PTP_CLEAR : Fld := ⟨0x40, 1, 1, 0⟩
def MS_CTRL_TX_AN : Fld := ⟨0x40, 2, 2, 0⟩
def MS_TX_SCI_SCI : Fld := ⟨0x48, 0, 64, Config.boot 0x1B (0x48) 0 % 2 ^ 64⟩
def MS_RX_SCI_SCI : Fld := ⟨0x50, 0, 64, 0⟩
def MS_REPLAY_WINDOW : Fld := ⟨0x58, 0, 32, 0⟩
def MS_SA_TX_VALID (k : Nat) : Fld := ⟨0x60 + 4 * k, 0, 1, 0⟩
def MS_SA_RX_VALID (k : Nat) : Fld := ⟨0x60 + 4 * k, 1, 1, 0⟩
def MS_TX_PN_PN (k : Nat) : Fld := ⟨0x80 + 8 * k, 0, 64, 0⟩
def MS_IN_NOT_VALID_COUNT : Fld := ⟨0xD0, 0, 32, 0⟩
def MS_IN_LATE_COUNT : Fld := ⟨0xD4, 0, 32, 0⟩
def MS_IN_NO_SA_COUNT : Fld := ⟨0xD8, 0, 32, 0⟩
def MS_IN_UNTAGGED_COUNT : Fld := ⟨0xDC, 0, 32, 0⟩
def MS_IN_OK_COUNT : Fld := ⟨0xC0, 0, 64, 0⟩
def MS_OUT_PROT_COUNT : Fld := ⟨0xC8, 0, 64, 0⟩
end F.ms

namespace F.agt  -- page type 0x01C: R199
def AGT_CMD_LOAD : Fld := ⟨0x40, 0, 1, 0⟩
def AGT_CMD_START : Fld := ⟨0x40, 1, 1, 0⟩
def AGT_CMD_STOP : Fld := ⟨0x40, 2, 1, 0⟩
def AGT_CMD_ABORT : Fld := ⟨0x40, 3, 1, 0⟩
def AGT_STAT_STATE : Fld := ⟨0x44, 0, 3, 0⟩
def AGT_STAT_END_STATUS : Fld := ⟨0x44, 8, 8, 0⟩
def AGT_STAT_SEGMENT : Fld := ⟨0x44, 16, 10, 0⟩
def IMAGE_ADDR_ADDR : Fld := ⟨0x48, 0, 52, 0⟩
def LOAD_STAT_STATUS : Fld := ⟨0x50, 0, 8, 0⟩
def LOAD_STAT_SECTION : Fld := ⟨0x50, 8, 10, 0⟩
def LOAD_STAT_ITEM : Fld := ⟨0x50, 32, 16, 0⟩
def START_SEG_SEG : Fld := ⟨0x58, 0, 10, 0⟩
def DEC_TIMEOUT_NS : Fld := ⟨0x5C, 0, 32, 0x2710⟩
def START_TIME_TIME : Fld := ⟨0x60, 0, 64, 0⟩
def WATCH_NS : Fld := ⟨0x68, 0, 32, 0⟩
def ITER_COUNT : Fld := ⟨0x6C, 0, 32, 0⟩
def BEATS_FIRED_COUNT : Fld := ⟨0x70, 0, 64, 0⟩
def LATE_BEATS_COUNT : Fld := ⟨0x78, 0, 64, 0⟩
def SPEC_FIRED_COUNT : Fld := ⟨0x80, 0, 32, 0⟩
def SPEC_SQUASHED_COUNT : Fld := ⟨0x84, 0, 32, 0⟩
def STORE_CORR_COUNT : Fld := ⟨0x88, 0, 32, 0⟩
end F.agt

namespace F.late  -- page type 0x01D: R200
def LATE_CTRL_LATE_MIN : Fld := ⟨0x40, 0, 16, 0⟩
def LATE_CTRL_RING_EN : Fld := ⟨0x40, 16, 1, 0⟩
def RING_BASE_ADDR : Fld := ⟨0x48, 0, 52, 0⟩
def RING_SIZE_LOG2 : Fld := ⟨0x50, 0, 5, 6⟩
def RING_HEAD_HEAD : Fld := ⟨0x54, 0, 16, 0⟩
def RING_TAIL_TAIL : Fld := ⟨0x58, 0, 16, 0⟩
def DROPPED_COUNT : Fld := ⟨0x5C, 0, 32, 0⟩
def LAST_RECORD (k : Nat) : Fld := ⟨0x80 + 4 * k, 0, 32, 0⟩
end F.late

namespace F.tal  -- page type 0x01E: R201
def TALLY_ADD_INDEX : Fld := ⟨0x40, 0, 8, 0⟩
def TALLY_ADD_AMOUNT : Fld := ⟨0x40, 8, 16, 0⟩
def COUNT_COUNT (k : Nat) : Fld := ⟨0x100 + 8 * k, 0, 32, 0⟩
def SRC_LAST_SRC (k : Nat) : Fld := ⟨0x104 + 8 * k, 0, 16, 0⟩
end F.tal

namespace F.ccr  -- page type 0x01F: R468
def CORE_STAT_RUNNING : Fld := ⟨0x40, 0, 2, 0⟩
def CORE_STAT_WD_WARNED : Fld := ⟨0x40, 2, 2, 0⟩
def WD_CFG_MS : Fld := ⟨0x44, 0, 10, 10⟩
def WD_KICK_CORE : Fld := ⟨0x48, 0, 2, 0⟩
def WD_EXPIRIES_COUNT : Fld := ⟨0x4C, 0, 32, 0⟩
def FAULT_STAT_DIE_FAULT : Fld := ⟨0x50, 0, 1, 0⟩
def FAULT_STAT_FATAL : Fld := ⟨0x50, 1, 1, 0⟩
def FAULT_STAT_FATAL_CAUSE : Fld := ⟨0x50, 4, 3, 0⟩
def FAULT_STAT_RECENT : Fld := ⟨0x50, 8, 8, 0⟩
def DIE_FAULTS_COUNT : Fld := ⟨0x54, 0, 32, 0⟩
def SITE_CMD_OP : Fld := ⟨0x58, 0, 2, 0⟩
def SITE_CMD_PHYS : Fld := ⟨0x58, 8, 7, 0⟩
def SITE_CMD_PERSIST : Fld := ⟨0x58, 16, 1, 0⟩
def SITE_SRC_ADDR : Fld := ⟨0x60, 0, 52, 0⟩
def SITE_RESULT_STATUS : Fld := ⟨0x68, 0, 8, 0⟩
def SITE_RESULT_BUSY : Fld := ⟨0x68, 31, 1, 0⟩
end F.ccr

namespace F.dp  -- page type 0x020: R202
def DEC_LAST_DPOINT : Fld := ⟨0x40, 0, 8, 0⟩
def DEC_LAST_SUCC : Fld := ⟨0x40, 8, 10, 0⟩
def DEC_LAST_PREDICTED : Fld := ⟨0x40, 18, 1, 0⟩
def DEC_TIME_TIME : Fld := ⟨0x48, 0, 64, 0⟩
def DEC_LAT_MAX_NS : Fld := ⟨0x50, 0, 32, 0⟩
def DECISIONS_COUNT : Fld := ⟨0x54, 0, 32, 0⟩
def SLOT_CFG_EXPECT (k : Nat) : Fld := ⟨0x400 + 32 * k, 0, 9, 0⟩
def SLOT_CFG_TAG (k : Nat) : Fld := ⟨0x400 + 32 * k, 16, 8, 0⟩
def SLOT_CFG_MODE (k : Nat) : Fld := ⟨0x400 + 32 * k, 24, 4, 0⟩
def SLOT_CTRL_ARM (k : Nat) : Fld := ⟨0x404 + 32 * k, 0, 1, 0⟩
def SLOT_STAT_COUNT (k : Nat) : Fld := ⟨0x408 + 32 * k, 0, 9, 0⟩
def SLOT_STAT_COMPLETE (k : Nat) : Fld := ⟨0x408 + 32 * k, 9, 1, 0⟩
def SLOT_STAT_DUPLICATE (k : Nat) : Fld := ⟨0x408 + 32 * k, 16, 8, 0⟩
def SLOT_STAT_TAG_MISMATCH (k : Nat) : Fld := ⟨0x408 + 32 * k, 24, 8, 0⟩
def SLOT_OVR_OVERRUN (k : Nat) : Fld := ⟨0x40C + 32 * k, 0, 8, 0⟩
def SLOT_W0_RESULT (k : Nat) : Fld := ⟨0x410 + 32 * k, 0, 32, 0⟩
def SLOT_W1_RESULT (k : Nat) : Fld := ⟨0x414 + 32 * k, 0, 32, 0⟩
def SLOT_W2_RESULT (k : Nat) : Fld := ⟨0x418 + 32 * k, 0, 32, 0⟩
def SLOT_W3_RESULT (k : Nat) : Fld := ⟨0x41C + 32 * k, 0, 32, 0⟩
end F.dp

namespace F.col  -- page type 0x021: R258
def SAT_ELEM_INDEX : Fld := ⟨0x90, 0, 64, 0⟩
def COL_CFG_ETHERTYPE : Fld := ⟨0x98, 0, 16, 0x88b5⟩
def COL_CFG_ACK_DELAY : Fld := ⟨0x98, 16, 16, 0x7d0⟩
def RTO_NS : Fld := ⟨0x9C, 0, 32, 0x4e20⟩
def RETRIES_COUNT : Fld := ⟨0xA0, 0, 4, 8⟩
def COL_STAT_OPS : Fld := ⟨0xA4, 0, 4, 0⟩
def COL_STAT_FLOWS : Fld := ⟨0xA4, 4, 10, 0⟩
def COL_STAT_PIECES : Fld := ⟨0xA4, 14, 9, 0⟩
def HOLD_BYTES_BYTES : Fld := ⟨0xA8, 0, 21, 0⟩
def ARR_HEAD_HEAD : Fld := ⟨0xAC, 0, 4, 0⟩
def TX_BYTES_COUNT : Fld := ⟨0xB0, 0, 64, 0⟩
def RX_BYTES_COUNT : Fld := ⟨0xB8, 0, 64, 0⟩
def RETRANSMITS_COUNT : Fld := ⟨0xC0, 0, 32, 0⟩
def DUP_FRAMES_COUNT : Fld := ⟨0xC4, 0, 32, 0⟩
def STALE_FRAMES_COUNT : Fld := ⟨0xC8, 0, 32, 0⟩
def DROP_WINDOW_COUNT : Fld := ⟨0xCC, 0, 32, 0⟩
def DROP_HOLD_COUNT : Fld := ⟨0xD0, 0, 32, 0⟩
def NACK_SENT_COUNT : Fld := ⟨0xD4, 0, 32, 0⟩
def FOREIGN_COUNT : Fld := ⟨0xD8, 0, 32, 0⟩
def ARR_OP_ID (k : Nat) : Fld := ⟨0x100 + 16 * k, 0, 32, 0⟩
def ARR_OPSEQ (k : Nat) : Fld := ⟨0x104 + 16 * k, 0, 32, 0⟩
def ARR_LAST_RANK (k : Nat) : Fld := ⟨0x108 + 16 * k, 0, 6, 0⟩
def ARR_COMM (k : Nat) : Fld := ⟨0x108 + 16 * k, 8, 5, 0⟩
def ARR_STATUS (k : Nat) : Fld := ⟨0x108 + 16 * k, 16, 8, 0⟩
def ARR_WAIT_NS (k : Nat) : Fld := ⟨0x10C + 16 * k, 0, 32, 0⟩
def LAST_COUNT_COUNT (k : Nat) : Fld := ⟨0x200 + 4 * k, 0, 32, 0⟩
def NUM_CTRL_SAT_TALLY : Fld := ⟨0x40, 16, 12, 0⟩
def NUM_CTRL_SAT_TALLY_EN : Fld := ⟨0x40, 29, 1, 0⟩
def SAT_POS_TILE : Fld := ⟨0x58, 0, 8, 0⟩
def SAT_POS_ELEMENT : Fld := ⟨0x58, 8, 12, 0⟩
def SAT_POS_UNIT : Fld := ⟨0x58, 20, 3, 0⟩
def SAT_POS_CAUSE : Fld := ⟨0x58, 23, 2, 0⟩
def SAT_POS_VALID : Fld := ⟨0x58, 31, 1, 0⟩
def SAT_POS_OP_ID : Fld := ⟨0x58, 32, 32, 0⟩
def SAT_TIME_TIME : Fld := ⟨0x60, 0, 64, 0⟩
end F.col

namespace F.comm  -- page type 0x022: R234
def COMM_CMD_COMM : Fld := ⟨0x40, 0, 4, 0⟩
def COMM_CMD_CMD : Fld := ⟨0x40, 4, 2, 0⟩
def COMM_RESULT_STATUS : Fld := ⟨0x44, 0, 8, 0⟩
def SELF_PEER : Fld := ⟨0x48, 0, 6, 0⟩
def CM_MASK_MASK (k : Nat) : Fld := ⟨0x100 + 32 * k, 0, 64, 0⟩
def CM_CFG_EPOCH (k : Nat) : Fld := ⟨0x108 + 32 * k, 0, 16, 0⟩
def CM_CFG_TENANT (k : Nat) : Fld := ⟨0x108 + 32 * k, 16, 4, 0⟩
def CM_STAT_STATE (k : Nat) : Fld := ⟨0x10C + 32 * k, 0, 3, 0⟩
def CM_STAT_RANK (k : Nat) : Fld := ⟨0x10C + 32 * k, 8, 6, 0⟩
def CM_STAT_SIZE (k : Nat) : Fld := ⟨0x10C + 32 * k, 16, 7, 0⟩
def CM_OPSEQ_OPSEQ (k : Nat) : Fld := ⟨0x110 + 32 * k, 0, 32, 0⟩
def CM_EPOCH_CUR_EPOCH (k : Nat) : Fld := ⟨0x114 + 32 * k, 0, 16, 0⟩
def PR_MAC_MAC_BASE (k : Nat) : Fld := ⟨0x400 + 16 * k, 0, 48, 0⟩
def PR_MAC_LOCAL_PORTS (k : Nat) : Fld := ⟨0x400 + 16 * k, 48, 8, 0⟩
def PR_MAC_REMOTE_PORTS (k : Nat) : Fld := ⟨0x400 + 16 * k, 56, 8, 0⟩
def PR_CFG_VLAN (k : Nat) : Fld := ⟨0x408 + 16 * k, 0, 12, 0⟩
def PR_CFG_VALID (k : Nat) : Fld := ⟨0x408 + 16 * k, 16, 1, 0⟩
def PR_CFG_TWIN (k : Nat) : Fld := ⟨0x408 + 16 * k, 17, 1, 0⟩
end F.comm

namespace F.mxe  -- page type 0x023: R78
def NUM_CTRL_NF_TALLY : Fld := ⟨0x40, 0, 12, 0⟩
def NUM_CTRL_SAT_TALLY : Fld := ⟨0x40, 16, 12, 0⟩
def NUM_CTRL_NF_TALLY_EN : Fld := ⟨0x40, 28, 1, 0⟩
def NUM_CTRL_SAT_TALLY_EN : Fld := ⟨0x40, 29, 1, 0⟩
def NF_POS_TILE : Fld := ⟨0x48, 0, 8, 0⟩
def NF_POS_ELEMENT : Fld := ⟨0x48, 8, 12, 0⟩
def NF_POS_UNIT : Fld := ⟨0x48, 20, 3, 0⟩
def NF_POS_CAUSE : Fld := ⟨0x48, 23, 2, 0⟩
def NF_POS_VALID : Fld := ⟨0x48, 31, 1, 0⟩
def NF_POS_OP_ID : Fld := ⟨0x48, 32, 32, 0⟩
def NF_TIME_TIME : Fld := ⟨0x50, 0, 64, 0⟩
def SAT_POS_TILE : Fld := ⟨0x58, 0, 8, 0⟩
def SAT_POS_ELEMENT : Fld := ⟨0x58, 8, 12, 0⟩
def SAT_POS_UNIT : Fld := ⟨0x58, 20, 3, 0⟩
def SAT_POS_CAUSE : Fld := ⟨0x58, 23, 2, 0⟩
def SAT_POS_VALID : Fld := ⟨0x58, 31, 1, 0⟩
def SAT_POS_OP_ID : Fld := ⟨0x58, 32, 32, 0⟩
def SAT_TIME_TIME : Fld := ⟨0x60, 0, 64, 0⟩
def NF_TILES_TILES (k : Nat) : Fld := ⟨0x70 + 4 * k, 0, 32, 0⟩
def SAT_TILES_TILES (k : Nat) : Fld := ⟨0x80 + 4 * k, 0, 32, 0⟩
end F.mxe

namespace F.vec  -- page type 0x024: R78
def NUM_CTRL_NF_TALLY : Fld := ⟨0x40, 0, 12, 0⟩
def NUM_CTRL_SAT_TALLY : Fld := ⟨0x40, 16, 12, 0⟩
def NUM_CTRL_NF_TALLY_EN : Fld := ⟨0x40, 28, 1, 0⟩
def NUM_CTRL_SAT_TALLY_EN : Fld := ⟨0x40, 29, 1, 0⟩
def NF_POS_TILE : Fld := ⟨0x48, 0, 8, 0⟩
def NF_POS_ELEMENT : Fld := ⟨0x48, 8, 12, 0⟩
def NF_POS_UNIT : Fld := ⟨0x48, 20, 3, 0⟩
def NF_POS_CAUSE : Fld := ⟨0x48, 23, 2, 0⟩
def NF_POS_VALID : Fld := ⟨0x48, 31, 1, 0⟩
def NF_POS_OP_ID : Fld := ⟨0x48, 32, 32, 0⟩
def NF_TIME_TIME : Fld := ⟨0x50, 0, 64, 0⟩
def SAT_POS_TILE : Fld := ⟨0x58, 0, 8, 0⟩
def SAT_POS_ELEMENT : Fld := ⟨0x58, 8, 12, 0⟩
def SAT_POS_UNIT : Fld := ⟨0x58, 20, 3, 0⟩
def SAT_POS_CAUSE : Fld := ⟨0x58, 23, 2, 0⟩
def SAT_POS_VALID : Fld := ⟨0x58, 31, 1, 0⟩
def SAT_POS_OP_ID : Fld := ⟨0x58, 32, 32, 0⟩
def SAT_TIME_TIME : Fld := ⟨0x60, 0, 64, 0⟩
def NF_TILES_TILES (k : Nat) : Fld := ⟨0x70 + 4 * k, 0, 32, 0⟩
def SAT_TILES_TILES (k : Nat) : Fld := ⟨0x80 + 4 * k, 0, 32, 0⟩
end F.vec

namespace F.vst  -- page type 0x025: R145
def VSTORE_STAT_IMAGES : Fld := ⟨0x40, 0, 9, 0⟩
def VSTORE_USED_BYTES : Fld := ⟨0x44, 0, 24, 0⟩
def VSTORE_FAMILY_MEMBER : Fld := ⟨0x48, 0, 16, 162⟩
def VSTORE_FAMILY_PARAM_SET : Fld := ⟨0x48, 16, 16, 1⟩
def VSTORE_BINDS_ACTIVE : Fld := ⟨0x4C, 0, 5, 0⟩
def DIR_IMAGE_ID (k : Nat) : Fld := ⟨0x100 + 8 * k, 0, 32, 0⟩
def DIR_LENGTH (k : Nat) : Fld := ⟨0x104 + 8 * k, 0, 24, 0⟩
def DIR_TYPE (k : Nat) : Fld := ⟨0x104 + 8 * k, 24, 4, 0⟩
def DIR_VALID (k : Nat) : Fld := ⟨0x104 + 8 * k, 31, 1, 0⟩
end F.vst

namespace F.net  -- page type 0x026: R161
def NET_DIM_COLS : Fld := ⟨0x40, 0, 4, 6⟩
def NET_DIM_ROWS : Fld := ⟨0x40, 4, 4, 6⟩
def NET_DIM_END_CYC : Fld := ⟨0x40, 8, 8, 8⟩
def NET_DIM_SEAM_CYC : Fld := ⟨0x40, 16, 8, 18⟩
def NET_BYTES_COUNT : Fld := ⟨0x48, 0, 64, 0⟩
def NET_CONTEND_COUNT : Fld := ⟨0x50, 0, 64, 0⟩
def NET_HDR_CORR_COUNT : Fld := ⟨0x58, 0, 32, 0⟩
def NET_HDR_FAIL_COUNT : Fld := ⟨0x5C, 0, 32, 0⟩
end F.net

namespace F.seam  -- page type 0x027: R162
def SEAM_STAT_CH_UP : Fld := ⟨0x40, 0, 8, Config.boot 0x27 (0x40) 0 % 2 ^ 8⟩
def SEAM_BYTES_01_COUNT : Fld := ⟨0x48, 0, 64, 0⟩
def SEAM_BYTES_10_COUNT : Fld := ⟨0x50, 0, 64, 0⟩
def SEAM_WAIT_COUNT : Fld := ⟨0x58, 0, 64, 0⟩
def SEAM_HDR_CORR_COUNT : Fld := ⟨0x60, 0, 32, 0⟩
def SEAM_HDR_FAIL_COUNT : Fld := ⟨0x64, 0, 32, 0⟩
end F.seam

namespace F.seq  -- page type 0x028: R203
def SEQ_PHYS_PHYS_ID : Fld := ⟨0x40, 0, 7, Config.boot 0x28 (0x40) 0 % 2 ^ 7⟩
def SEQ_FMAX_MEASURED : Fld := ⟨0x44, 0, 12, Config.boot 0x28 (0x44) 0 % 2 ^ 12⟩
def SEQ_FMAX_RECORD : Fld := ⟨0x44, 16, 12, Config.boot 0x28 (0x44) 16 % 2 ^ 12⟩
def SEQ_FEFF_EFFECTIVE : Fld := ⟨0x48, 0, 12, Config.boot 0x28 (0x48) 0 % 2 ^ 12⟩
def SEQ_POS_HEAD : Fld := ⟨0x4C, 0, 16, 0⟩
def SEQ_POS_SEGMENT : Fld := ⟨0x4C, 16, 10, 0⟩
def SEQ_WAIT_WINDOW : Fld := ⟨0x50, 0, 7, 0⟩
def SEQ_WAIT_SPEC : Fld := ⟨0x50, 7, 1, 0⟩
def SEQ_WAIT_REASON : Fld := ⟨0x50, 8, 3, 0⟩
def SEQ_WAIT_PHASE : Fld := ⟨0x50, 16, 8, 0⟩
def SEQ_WAIT_FORECAST : Fld := ⟨0x50, 24, 8, 0⟩
def SEQ_FC_TIME_TIME : Fld := ⟨0x58, 0, 64, 0⟩
def SEQ_LATE_COUNT : Fld := ⟨0x60, 0, 32, 0⟩
def SEQ_HELD_COUNT : Fld := ⟨0x64, 0, 32, 0⟩
def CURSOR_TALLY (k : Nat) : Fld := ⟨0x100 + 8 * k, 0, 12, 0⟩
def CURSOR_CURSOR (k : Nat) : Fld := ⟨0x104 + 8 * k, 0, 32, 0⟩
end F.seq

namespace F.til  -- page type 0x029: R101, R142, R160
def MXE_STAT_QUEUED : Fld := ⟨0x40, 0, 3, 0⟩
def MXE_STAT_BUSY : Fld := ⟨0x40, 3, 1, 0⟩
def MXE_STAT_ACTIVE_SET : Fld := ⟨0x40, 4, 1, 0⟩
def MXE_STAT_DRAINING : Fld := ⟨0x40, 5, 1, 0⟩
def MXE_STAT_CHUNK_BLKS : Fld := ⟨0x40, 8, 11, 0⟩
def MXE_LAST_STATUS : Fld := ⟨0x44, 0, 8, 0⟩
def MXE_LAST_OPCODE : Fld := ⟨0x44, 8, 8, 0⟩
def MXE_LAST_OPID_OP_ID : Fld := ⟨0x48, 0, 32, 0⟩
def MXE_OPS_COUNT : Fld := ⟨0x50, 0, 64, 0⟩
def MXE_ARRAY_CYC_COUNT : Fld := ⟨0x58, 0, 64, 0⟩
def MXE_WAIT_CYC_COUNT : Fld := ⟨0x60, 0, 64, 0⟩
def MXE_PRODUCTS_COUNT : Fld := ⟨0x68, 0, 64, 0⟩
def VEC_STAT_QUEUED : Fld := ⟨0x100, 0, 3, 0⟩
def VEC_STAT_BUSY : Fld := ⟨0x100, 3, 1, 0⟩
def VEC_STAT_PROG_VALID : Fld := ⟨0x100, 8, 4, 0⟩
def VEC_STAT_TABLE_VALID : Fld := ⟨0x100, 12, 4, 0⟩
def VEC_LAST_STATUS : Fld := ⟨0x104, 0, 8, 0⟩
def VEC_LAST_OPCODE : Fld := ⟨0x104, 8, 8, 0⟩
def VEC_LAST_OPID_OP_ID : Fld := ⟨0x108, 0, 32, 0⟩
def VEC_PIMG_IMAGE_ID (k : Nat) : Fld := ⟨0x110 + 4 * k, 0, 32, 0⟩
def VEC_TIMG_IMAGE_ID (k : Nat) : Fld := ⟨0x120 + 4 * k, 0, 32, 0⟩
def VEC_RUNS_COUNT : Fld := ⟨0x130, 0, 64, 0⟩
def VEC_ISSUE_CYC_COUNT : Fld := ⟨0x138, 0, 64, 0⟩
def VEC_STALL_CYC_COUNT : Fld := ⟨0x140, 0, 64, 0⟩
def VEC_FLOPS_COUNT : Fld := ⟨0x148, 0, 64, 0⟩
def VEC_TBL_EVALS_COUNT : Fld := ⟨0x150, 0, 64, 0⟩
def VEC_CORR_COUNT : Fld := ⟨0x158, 0, 32, 0⟩
def VEC_FAILED_COUNT : Fld := ⟨0x15C, 0, 32, 0⟩
def VEC_REFUSED_COUNT : Fld := ⟨0x160, 0, 32, 0⟩
def VEC_ABORTED_COUNT : Fld := ⟨0x164, 0, 32, 0⟩
def VEC_NF_RUNS_COUNT : Fld := ⟨0x168, 0, 32, 0⟩
def VEC_SAT_RUNS_COUNT : Fld := ⟨0x16C, 0, 32, 0⟩
def VEC_STORE_CORR_COUNT : Fld := ⟨0x170, 0, 32, 0⟩
def SHF_BANK_CONF_COUNT : Fld := ⟨0x200, 0, 64, 0⟩
def SHF_LOCAL_BYTES_COUNT : Fld := ⟨0x208, 0, 64, 0⟩
def SHF_IN_BYTES_COUNT : Fld := ⟨0x210, 0, 64, 0⟩
def SHF_OUT_BYTES_COUNT : Fld := ⟨0x218, 0, 64, 0⟩
def SHF_REMOTE_WAIT_COUNT : Fld := ⟨0x220, 0, 64, 0⟩
def LB_BASE_BASE (k : Nat) : Fld := ⟨0x240 + 16 * k, 0, 21, 0⟩
def LB_LEN_LENGTH (k : Nat) : Fld := ⟨0x244 + 16 * k, 0, 21, 0⟩
def LB_STAT_GEN (k : Nat) : Fld := ⟨0x248 + 16 * k, 0, 4, 0⟩
def LB_STAT_STATE (k : Nat) : Fld := ⟨0x248 + 16 * k, 4, 2, 0⟩
def LB_DROP_COUNT (k : Nat) : Fld := ⟨0x24C + 16 * k, 0, 32, 0⟩
end F.til

end Sys2Proof.Machine
end

