-- ==== Sys2Proof/Machine/RegTable.lean ====
section
/-! DEFINITION. The register maps as tables the register hub reads: for every field its access type, whether it is static,
whether a soft reset keeps it (log 12) and whether its register is 64 bits wide or more. Bits no field covers are RSV. -/

namespace Sys2Proof.Machine

/-- Access types (R14); RSV bits have no entry. -/
inductive Access where
  | ro | rw | rw1c | wo
deriving DecidableEq, Repr

/-- One row of a register map: its fields by index, the distance from one index to the next, the number of indices. -/
structure FieldDef where
  fld : Nat → Fld
  stride : Nat
  count : Nat
  access : Access
  static : Bool
  keep : Bool
  wide : Bool

/-- The fields of page type 0x001 from offset 0x040 on. -/
def fields_hst : List FieldDef :=
  [⟨fun _ => F.hst.HOST_STAT_READY, 0, 1, .ro, false, false, false⟩,
   ⟨fun _ => F.hst.HOST_STAT_MODULES_UP, 0, 1, .ro, false, false, false⟩,
   ⟨fun _ => F.hst.EQ_BASE_ADDR, 0, 1, .rw, true, false, true⟩,
   ⟨fun _ => F.hst.EQ_CFG_LOG2, 0, 1, .rw, true, false, false⟩,
   ⟨fun _ => F.hst.EQ_CFG_VECTOR, 0, 1, .rw, false, false, false⟩,
   ⟨fun _ => F.hst.EQ_CFG_IRQ_EN, 0, 1, .rw, false, false, false⟩,
   ⟨fun _ => F.hst.EQ_CFG_MODULE, 0, 1, .rw, false, false, false⟩,
   ⟨fun _ => F.hst.EQ_HEAD_HEAD, 0, 1, .ro, false, false, false⟩,
   ⟨fun _ => F.hst.EQ_TAIL_TAIL, 0, 1, .rw, false, false, false⟩,
   ⟨fun _ => F.hst.EQ_OVERFLOW_COUNT, 0, 1, .rw, false, true, false⟩,
   ⟨fun _ => F.hst.EVT_ROUTE_ROUTE, 0, 1, .rw, false, false, true⟩]

/-- The fields of page type 0x002 from offset 0x040 on. -/
def fields_lnk : List FieldDef :=
  [⟨fun _ => F.lnk.LINK_STAT_STAGE, 0, 1, .ro, false, false, false⟩,
   ⟨fun _ => F.lnk.LINK_STAT_LANES, 0, 1, .ro, false, false, false⟩,
   ⟨fun _ => F.lnk.LINK_STAT_DEGRADED, 0, 1, .ro, false, false, false⟩,
   ⟨fun _ => F.lnk.LINK_STAT_MEM_EN, 0, 1, .ro, false, false, false⟩,
   ⟨fun _ => F.lnk.LINK_CTRL_RETRAIN, 0, 1, .wo, false, false, false⟩,
   ⟨fun _ => F.lnk.LINK_CTRL_DISABLE, 0, 1, .rw, false, false, false⟩,
   ⟨fun _ => F.lnk.DOWNS_COUNT, 0, 1, .rw, false, true, false⟩,
   ⟨fun _ => F.lnk.FLIT_RETRY_COUNT, 0, 1, .rw, false, true, false⟩,
   ⟨fun _ => F.lnk.POISON_RX_COUNT, 0, 1, .rw, false, true, false⟩,
   ⟨fun _ => F.lnk.CPL_TIMEOUT_COUNT, 0, 1, .rw, false, true, false⟩,
   ⟨fun _ => F.lnk.TX_BYTES_COUNT, 0, 1, .ro, false, true, true⟩,
   ⟨fun _ => F.lnk.RX_BYTES_COUNT, 0, 1, .ro, false, true, true⟩]

/-- The fields of page type 0x003 from offset 0x040 on. -/
def fields_jq : List FieldDef :=
  [⟨fun _ => F.jq.JQ_CFG_TENANT, 0, 1, .rw, true, false, false⟩,
   ⟨fun _ => F.jq.JQ_CFG_SQ_LOG2, 0, 1, .rw, true, false, false⟩,
   ⟨fun _ => F.jq.JQ_CFG_CQ_LOG2, 0, 1, .rw, true, false, false⟩,
   ⟨fun _ => F.jq.JQ_CFG_MODULE, 0, 1, .rw, true, false, false⟩,
   ⟨fun _ => F.jq.QUEUE_INDEX_INDEX, 0, 1, .ro, false, false, false⟩,
   ⟨fun _ => F.jq.SQ_BASE_ADDR, 0, 1, .rw, true, false, true⟩,
   ⟨fun _ => F.jq.CQ_BASE_ADDR, 0, 1, .rw, true, false, true⟩,
   ⟨fun _ => F.jq.SQ_TAIL_TAIL, 0, 1, .rw, false, false, false⟩,
   ⟨fun _ => F.jq.SQ_HEAD_HEAD, 0, 1, .ro, false, false, false⟩,
   ⟨fun _ => F.jq.CQ_HEAD_HEAD, 0, 1, .ro, false, false, false⟩,
   ⟨fun _ => F.jq.CQ_TAIL_TAIL, 0, 1, .rw, false, false, false⟩,
   ⟨fun _ => F.jq.IRQ_CFG_VECTOR, 0, 1, .rw, false, false, false⟩,
   ⟨fun _ => F.jq.IRQ_CFG_IRQ_EN, 0, 1, .rw, false, false, false⟩,
   ⟨fun _ => F.jq.IRQ_CFG_COAL_COUNT, 0, 1, .rw, false, false, false⟩,
   ⟨fun _ => F.jq.COAL_NS_NS, 0, 1, .rw, false, false, false⟩,
   ⟨fun _ => F.jq.JQ_STAT_WAITING, 0, 1, .ro, false, false, false⟩,
   ⟨fun _ => F.jq.JQ_STAT_REASON, 0, 1, .ro, false, false, false⟩,
   ⟨fun _ => F.jq.JQ_SUBMITTED_COUNT, 0, 1, .rw, false, true, false⟩,
   ⟨fun _ => F.jq.JQ_REFUSED_COUNT, 0, 1, .rw, false, true, false⟩]

/-- The fields of page type 0x004 from offset 0x040 on. -/
def fields_mbx : List FieldDef :=
  [⟨fun _ => F.mbx.MBX_CMD_OP, 0, 1, .wo, false, false, false⟩,
   ⟨fun _ => F.mbx.MBX_CMD_INDEX, 0, 1, .wo, false, false, false⟩,
   ⟨fun _ => F.mbx.MBX_SRC_ADDR, 0, 1, .rw, false, false, true⟩,
   ⟨fun _ => F.mbx.MBX_LEN_LENGTH, 0, 1, .rw, false, false, false⟩,
   ⟨fun _ => F.mbx.MBX_RESULT_STATUS, 0, 1, .ro, false, false, false⟩,
   ⟨fun _ => F.mbx.MBX_RESULT_OP, 0, 1, .ro, false, false, false⟩,
   ⟨fun _ => F.mbx.MBX_RESULT_BUSY, 0, 1, .ro, false, false, false⟩,
   ⟨fun _ => F.mbx.BOOT_STAT_IMAGE, 0, 1, .ro, false, false, false⟩,
   ⟨fun _ => F.mbx.BOOT_STAT_FALLBACK, 0, 1, .ro, false, false, false⟩,
   ⟨fun _ => F.mbx.BOOT_STAT_ENROLLED, 0, 1, .ro, false, false, false⟩,
   ⟨fun _ => F.mbx.BOOT_STAT_POLICY_MET, 0, 1, .ro, false, false, false⟩,
   ⟨fun _ => F.mbx.BOOT_STAT_DEBUG, 0, 1, .ro, false, false, false⟩,
   ⟨fun _ => F.mbx.BOOT_STAT_FAIL, 0, 1, .ro, false, false, false⟩,
   ⟨fun _ => F.mbx.BOOT_STAT_SVN, 0, 1, .ro, false, false, false⟩,
   ⟨fun _ => F.mbx.FW_FLOOR_FLOOR, 0, 1, .ro, false, false, false⟩,
   ⟨fun _ => F.mbx.SERIAL_SERIAL, 0, 1, .ro, false, false, true⟩,
   ⟨fun _ => F.mbx.MEAS_SEL_INDEX, 0, 1, .rw, false, false, false⟩,
   ⟨fun _ => F.mbx.MEAS_COUNT_COUNT, 0, 1, .ro, false, true, false⟩,
   ⟨fun _ => F.mbx.DEBUG_NONCE_NONCE, 0, 1, .ro, false, false, true⟩,
   ⟨fun _ => F.mbx.CAK_VALID_VALID, 0, 1, .ro, false, false, false⟩,
   ⟨fun _ => F.mbx.SIG_FAIL_COUNT, 0, 1, .rw, false, true, false⟩,
   ⟨F.mbx.MEAS_DATA_DIGEST, 4, 16, .ro, false, false, false⟩]

/-- The fields of page type 0x005 from offset 0x040 on. -/
def fields_ks : List FieldDef :=
  [⟨fun _ => F.ks.KS_CMD_CMD, 0, 1, .wo, false, false, false⟩,
   ⟨fun _ => F.ks.KS_CMD_SCRUB, 0, 1, .wo, false, false, false⟩,
   ⟨fun _ => F.ks.KS_SRC_ADDR, 0, 1, .rw, false, false, true⟩,
   ⟨fun _ => F.ks.KS_LEN_LENGTH, 0, 1, .rw, false, false, false⟩,
   ⟨fun _ => F.ks.KS_STAT_STATE, 0, 1, .ro, false, false, false⟩,
   ⟨fun _ => F.ks.KS_STAT_RESULT, 0, 1, .ro, false, false, false⟩,
   ⟨fun _ => F.ks.KS_STAT_KEY_GEN, 0, 1, .ro, false, false, false⟩,
   ⟨fun _ => F.ks.KS_TAG_TENANT_TAG, 0, 1, .ro, false, false, false⟩,
   ⟨fun _ => F.ks.KS_LAST_GEN_GEN, 0, 1, .ro, false, false, false⟩,
   ⟨fun _ => F.ks.KS_T_REVOKE_TIME, 0, 1, .ro, false, false, true⟩,
   ⟨fun _ => F.ks.KS_T_ZERO_TIME, 0, 1, .ro, false, false, true⟩,
   ⟨fun _ => F.ks.KS_LANDED_COUNT, 0, 1, .ro, false, true, false⟩,
   ⟨fun _ => F.ks.KS_SCRUB_BYTES, 0, 1, .ro, false, false, true⟩]

/-- The fields of page type 0x006 from offset 0x040 on. -/
def fields_pwr : List FieldDef :=
  [⟨fun _ => F.pwr.PWR_CAP_CAP_W, 0, 1, .rw, false, false, false⟩,
   ⟨fun _ => F.pwr.PWR_CAP_HEADROOM_W, 0, 1, .rw, false, false, false⟩,
   ⟨fun _ => F.pwr.PWR_CTRL_LEARN_EN, 0, 1, .rw, false, false, false⟩,
   ⟨fun _ => F.pwr.PWR_CTRL_KEEP_LEARN, 0, 1, .rw, false, false, false⟩,
   ⟨fun _ => F.pwr.PWR_CTRL_SHIFT_EN, 0, 1, .rw, false, false, false⟩,
   ⟨fun _ => F.pwr.PWR_CTRL_SHIFT_FLOOR, 0, 1, .rw, false, false, false⟩,
   ⟨fun _ => F.pwr.PWR_CTRL_DEFAULT_PREF, 0, 1, .rw, false, false, false⟩,
   ⟨fun _ => F.pwr.PWR_CTRL_DROOP_MV, 0, 1, .rw, false, false, false⟩,
   ⟨fun _ => F.pwr.PWR_CMD_CMD, 0, 1, .wo, false, false, false⟩,
   ⟨fun _ => F.pwr.PWR_STATE_STATE, 0, 1, .ro, false, false, false⟩,
   ⟨fun _ => F.pwr.PWR_STATE_RESULT, 0, 1, .ro, false, false, false⟩,
   ⟨fun _ => F.pwr.PWR_STATE_REFUSERS, 0, 1, .ro, false, false, false⟩,
   ⟨fun _ => F.pwr.TJ_CFG_TJ_LIMIT, 0, 1, .rw, false, false, false⟩,
   ⟨fun _ => F.pwr.TJ_CFG_TJ_NOW, 0, 1, .ro, false, false, false⟩,
   ⟨fun _ => F.pwr.TJ_CFG_TJ_GROUP, 0, 1, .ro, false, false, false⟩,
   ⟨fun _ => F.pwr.PKG_MW_MW, 0, 1, .ro, false, false, false⟩,
   ⟨fun _ => F.pwr.PKG_PEAK_MW_MW, 0, 1, .rw, false, false, false⟩,
   ⟨fun _ => F.pwr.LEVEL_PKG_LEVEL, 0, 1, .ro, false, false, false⟩,
   ⟨fun _ => F.pwr.LEVEL_CLIM, 0, 1, .ro, false, false, false⟩,
   ⟨fun _ => F.pwr.LEVEL_BOOST, 0, 1, .ro, false, false, false⟩,
   ⟨fun _ => F.pwr.CAL_RATIO, 0, 1, .ro, false, false, false⟩,
   ⟨fun _ => F.pwr.SHIFT_CFG_COMM_MASK, 0, 1, .rw, false, false, false⟩,
   ⟨fun _ => F.pwr.SLACK_HIGH_NS, 0, 1, .rw, false, false, false⟩,
   ⟨fun _ => F.pwr.SLACK_LOW_NS, 0, 1, .rw, false, false, false⟩,
   ⟨fun _ => F.pwr.SHIFT_PERIOD_US, 0, 1, .rw, false, false, false⟩,
   ⟨fun _ => F.pwr.RES_ACTIVE_NS, 0, 1, .ro, false, true, true⟩,
   ⟨fun _ => F.pwr.RES_NAP_NS, 0, 1, .ro, false, true, true⟩,
   ⟨fun _ => F.pwr.RES_STANDBY_NS, 0, 1, .ro, false, true, true⟩,
   ⟨fun _ => F.pwr.ENTRIES_NAP_COUNT, 0, 1, .rw, false, true, false⟩,
   ⟨fun _ => F.pwr.ENTRIES_STANDBY_COUNT, 0, 1, .rw, false, true, false⟩,
   ⟨fun _ => F.pwr.REFUSED_COUNT, 0, 1, .rw, false, true, false⟩,
   ⟨fun _ => F.pwr.WAKES_AUTO_COUNT, 0, 1, .rw, false, true, false⟩,
   ⟨fun _ => F.pwr.HINTS_TX_COUNT, 0, 1, .rw, false, true, false⟩,
   ⟨fun _ => F.pwr.HINTS_RX_COUNT, 0, 1, .rw, false, true, false⟩]

/-- The fields of page type 0x007 from offset 0x040 on. -/
def fields_ops : List FieldDef :=
  [⟨F.ops.OP_MHZ, 4, 13, .ro, false, false, false⟩,
   ⟨F.ops.OP_MV, 4, 13, .ro, false, false, false⟩,
   ⟨F.ops.EST_GROUP_MW, 4, 256, .ro, false, false, false⟩,
   ⟨F.ops.EST_UNCORE_10MW, 4, 256, .ro, false, false, false⟩,
   ⟨F.ops.PHASE_PREF_LEVEL, 1, 255, .rw, false, false, false⟩]

/-- The fields of page type 0x008 from offset 0x040 on. -/
def fields_thr : List FieldDef :=
  [⟨fun _ => F.thr.ENERGY_PKG_UJ, 0, 1, .ro, false, true, true⟩,
   ⟨fun _ => F.thr.ENERGY_DIE0_UJ, 0, 1, .ro, false, true, true⟩,
   ⟨fun _ => F.thr.ENERGY_DIE1_UJ, 0, 1, .ro, false, true, true⟩,
   ⟨fun _ => F.thr.ENERGY_OTHER_UJ, 0, 1, .ro, false, true, true⟩,
   ⟨F.thr.ENERGY_TENANT_UJ, 8, 16, .ro, false, true, true⟩,
   ⟨F.thr.GRP_REASON, 8, 64, .ro, false, false, false⟩,
   ⟨F.thr.GRP_LEVEL, 8, 64, .ro, false, false, false⟩,
   ⟨F.thr.GRP_PHASE, 8, 64, .ro, false, false, false⟩,
   ⟨F.thr.GRP_THR_US, 8, 64, .rw, false, false, false⟩,
   ⟨F.thr.PHASE_ENERGY_MJ, 4, 256, .rw, false, true, false⟩,
   ⟨fun _ => F.thr.THR_RING_BASE_ADDR, 0, 1, .rw, true, false, true⟩,
   ⟨fun _ => F.thr.THR_RING_SIZE_LOG2, 0, 1, .rw, false, false, false⟩,
   ⟨fun _ => F.thr.THR_RING_HEAD_HEAD, 0, 1, .ro, false, false, false⟩,
   ⟨fun _ => F.thr.THR_RING_TAIL_TAIL, 0, 1, .rw, false, false, false⟩,
   ⟨fun _ => F.thr.THR_DROPPED_COUNT, 0, 1, .rw, false, true, false⟩,
   ⟨fun _ => F.thr.THR_CTRL_RING_EN, 0, 1, .rw, false, false, false⟩,
   ⟨F.thr.COEF_VALUE, 4, 17, .ro, false, false, false⟩,
   ⟨F.thr.THR_NS_GROUP_NS, 8, 7, .ro, false, true, true⟩]

/-- The fields of page type 0x009 from offset 0x040 on. -/
def fields_dom : List FieldDef :=
  [⟨fun _ => F.dom.DOM_COUNT_COUNT, 0, 1, .ro, false, false, false⟩,
   ⟨F.dom.DOM_MHZ, 4, 100, .ro, false, false, false⟩,
   ⟨F.dom.DOM_GATED, 4, 100, .ro, false, false, false⟩,
   ⟨F.dom.DOM_ISOLATED, 4, 100, .ro, false, false, false⟩,
   ⟨F.dom.DOM_OFF, 4, 100, .ro, false, false, false⟩,
   ⟨F.dom.DOM_STRETCH, 4, 100, .ro, false, false, false⟩]

/-- The fields of page type 0x00A from offset 0x040 on. -/
def fields_wake : List FieldDef :=
  [⟨fun _ => F.wake.WAKE_STAT_STAGE, 0, 1, .ro, false, false, false⟩,
   ⟨fun _ => F.wake.WAKE_STAT_FAILED, 0, 1, .ro, false, false, false⟩,
   ⟨fun _ => F.wake.WAKE_STAT_FAIL_DOMAIN, 0, 1, .ro, false, false, false⟩,
   ⟨F.wake.WAKE_T_TIME, 8, 4, .ro, false, false, true⟩,
   ⟨F.wake.WAKE_TO_US, 4, 4, .rw, false, false, false⟩]

/-- The fields of page type 0x00B from offset 0x040 on. -/
def fields_tim : List FieldDef :=
  [⟨fun _ => F.tim.TIME_TIME, 0, 1, .ro, false, false, true⟩,
   ⟨fun _ => F.tim.TIME_SET_VALUE, 0, 1, .wo, false, false, true⟩,
   ⟨fun _ => F.tim.FREQ_ADJ_ADJ, 0, 1, .rw, false, false, false⟩]

/-- The fields of page type 0x00C from offset 0x040 on. -/
def fields_servo : List FieldDef :=
  [⟨fun _ => F.servo.SERVO_CTRL_MODE, 0, 1, .rw, false, false, false⟩,
   ⟨fun _ => F.servo.SERVO_CTRL_LOCK_NS, 0, 1, .rw, false, false, false⟩,
   ⟨fun _ => F.servo.SERVO_GAIN_KP, 0, 1, .rw, false, false, false⟩,
   ⟨fun _ => F.servo.SERVO_GAIN_KI, 0, 1, .rw, false, false, false⟩,
   ⟨fun _ => F.servo.SERVO_OFFSET_OFFSET, 0, 1, .wo, false, false, false⟩,
   ⟨fun _ => F.servo.SERVO_STAT_STATE, 0, 1, .ro, false, false, false⟩,
   ⟨fun _ => F.servo.LAST_ERROR_ERROR, 0, 1, .ro, false, false, false⟩,
   ⟨fun _ => F.servo.PPS_CAPT_TIME, 0, 1, .ro, false, false, true⟩,
   ⟨fun _ => F.servo.PPS_OUT_CFG_EN, 0, 1, .rw, false, false, false⟩,
   ⟨fun _ => F.servo.PPS_OUT_CFG_WIDTH_MS, 0, 1, .rw, false, false, false⟩]

/-- The fields of page type 0x00D from offset 0x040 on. -/
def fields_atc : List FieldDef :=
  [⟨fun _ => F.atc.ATC_CMD_OP, 0, 1, .wo, false, false, false⟩,
   ⟨fun _ => F.atc.ATC_CMD_SLOT, 0, 1, .wo, false, false, false⟩,
   ⟨fun _ => F.atc.ATC_CMD_RAISE_FLOOR, 0, 1, .wo, false, false, false⟩,
   ⟨fun _ => F.atc.ATC_SRC_ADDR, 0, 1, .rw, false, false, true⟩,
   ⟨fun _ => F.atc.ATC_SRC_LEN_LENGTH, 0, 1, .rw, false, false, true⟩,
   ⟨fun _ => F.atc.ATC_RESULT_STATUS, 0, 1, .ro, false, false, false⟩,
   ⟨fun _ => F.atc.ATC_RESULT_OP, 0, 1, .ro, false, false, false⟩,
   ⟨fun _ => F.atc.ATC_RESULT_SLOT, 0, 1, .ro, false, false, false⟩,
   ⟨fun _ => F.atc.ATC_RESULT_BUSY, 0, 1, .ro, false, false, false⟩,
   ⟨fun _ => F.atc.ATC_PROGRESS_BYTES, 0, 1, .ro, false, false, true⟩,
   ⟨fun _ => F.atc.ATC_WEAR_MAX_CYCLES, 0, 1, .ro, false, false, false⟩,
   ⟨fun _ => F.atc.ATC_WEAR_BLOCK, 0, 1, .ro, false, false, false⟩,
   ⟨fun _ => F.atc.ATC_INSTALLS_COUNT, 0, 1, .rw, false, true, false⟩,
   ⟨fun _ => F.atc.ATC_READ_FAIL_COUNT, 0, 1, .rw, false, true, false⟩]

/-- The fields of page type 0x00E from offset 0x040 on. -/
def fields_slot : List FieldDef :=
  [⟨F.slot.SL_STAT_ACTIVE, 32, 32, .ro, false, false, false⟩,
   ⟨F.slot.SL_STAT_VALID, 32, 32, .ro, false, false, false⟩,
   ⟨F.slot.SL_STAT_PROGRAMMING, 32, 32, .ro, false, false, false⟩,
   ⟨F.slot.SL_STAT_EMPTY, 32, 32, .ro, false, false, false⟩,
   ⟨F.slot.SL_STAT_KEY_READY, 32, 32, .ro, false, false, false⟩,
   ⟨F.slot.SL_STAT_FLOOR, 32, 32, .ro, false, false, false⟩,
   ⟨F.slot.SL_SEQ_SEQ, 32, 32, .ro, false, false, false⟩,
   ⟨F.slot.SL_SET_A_SET, 32, 32, .ro, false, false, false⟩,
   ⟨F.slot.SL_SET_B_SET, 32, 32, .ro, false, false, false⟩,
   ⟨F.slot.SL_LEN_A_UNITS, 32, 32, .ro, false, false, false⟩,
   ⟨F.slot.SL_LEN_B_UNITS, 32, 32, .ro, false, false, false⟩,
   ⟨F.slot.SL_CFG_REPL_MODE, 32, 32, .rw, false, false, false⟩,
   ⟨F.slot.SL_CFG_SERVICE_MODE, 32, 32, .rw, false, false, false⟩,
   ⟨F.slot.SL_SVC_GEN, 32, 32, .ro, false, false, false⟩,
   ⟨F.slot.SL_SVC_REPLACING, 32, 32, .ro, false, false, false⟩,
   ⟨F.slot.SL_SVC_SVC_FAILED, 32, 32, .ro, false, false, false⟩,
   ⟨F.slot.SL_SVC_PIN0, 32, 32, .ro, false, false, false⟩,
   ⟨F.slot.SL_SVC_PIN1, 32, 32, .ro, false, false, false⟩,
   ⟨F.slot.SL_SVC_FRONT, 32, 32, .ro, false, false, false⟩]

/-- The fields of page type 0x00F from offset 0x040 on. -/
def fields_elog : List FieldDef :=
  [⟨fun _ => F.elog.BOOT_PROGRESS_STAGE, 0, 1, .ro, false, false, false⟩,
   ⟨fun _ => F.elog.BOOT_PROGRESS_FAILED, 0, 1, .ro, false, false, false⟩,
   ⟨fun _ => F.elog.BOOT_PROGRESS_FAIL_STATUS, 0, 1, .ro, false, false, false⟩,
   ⟨fun _ => F.elog.BOOT_PROGRESS_BOOT, 0, 1, .ro, false, false, false⟩,
   ⟨F.elog.BOOT_US_US, 4, 7, .ro, false, false, false⟩,
   ⟨fun _ => F.elog.LOG_HEAD_SEQ, 0, 1, .ro, false, false, false⟩,
   ⟨fun _ => F.elog.LOG_OLDEST_SEQ, 0, 1, .ro, false, false, false⟩,
   ⟨fun _ => F.elog.LOG_READ_SEQ, 0, 1, .rw, false, false, false⟩,
   ⟨fun _ => F.elog.LOG_STAT_READ_VALID, 0, 1, .ro, false, false, false⟩,
   ⟨fun _ => F.elog.LOG_STAT_MISSING, 0, 1, .ro, false, false, false⟩,
   ⟨fun _ => F.elog.LOG_STAT_BUSY, 0, 1, .ro, false, false, false⟩,
   ⟨fun _ => F.elog.LOG_DROPPED_COUNT, 0, 1, .rw, false, true, false⟩,
   ⟨fun _ => F.elog.LOG_WRITES_COUNT, 0, 1, .ro, false, true, true⟩,
   ⟨F.elog.LOG_DATA_ENTRY, 4, 8, .ro, false, false, false⟩,
   ⟨fun _ => F.elog.LOG_RATE_US, 0, 1, .rw, false, false, false⟩,
   ⟨fun _ => F.elog.LOG_ADD_CODE, 0, 1, .wo, false, false, false⟩,
   ⟨fun _ => F.elog.LOG_ADD_STATUS, 0, 1, .wo, false, false, false⟩,
   ⟨fun _ => F.elog.LOG_ADD_DETAIL_DETAIL, 0, 1, .rw, false, false, false⟩]

/-- The fields of page type 0x010 from offset 0x040 on. -/
def fields_tir : List FieldDef :=
  [⟨fun _ => F.tir.TIR_TABLE_ADDR, 0, 1, .rw, true, false, true⟩,
   ⟨fun _ => F.tir.DL_CEL_NS, 0, 1, .rw, false, false, false⟩,
   ⟨fun _ => F.tir.DL_ATC_NS, 0, 1, .rw, false, false, false⟩,
   ⟨fun _ => F.tir.DL_BOX_NS, 0, 1, .rw, false, false, false⟩,
   ⟨fun _ => F.tir.OBJ_LIVE_COUNT, 0, 1, .ro, false, false, false⟩,
   ⟨fun _ => F.tir.XC_HIT_COUNT, 0, 1, .ro, false, true, true⟩,
   ⟨fun _ => F.tir.XC_MISS_COUNT, 0, 1, .ro, false, true, true⟩,
   ⟨fun _ => F.tir.MOVE_BYTES_COUNT, 0, 1, .ro, false, true, true⟩,
   ⟨fun _ => F.tir.LATE_COUNT, 0, 1, .rw, false, true, false⟩,
   ⟨fun _ => F.tir.FAILED_COUNT, 0, 1, .rw, false, true, false⟩,
   ⟨fun _ => F.tir.AUTH_FAIL_COUNT, 0, 1, .rw, false, true, false⟩,
   ⟨fun _ => F.tir.WRITE_REFUSED_COUNT, 0, 1, .rw, false, true, false⟩,
   ⟨fun _ => F.tir.LAST_ERR_ADDR, 0, 1, .ro, false, false, true⟩,
   ⟨fun _ => F.tir.LAST_ERR_STATUS, 0, 1, .ro, false, false, true⟩,
   ⟨fun _ => F.tir.LAST_ERR_TIER, 0, 1, .ro, false, false, true⟩,
   ⟨F.tir.AP_BASE_HOST, 16, 64, .rw, false, false, true⟩,
   ⟨F.tir.AP_PAGES_PAGES, 16, 64, .rw, false, false, false⟩,
   ⟨F.tir.AP_CFG_TENANT, 16, 64, .rw, false, false, false⟩,
   ⟨F.tir.AP_CFG_SEALED, 16, 64, .rw, false, false, false⟩,
   ⟨F.tir.AP_CFG_WRITABLE, 16, 64, .rw, false, false, false⟩,
   ⟨F.tir.AP_CFG_MODULES, 16, 64, .rw, false, false, false⟩,
   ⟨F.tir.AP_CFG_VALID, 16, 64, .rw, false, false, false⟩]

/-- The fields of page type 0x011 from offset 0x040 on. -/
def fields_mq : List FieldDef :=
  [⟨fun _ => F.mq.MQ_BASE_ADDR, 0, 1, .rw, true, false, true⟩,
   ⟨fun _ => F.mq.MQ_CFG_LOG2, 0, 1, .rw, true, false, false⟩,
   ⟨fun _ => F.mq.MQ_TAIL_TAIL, 0, 1, .rw, false, false, false⟩,
   ⟨fun _ => F.mq.MQ_HEAD_HEAD, 0, 1, .ro, false, false, false⟩,
   ⟨fun _ => F.mq.CQ_BASE_ADDR, 0, 1, .rw, true, false, true⟩,
   ⟨fun _ => F.mq.CQ_CFG_LOG2, 0, 1, .rw, true, false, false⟩,
   ⟨fun _ => F.mq.CQ_HEAD_HEAD, 0, 1, .ro, false, false, false⟩,
   ⟨fun _ => F.mq.CQ_TAIL_TAIL, 0, 1, .rw, false, false, false⟩,
   ⟨fun _ => F.mq.MQ_STAT_MIGRATING, 0, 1, .ro, false, false, false⟩,
   ⟨fun _ => F.mq.MQ_STAT_STALLED, 0, 1, .ro, false, false, false⟩,
   ⟨fun _ => F.mq.MQ_STAT_FSTALLED, 0, 1, .ro, false, false, false⟩,
   ⟨fun _ => F.mq.FQ_BASE_ADDR, 0, 1, .rw, true, false, true⟩,
   ⟨fun _ => F.mq.FQ_CFG_LOG2, 0, 1, .rw, true, false, false⟩,
   ⟨fun _ => F.mq.FQ_TAIL_TAIL, 0, 1, .rw, false, false, false⟩,
   ⟨fun _ => F.mq.FQ_HEAD_HEAD, 0, 1, .ro, false, false, false⟩,
   ⟨fun _ => F.mq.FCQ_BASE_ADDR, 0, 1, .rw, true, false, true⟩,
   ⟨fun _ => F.mq.FCQ_CFG_LOG2, 0, 1, .rw, true, false, false⟩,
   ⟨fun _ => F.mq.FCQ_HEAD_HEAD, 0, 1, .ro, false, false, false⟩,
   ⟨fun _ => F.mq.FCQ_TAIL_TAIL, 0, 1, .rw, false, false, false⟩]

/-- The fields of page type 0x012 from offset 0x040 on. -/
def fields_mgt : List FieldDef :=
  [⟨fun _ => F.mgt.MGT_CFG_SPEED, 0, 1, .rw, true, false, false⟩,
   ⟨fun _ => F.mgt.MGT_CFG_FULL_DUPLEX, 0, 1, .rw, true, false, false⟩,
   ⟨fun _ => F.mgt.MGT_MAC_MAC, 0, 1, .ro, false, false, true⟩,
   ⟨fun _ => F.mgt.MDIO_CMD_REG, 0, 1, .wo, false, false, false⟩,
   ⟨fun _ => F.mgt.MDIO_CMD_PHYAD, 0, 1, .wo, false, false, false⟩,
   ⟨fun _ => F.mgt.MDIO_CMD_WRITE, 0, 1, .wo, false, false, false⟩,
   ⟨fun _ => F.mgt.MDIO_DATA_DATA, 0, 1, .rw, false, false, false⟩,
   ⟨fun _ => F.mgt.MDIO_DATA_BUSY, 0, 1, .ro, false, false, false⟩,
   ⟨fun _ => F.mgt.TX_FRAMES_COUNT, 0, 1, .rw, false, true, false⟩,
   ⟨fun _ => F.mgt.RX_FRAMES_COUNT, 0, 1, .rw, false, true, false⟩,
   ⟨fun _ => F.mgt.RX_FCS_ERR_COUNT, 0, 1, .rw, false, true, false⟩,
   ⟨fun _ => F.mgt.RX_NO_ENTRY_COUNT, 0, 1, .rw, false, true, false⟩,
   ⟨fun _ => F.mgt.COLLISIONS_COUNT, 0, 1, .rw, false, true, false⟩,
   ⟨fun _ => F.mgt.LATE_COLL_COUNT, 0, 1, .rw, false, true, false⟩,
   ⟨fun _ => F.mgt.EXCESS_COLL_COUNT, 0, 1, .rw, false, true, false⟩,
   ⟨fun _ => F.mgt.DEFERRED_COUNT, 0, 1, .rw, false, true, false⟩,
   ⟨fun _ => F.mgt.RXQ_BASE_ADDR, 0, 1, .rw, true, false, true⟩,
   ⟨fun _ => F.mgt.RXQ_CFG_LOG2, 0, 1, .rw, true, false, false⟩,
   ⟨fun _ => F.mgt.RXQ_HEAD_HEAD, 0, 1, .ro, false, false, false⟩,
   ⟨fun _ => F.mgt.RXQ_TAIL_TAIL, 0, 1, .rw, false, false, false⟩,
   ⟨fun _ => F.mgt.TXQ_BASE_ADDR, 0, 1, .rw, true, false, true⟩,
   ⟨fun _ => F.mgt.TXQ_CFG_LOG2, 0, 1, .rw, true, false, false⟩,
   ⟨fun _ => F.mgt.TXQ_TAIL_TAIL, 0, 1, .rw, false, false, false⟩,
   ⟨fun _ => F.mgt.TXQ_HEAD_HEAD, 0, 1, .ro, false, false, false⟩]

/-- The fields of page type 0x013 from offset 0x040 on. -/
def fields_xpt : List FieldDef :=
  [⟨fun _ => F.xpt.XPT_CFG_UDP_PORT, 0, 1, .rw, true, false, false⟩,
   ⟨fun _ => F.xpt.XPT_CFG_ADDR_VALID, 0, 1, .rw, true, false, false⟩,
   ⟨fun _ => F.xpt.WQ_DOORBELL_QUEUE, 0, 1, .wo, false, false, false⟩,
   ⟨fun _ => F.xpt.WQ_DOORBELL_TAIL, 0, 1, .wo, false, false, false⟩,
   ⟨fun _ => F.xpt.Q_SEL_QUEUE, 0, 1, .rw, false, false, false⟩,
   ⟨fun _ => F.xpt.Q_CTRL_ENABLE, 0, 1, .rw, false, false, false⟩,
   ⟨fun _ => F.xpt.Q_CTRL_ABORT, 0, 1, .wo, false, false, false⟩,
   ⟨fun _ => F.xpt.Q_CTRL_TENANT, 0, 1, .rw, false, false, false⟩,
   ⟨fun _ => F.xpt.Q_CTRL_WQ_LOG2, 0, 1, .rw, false, false, false⟩,
   ⟨fun _ => F.xpt.Q_CTRL_CQ_LOG2, 0, 1, .rw, false, false, false⟩,
   ⟨fun _ => F.xpt.Q_WQ_BASE_ADDR, 0, 1, .rw, false, false, true⟩,
   ⟨fun _ => F.xpt.Q_CQ_BASE_ADDR, 0, 1, .rw, false, false, true⟩,
   ⟨fun _ => F.xpt.Q_STAT_HEAD, 0, 1, .ro, false, false, false⟩,
   ⟨fun _ => F.xpt.Q_STAT_CQ_HEAD, 0, 1, .ro, false, false, false⟩,
   ⟨fun _ => F.xpt.Q_STAT_STARTED, 0, 1, .ro, false, false, false⟩,
   ⟨fun _ => F.xpt.Q_STAT_WAITING, 0, 1, .ro, false, false, false⟩,
   ⟨fun _ => F.xpt.Q_CQ_TAIL_TAIL, 0, 1, .rw, false, false, false⟩,
   ⟨fun _ => F.xpt.Q_COMP_COMP, 0, 1, .ro, false, false, false⟩,
   ⟨fun _ => F.xpt.TX_PAYLOAD_COUNT, 0, 1, .ro, false, true, true⟩,
   ⟨fun _ => F.xpt.RX_PAYLOAD_COUNT, 0, 1, .ro, false, true, true⟩,
   ⟨fun _ => F.xpt.RX_NO_CONN_COUNT, 0, 1, .rw, false, true, false⟩,
   ⟨fun _ => F.xpt.RX_CLOSED_COUNT, 0, 1, .rw, false, true, false⟩,
   ⟨fun _ => F.xpt.RX_RETIRED_GEN_COUNT, 0, 1, .rw, false, true, false⟩,
   ⟨fun _ => F.xpt.RX_AUTH_FAIL_COUNT, 0, 1, .rw, false, true, false⟩,
   ⟨fun _ => F.xpt.RX_REPLAY_COUNT, 0, 1, .rw, false, true, false⟩,
   ⟨fun _ => F.xpt.RX_NO_TRACKER_COUNT, 0, 1, .rw, false, true, false⟩,
   ⟨fun _ => F.xpt.RX_DUP_COUNT, 0, 1, .rw, false, true, false⟩,
   ⟨fun _ => F.xpt.RX_FORMAT_COUNT, 0, 1, .rw, false, true, false⟩,
   ⟨fun _ => F.xpt.RETRANSMITS_COUNT, 0, 1, .rw, false, true, false⟩,
   ⟨fun _ => F.xpt.TIMEOUTS_COUNT, 0, 1, .rw, false, true, false⟩,
   ⟨fun _ => F.xpt.NACK_SENT_COUNT, 0, 1, .rw, false, true, false⟩,
   ⟨fun _ => F.xpt.NACK_RECEIVED_COUNT, 0, 1, .rw, false, true, false⟩,
   ⟨fun _ => F.xpt.TRACKERS_REQ, 0, 1, .ro, false, false, false⟩,
   ⟨fun _ => F.xpt.TRACKERS_RESP, 0, 1, .ro, false, false, false⟩,
   ⟨F.xpt.ADDR_LO_IP, 16, 8, .rw, true, false, true⟩,
   ⟨F.xpt.ADDR_HI_IP, 16, 8, .rw, true, false, true⟩]

/-- The fields of page type 0x014 from offset 0x040 on. -/
def fields_cong : List FieldDef :=
  [⟨F.cong.CC_TARGET_NS_TARGET_NS, 32, 16, .rw, false, false, false⟩,
   ⟨F.cong.CC_CWND_INIT_CWND_INIT, 32, 16, .rw, false, false, false⟩,
   ⟨F.cong.CC_CWND_MIN_CWND_MIN, 32, 16, .rw, false, false, false⟩,
   ⟨F.cong.CC_CWND_MAX_CWND_MAX, 32, 16, .rw, false, false, false⟩,
   ⟨F.cong.CC_AI_BYTES_AI_BYTES, 32, 16, .rw, false, false, false⟩,
   ⟨F.cong.CC_BETA_BETA, 32, 16, .rw, false, false, false⟩,
   ⟨F.cong.CC_MD_MAX_MD_MAX, 32, 16, .rw, false, false, false⟩,
   ⟨F.cong.CC_EWMA_SHIFT_EWMA_SHIFT, 32, 16, .rw, false, false, false⟩,
   ⟨F.cong.CC_RTO_NS_RTO_NS, 32, 16, .rw, false, false, false⟩,
   ⟨F.cong.CC_RETRIES_RETRIES, 32, 16, .rw, false, false, false⟩,
   ⟨F.cong.CC_ACK_DELAY_NS_ACK_DELAY_NS, 32, 16, .rw, false, false, false⟩]

/-- The fields of page type 0x015 from offset 0x040 on. -/
def fields_ctx : List FieldDef :=
  [⟨fun _ => F.ctx.CTX_TABLE_ADDR, 0, 1, .rw, true, false, true⟩,
   ⟨fun _ => F.ctx.CTX_CMD_CONN, 0, 1, .wo, false, false, false⟩,
   ⟨fun _ => F.ctx.CTX_CMD_CMD, 0, 1, .wo, false, false, false⟩,
   ⟨fun _ => F.ctx.CTX_RESULT_STATUS, 0, 1, .ro, false, false, false⟩,
   ⟨fun _ => F.ctx.CTX_RESULT_BUSY, 0, 1, .ro, false, false, false⟩,
   ⟨fun _ => F.ctx.CTX_SRC_ADDR, 0, 1, .rw, false, false, true⟩,
   ⟨fun _ => F.ctx.MISS_TIMEOUT_NS, 0, 1, .rw, false, false, false⟩,
   ⟨fun _ => F.ctx.RESIDENT_COUNT, 0, 1, .ro, false, false, false⟩,
   ⟨fun _ => F.ctx.PINNED_COUNT, 0, 1, .ro, false, false, false⟩,
   ⟨fun _ => F.ctx.MISS_BYTES_BYTES, 0, 1, .ro, false, false, false⟩,
   ⟨fun _ => F.ctx.FETCHES_COUNT, 0, 1, .ro, false, true, true⟩,
   ⟨fun _ => F.ctx.EVICTIONS_COUNT, 0, 1, .ro, false, true, true⟩,
   ⟨fun _ => F.ctx.MISS_DROPS_COUNT, 0, 1, .rw, false, true, false⟩,
   ⟨fun _ => F.ctx.MISS_TIMEOUTS_COUNT, 0, 1, .rw, false, true, false⟩,
   ⟨fun _ => F.ctx.FETCH_FAIL_COUNT, 0, 1, .rw, false, true, false⟩,
   ⟨fun _ => F.ctx.FETCH_NS_MAX_NS, 0, 1, .rw, false, false, false⟩]

/-- The fields of page type 0x016 from offset 0x040 on. -/
def fields_win : List FieldDef :=
  [⟨fun _ => F.win.WIN_CMD_INDEX, 0, 1, .wo, false, false, false⟩,
   ⟨fun _ => F.win.WIN_CMD_CMD, 0, 1, .wo, false, false, false⟩,
   ⟨fun _ => F.win.WIN_RESULT_STATUS, 0, 1, .ro, false, false, false⟩,
   ⟨fun _ => F.win.WIN_RESULT_BUSY, 0, 1, .ro, false, false, false⟩,
   ⟨fun _ => F.win.WIN_SRC_ADDR, 0, 1, .rw, false, false, true⟩,
   ⟨fun _ => F.win.OPEN_WINDOWS_COUNT, 0, 1, .ro, false, false, false⟩,
   ⟨fun _ => F.win.VIOLATIONS_COUNT, 0, 1, .rw, false, true, false⟩,
   ⟨fun _ => F.win.VIOL_HEAD_HEAD, 0, 1, .ro, false, false, false⟩,
   ⟨F.win.VIOL_TIME, 32, 16, .ro, false, false, true⟩,
   ⟨F.win.VIOL_CONN_CONN, 32, 16, .ro, false, false, false⟩,
   ⟨F.win.VIOL_INC_INC, 32, 16, .ro, false, false, false⟩,
   ⟨F.win.VIOL_WINDOW_WINDOW, 32, 16, .ro, false, false, false⟩,
   ⟨F.win.VIOL_GEN_GEN, 32, 16, .ro, false, false, false⟩,
   ⟨F.win.VIOL_OFFSET_OFFSET, 32, 16, .ro, false, false, true⟩,
   ⟨F.win.VIOL_STATUS_STATUS, 32, 16, .ro, false, false, false⟩,
   ⟨F.win.VIOL_TYPE_TYPE, 32, 16, .ro, false, false, false⟩,
   ⟨F.win.VIOL_MSG_ID_MSG_ID, 32, 16, .ro, false, false, false⟩]

/-- The fields of page type 0x017 from offset 0x040 on. -/
def fields_cel : List FieldDef :=
  [⟨fun _ => F.cel.CEL_STAT_TRAINED, 0, 1, .ro, false, false, false⟩,
   ⟨fun _ => F.cel.CEL_STAT_SELF_REFRESH, 0, 1, .ro, false, false, false⟩,
   ⟨fun _ => F.cel.CEL_STAT_GIB, 0, 1, .ro, false, false, false⟩,
   ⟨fun _ => F.cel.RD_BYTES_COUNT, 0, 1, .ro, false, true, true⟩,
   ⟨fun _ => F.cel.WR_BYTES_COUNT, 0, 1, .ro, false, true, true⟩,
   ⟨fun _ => F.cel.TAG_BYTES_COUNT, 0, 1, .ro, false, true, true⟩,
   ⟨fun _ => F.cel.ECC_CORR_COUNT, 0, 1, .rw, false, true, false⟩,
   ⟨fun _ => F.cel.ECC_FAIL_COUNT, 0, 1, .rw, false, true, false⟩,
   ⟨fun _ => F.cel.AUTH_FAIL_COUNT, 0, 1, .rw, false, true, false⟩,
   ⟨fun _ => F.cel.RMW_COUNT, 0, 1, .rw, false, true, false⟩,
   ⟨fun _ => F.cel.FAIL_ADDR_OFFSET, 0, 1, .ro, false, false, true⟩,
   ⟨fun _ => F.cel.FAIL_ADDR_VALID, 0, 1, .rw1c, false, false, true⟩]

/-- The fields of page type 0x018 from offset 0x040 on. -/
def fields_rgn : List FieldDef :=
  [⟨F.rgn.RG_SPAN_BASE, 16, 64, .rw, false, false, false⟩,
   ⟨F.rgn.RG_SPAN_LIMIT, 16, 64, .rw, false, false, false⟩,
   ⟨F.rgn.RG_CFG_KEY, 16, 64, .rw, false, false, false⟩,
   ⟨F.rgn.RG_CFG_PROTECT, 16, 64, .rw, false, false, false⟩,
   ⟨F.rgn.RG_CFG_VALID, 16, 64, .rw, false, false, false⟩,
   ⟨F.rgn.RG_USE_OBJECTS, 16, 64, .ro, false, false, false⟩]

/-- The fields of page type 0x019 from offset 0x040 on. -/
def fields_eth : List FieldDef :=
  [⟨fun _ => F.eth.PORT_CFG_MODE, 0, 1, .rw, true, false, false⟩,
   ⟨fun _ => F.eth.PORT_CFG_WIDTH, 0, 1, .rw, true, false, false⟩,
   ⟨fun _ => F.eth.PORT_CFG_SHED_EN, 0, 1, .rw, false, false, false⟩,
   ⟨fun _ => F.eth.PORT_CFG_LPI_EN, 0, 1, .rw, false, false, false⟩,
   ⟨fun _ => F.eth.PORT_CFG_MAX_PAYLOAD, 0, 1, .rw, true, false, false⟩,
   ⟨fun _ => F.eth.PORT_STAT_LINK_UP, 0, 1, .ro, false, false, false⟩,
   ⟨fun _ => F.eth.PORT_STAT_CUR_WIDTH, 0, 1, .ro, false, false, false⟩,
   ⟨fun _ => F.eth.PORT_STAT_PARTNER_KNQ, 0, 1, .ro, false, false, false⟩,
   ⟨fun _ => F.eth.PORT_STAT_LPI, 0, 1, .ro, false, false, false⟩,
   ⟨fun _ => F.eth.PORT_STAT_SHED_PENDING, 0, 1, .ro, false, false, false⟩,
   ⟨fun _ => F.eth.PORT_MAC_MAC, 0, 1, .ro, false, false, true⟩,
   ⟨fun _ => F.eth.CTL_ETHERTYPE_TYPE, 0, 1, .rw, true, false, false⟩,
   ⟨fun _ => F.eth.SHED_CTRL_TARGET, 0, 1, .rw, false, false, false⟩,
   ⟨fun _ => F.eth.TS_LAT_TX_LAT, 0, 1, .ro, false, false, false⟩,
   ⟨fun _ => F.eth.TS_LAT_RX_LAT, 0, 1, .ro, false, false, false⟩,
   ⟨fun _ => F.eth.LPI_CFG_IDLE_NS, 0, 1, .rw, false, false, false⟩,
   ⟨fun _ => F.eth.LPI_CFG_WAKE_NS, 0, 1, .rw, false, false, false⟩,
   ⟨F.eth.MCAST_ADDR, 8, 4, .rw, false, false, true⟩,
   ⟨F.eth.MCAST_VALID, 8, 4, .rw, false, false, true⟩,
   ⟨fun _ => F.eth.RXQ_BASE_ADDR, 0, 1, .rw, true, false, true⟩,
   ⟨fun _ => F.eth.RXQ_CFG_LOG2, 0, 1, .rw, true, false, false⟩,
   ⟨fun _ => F.eth.RXQ_HEAD_HEAD, 0, 1, .ro, false, false, false⟩,
   ⟨fun _ => F.eth.RXQ_TAIL_TAIL, 0, 1, .rw, false, false, false⟩,
   ⟨fun _ => F.eth.TXQ_BASE_ADDR, 0, 1, .rw, true, false, true⟩,
   ⟨fun _ => F.eth.TXQ_CFG_LOG2, 0, 1, .rw, true, false, false⟩,
   ⟨fun _ => F.eth.TXQ_TAIL_TAIL, 0, 1, .rw, false, false, false⟩,
   ⟨fun _ => F.eth.TXQ_HEAD_HEAD, 0, 1, .ro, false, false, false⟩,
   ⟨fun _ => F.eth.TX_FRAMES_COUNT, 0, 1, .ro, false, true, true⟩,
   ⟨fun _ => F.eth.TX_BYTES_COUNT, 0, 1, .ro, false, true, true⟩,
   ⟨fun _ => F.eth.RX_FRAMES_COUNT, 0, 1, .ro, false, true, true⟩,
   ⟨fun _ => F.eth.RX_BYTES_COUNT, 0, 1, .ro, false, true, true⟩,
   ⟨fun _ => F.eth.FEC_CORR_COUNT, 0, 1, .ro, false, true, true⟩,
   ⟨fun _ => F.eth.FEC_UNCORR_COUNT, 0, 1, .ro, false, true, true⟩,
   ⟨fun _ => F.eth.LPI_NS_COUNT, 0, 1, .ro, false, true, true⟩,
   ⟨F.eth.TXC_COUNT, 8, 8, .ro, false, true, true⟩,
   ⟨fun _ => F.eth.RX_FCS_ERR_COUNT, 0, 1, .rw, false, true, false⟩,
   ⟨fun _ => F.eth.RX_RUNT_COUNT, 0, 1, .rw, false, true, false⟩,
   ⟨fun _ => F.eth.RX_TRUNC_COUNT, 0, 1, .rw, false, true, false⟩,
   ⟨fun _ => F.eth.RX_FILTERED_COUNT, 0, 1, .rw, false, true, false⟩,
   ⟨fun _ => F.eth.RX_PAUSE_COUNT, 0, 1, .rw, false, true, false⟩] ++
  [⟨fun _ => F.eth.RX_NO_ENTRY_COUNT, 0, 1, .rw, false, true, false⟩,
   ⟨fun _ => F.eth.TX_OVERSIZE_COUNT, 0, 1, .rw, false, true, false⟩,
   ⟨fun _ => F.eth.TX_DISCARD_LINKDOWN_COUNT, 0, 1, .rw, false, true, false⟩,
   ⟨fun _ => F.eth.LINK_DOWNS_COUNT, 0, 1, .rw, false, true, false⟩,
   ⟨fun _ => F.eth.SHED_DONE_COUNT, 0, 1, .rw, false, true, false⟩,
   ⟨fun _ => F.eth.SHED_NAK_COUNT, 0, 1, .rw, false, true, false⟩,
   ⟨fun _ => F.eth.SHED_FAIL_COUNT, 0, 1, .rw, false, true, false⟩,
   ⟨fun _ => F.eth.CTL_BAD_COUNT, 0, 1, .rw, false, true, false⟩,
   ⟨fun _ => F.eth.TWIN_CFG_PORTS, 0, 1, .ro, false, false, false⟩,
   ⟨fun _ => F.eth.TWIN_CFG_SECONDARY, 0, 1, .ro, false, false, false⟩,
   ⟨fun _ => F.eth.TWIN_CMD_CMD, 0, 1, .wo, false, false, false⟩,
   ⟨fun _ => F.eth.TWIN_HEALTH_FAILED, 0, 1, .rw, false, false, false⟩,
   ⟨fun _ => F.eth.TWIN_STAT_STATE, 0, 1, .ro, false, false, false⟩,
   ⟨fun _ => F.eth.TWIN_STAT_SILENT, 0, 1, .ro, false, false, false⟩,
   ⟨fun _ => F.eth.TWIN_STAT_LINK_LOST, 0, 1, .ro, false, false, false⟩,
   ⟨fun _ => F.eth.TWIN_EPOCH_EPOCH, 0, 1, .ro, false, false, false⟩,
   ⟨fun _ => F.eth.HB_INTERVAL_US, 0, 1, .rw, false, false, false⟩,
   ⟨fun _ => F.eth.LOSS_TIME_US, 0, 1, .rw, false, false, false⟩,
   ⟨fun _ => F.eth.FENCE_AFTER_US, 0, 1, .rw, false, false, false⟩,
   ⟨fun _ => F.eth.PROMOTE_AFTER_US, 0, 1, .rw, false, false, false⟩,
   ⟨fun _ => F.eth.DECLINED_COUNT, 0, 1, .rw, false, true, false⟩,
   ⟨fun _ => F.eth.LAST_HB_TIME, 0, 1, .ro, false, false, true⟩]

/-- The fields of page type 0x01A from offset 0x040 on. -/
def fields_gl : List FieldDef :=
  [⟨fun _ => F.gl.GL_CTRL_GATE_EN, 0, 1, .rw, false, false, false⟩,
   ⟨fun _ => F.gl.GL_CMD_LOAD, 0, 1, .wo, false, false, false⟩,
   ⟨fun _ => F.gl.GL_CMD_CANCEL, 0, 1, .wo, false, false, false⟩,
   ⟨fun _ => F.gl.GL_ADDR_ADDR, 0, 1, .rw, false, false, true⟩,
   ⟨fun _ => F.gl.GL_LEN_ENTRIES, 0, 1, .rw, false, false, false⟩,
   ⟨fun _ => F.gl.GL_CYCLE_NS, 0, 1, .rw, false, false, false⟩,
   ⟨fun _ => F.gl.GL_BASE_TIME_TIME, 0, 1, .rw, false, false, true⟩,
   ⟨fun _ => F.gl.GL_STAT_LOAD_STATUS, 0, 1, .ro, false, false, false⟩,
   ⟨fun _ => F.gl.GL_STAT_PENDING, 0, 1, .ro, false, false, false⟩,
   ⟨fun _ => F.gl.GL_STAT_OPER_VALID, 0, 1, .ro, false, false, false⟩,
   ⟨fun _ => F.gl.GL_STAT_ITEM, 0, 1, .ro, false, false, false⟩,
   ⟨fun _ => F.gl.GL_CHANGE_TIME, 0, 1, .ro, false, false, true⟩,
   ⟨fun _ => F.gl.GL_POS_ENTRY, 0, 1, .ro, false, false, false⟩,
   ⟨fun _ => F.gl.GL_POS_GATES, 0, 1, .ro, false, false, false⟩,
   ⟨fun _ => F.gl.GL_CYCLES_COUNT, 0, 1, .ro, false, true, true⟩,
   ⟨fun _ => F.gl.GL_HELD_COUNT, 0, 1, .ro, false, true, true⟩]

/-- The fields of page type 0x01B from offset 0x040 on. -/
def fields_ms : List FieldDef :=
  [⟨fun _ => F.ms.MS_CTRL_ENABLE, 0, 1, .rw, true, false, false⟩,
   ⟨fun _ => F.ms.MS_CTRL_PTP_CLEAR, 0, 1, .rw, false, false, false⟩,
   ⟨fun _ => F.ms.MS_CTRL_TX_AN, 0, 1, .rw, false, false, false⟩,
   ⟨fun _ => F.ms.MS_TX_SCI_SCI, 0, 1, .ro, false, false, true⟩,
   ⟨fun _ => F.ms.MS_RX_SCI_SCI, 0, 1, .rw, true, false, true⟩,
   ⟨fun _ => F.ms.MS_REPLAY_WINDOW, 0, 1, .rw, false, false, false⟩,
   ⟨F.ms.MS_SA_TX_VALID, 4, 4, .ro, false, false, false⟩,
   ⟨F.ms.MS_SA_RX_VALID, 4, 4, .ro, false, false, false⟩,
   ⟨F.ms.MS_TX_PN_PN, 8, 4, .ro, false, false, true⟩,
   ⟨fun _ => F.ms.MS_IN_NOT_VALID_COUNT, 0, 1, .rw, false, true, false⟩,
   ⟨fun _ => F.ms.MS_IN_LATE_COUNT, 0, 1, .rw, false, true, false⟩,
   ⟨fun _ => F.ms.MS_IN_NO_SA_COUNT, 0, 1, .rw, false, true, false⟩,
   ⟨fun _ => F.ms.MS_IN_UNTAGGED_COUNT, 0, 1, .rw, false, true, false⟩,
   ⟨fun _ => F.ms.MS_IN_OK_COUNT, 0, 1, .ro, false, true, true⟩,
   ⟨fun _ => F.ms.MS_OUT_PROT_COUNT, 0, 1, .ro, false, true, true⟩]

/-- The fields of page type 0x01C from offset 0x040 on. -/
def fields_agt : List FieldDef :=
  [⟨fun _ => F.agt.AGT_CMD_LOAD, 0, 1, .wo, false, false, false⟩,
   ⟨fun _ => F.agt.AGT_CMD_START, 0, 1, .wo, false, false, false⟩,
   ⟨fun _ => F.agt.AGT_CMD_STOP, 0, 1, .wo, false, false, false⟩,
   ⟨fun _ => F.agt.AGT_CMD_ABORT, 0, 1, .wo, false, false, false⟩,
   ⟨fun _ => F.agt.AGT_STAT_STATE, 0, 1, .ro, false, false, false⟩,
   ⟨fun _ => F.agt.AGT_STAT_END_STATUS, 0, 1, .ro, false, false, false⟩,
   ⟨fun _ => F.agt.AGT_STAT_SEGMENT, 0, 1, .ro, false, false, false⟩,
   ⟨fun _ => F.agt.IMAGE_ADDR_ADDR, 0, 1, .rw, false, false, true⟩,
   ⟨fun _ => F.agt.LOAD_STAT_STATUS, 0, 1, .ro, false, false, true⟩,
   ⟨fun _ => F.agt.LOAD_STAT_SECTION, 0, 1, .ro, false, false, true⟩,
   ⟨fun _ => F.agt.LOAD_STAT_ITEM, 0, 1, .ro, false, false, true⟩,
   ⟨fun _ => F.agt.START_SEG_SEG, 0, 1, .rw, false, false, false⟩,
   ⟨fun _ => F.agt.DEC_TIMEOUT_NS, 0, 1, .rw, false, false, false⟩,
   ⟨fun _ => F.agt.START_TIME_TIME, 0, 1, .rw, false, false, true⟩,
   ⟨fun _ => F.agt.WATCH_NS, 0, 1, .rw, false, false, false⟩,
   ⟨fun _ => F.agt.ITER_COUNT, 0, 1, .ro, false, false, false⟩,
   ⟨fun _ => F.agt.BEATS_FIRED_COUNT, 0, 1, .ro, false, true, true⟩,
   ⟨fun _ => F.agt.LATE_BEATS_COUNT, 0, 1, .ro, false, true, true⟩,
   ⟨fun _ => F.agt.SPEC_FIRED_COUNT, 0, 1, .rw, false, true, false⟩,
   ⟨fun _ => F.agt.SPEC_SQUASHED_COUNT, 0, 1, .rw, false, true, false⟩,
   ⟨fun _ => F.agt.STORE_CORR_COUNT, 0, 1, .rw, false, true, false⟩]

/-- The fields of page type 0x01D from offset 0x040 on. -/
def fields_late : List FieldDef :=
  [⟨fun _ => F.late.LATE_CTRL_LATE_MIN, 0, 1, .rw, false, false, false⟩,
   ⟨fun _ => F.late.LATE_CTRL_RING_EN, 0, 1, .rw, false, false, false⟩,
   ⟨fun _ => F.late.RING_BASE_ADDR, 0, 1, .rw, true, false, true⟩,
   ⟨fun _ => F.late.RING_SIZE_LOG2, 0, 1, .rw, false, false, false⟩,
   ⟨fun _ => F.late.RING_HEAD_HEAD, 0, 1, .ro, false, false, false⟩,
   ⟨fun _ => F.late.RING_TAIL_TAIL, 0, 1, .rw, false, false, false⟩,
   ⟨fun _ => F.late.DROPPED_COUNT, 0, 1, .rw, false, true, false⟩,
   ⟨F.late.LAST_RECORD, 4, 8, .ro, false, false, false⟩]

/-- The fields of page type 0x01E from offset 0x040 on. -/
def fields_tal : List FieldDef :=
  [⟨fun _ => F.tal.TALLY_ADD_INDEX, 0, 1, .wo, false, false, false⟩,
   ⟨fun _ => F.tal.TALLY_ADD_AMOUNT, 0, 1, .wo, false, false, false⟩,
   ⟨F.tal.COUNT_COUNT, 8, 256, .rw, false, false, false⟩,
   ⟨F.tal.SRC_LAST_SRC, 8, 256, .ro, false, false, false⟩]

/-- The fields of page type 0x01F from offset 0x040 on. -/
def fields_ccr : List FieldDef :=
  [⟨fun _ => F.ccr.CORE_STAT_RUNNING, 0, 1, .ro, false, false, false⟩,
   ⟨fun _ => F.ccr.CORE_STAT_WD_WARNED, 0, 1, .ro, false, false, false⟩,
   ⟨fun _ => F.ccr.WD_CFG_MS, 0, 1, .rw, false, false, false⟩,
   ⟨fun _ => F.ccr.WD_KICK_CORE, 0, 1, .wo, false, false, false⟩,
   ⟨fun _ => F.ccr.WD_EXPIRIES_COUNT, 0, 1, .rw, false, true, false⟩,
   ⟨fun _ => F.ccr.FAULT_STAT_DIE_FAULT, 0, 1, .ro, false, false, false⟩,
   ⟨fun _ => F.ccr.FAULT_STAT_FATAL, 0, 1, .ro, false, false, false⟩,
   ⟨fun _ => F.ccr.FAULT_STAT_FATAL_CAUSE, 0, 1, .ro, false, false, false⟩,
   ⟨fun _ => F.ccr.FAULT_STAT_RECENT, 0, 1, .ro, false, false, false⟩,
   ⟨fun _ => F.ccr.DIE_FAULTS_COUNT, 0, 1, .rw, false, true, false⟩,
   ⟨fun _ => F.ccr.SITE_CMD_OP, 0, 1, .wo, false, false, false⟩,
   ⟨fun _ => F.ccr.SITE_CMD_PHYS, 0, 1, .wo, false, false, false⟩,
   ⟨fun _ => F.ccr.SITE_CMD_PERSIST, 0, 1, .wo, false, false, false⟩,
   ⟨fun _ => F.ccr.SITE_SRC_ADDR, 0, 1, .rw, false, false, true⟩,
   ⟨fun _ => F.ccr.SITE_RESULT_STATUS, 0, 1, .ro, false, false, false⟩,
   ⟨fun _ => F.ccr.SITE_RESULT_BUSY, 0, 1, .ro, false, false, false⟩]

/-- The fields of page type 0x020 from offset 0x040 on. -/
def fields_dp : List FieldDef :=
  [⟨fun _ => F.dp.DEC_LAST_DPOINT, 0, 1, .ro, false, false, false⟩,
   ⟨fun _ => F.dp.DEC_LAST_SUCC, 0, 1, .ro, false, false, false⟩,
   ⟨fun _ => F.dp.DEC_LAST_PREDICTED, 0, 1, .ro, false, false, false⟩,
   ⟨fun _ => F.dp.DEC_TIME_TIME, 0, 1, .ro, false, false, true⟩,
   ⟨fun _ => F.dp.DEC_LAT_MAX_NS, 0, 1, .rw, false, false, false⟩,
   ⟨fun _ => F.dp.DECISIONS_COUNT, 0, 1, .rw, false, true, false⟩,
   ⟨F.dp.SLOT_CFG_EXPECT, 32, 64, .rw, false, false, false⟩,
   ⟨F.dp.SLOT_CFG_TAG, 32, 64, .rw, false, false, false⟩,
   ⟨F.dp.SLOT_CFG_MODE, 32, 64, .rw, false, false, false⟩,
   ⟨F.dp.SLOT_CTRL_ARM, 32, 64, .wo, false, false, false⟩,
   ⟨F.dp.SLOT_STAT_COUNT, 32, 64, .ro, false, false, false⟩,
   ⟨F.dp.SLOT_STAT_COMPLETE, 32, 64, .ro, false, false, false⟩,
   ⟨F.dp.SLOT_STAT_DUPLICATE, 32, 64, .rw, false, false, false⟩,
   ⟨F.dp.SLOT_STAT_TAG_MISMATCH, 32, 64, .rw, false, false, false⟩,
   ⟨F.dp.SLOT_OVR_OVERRUN, 32, 64, .rw, false, false, false⟩,
   ⟨F.dp.SLOT_W0_RESULT, 32, 64, .ro, false, false, false⟩,
   ⟨F.dp.SLOT_W1_RESULT, 32, 64, .ro, false, false, false⟩,
   ⟨F.dp.SLOT_W2_RESULT, 32, 64, .ro, false, false, false⟩,
   ⟨F.dp.SLOT_W3_RESULT, 32, 64, .ro, false, false, false⟩]

/-- The fields of page type 0x021 from offset 0x040 on. -/
def fields_col : List FieldDef :=
  [⟨fun _ => F.col.SAT_ELEM_INDEX, 0, 1, .ro, false, false, true⟩,
   ⟨fun _ => F.col.COL_CFG_ETHERTYPE, 0, 1, .rw, true, false, false⟩,
   ⟨fun _ => F.col.COL_CFG_ACK_DELAY, 0, 1, .rw, false, false, false⟩,
   ⟨fun _ => F.col.RTO_NS, 0, 1, .rw, false, false, false⟩,
   ⟨fun _ => F.col.RETRIES_COUNT, 0, 1, .rw, false, false, false⟩,
   ⟨fun _ => F.col.COL_STAT_OPS, 0, 1, .ro, false, false, false⟩,
   ⟨fun _ => F.col.COL_STAT_FLOWS, 0, 1, .ro, false, false, false⟩,
   ⟨fun _ => F.col.COL_STAT_PIECES, 0, 1, .ro, false, false, false⟩,
   ⟨fun _ => F.col.HOLD_BYTES_BYTES, 0, 1, .ro, false, false, false⟩,
   ⟨fun _ => F.col.ARR_HEAD_HEAD, 0, 1, .ro, false, false, false⟩,
   ⟨fun _ => F.col.TX_BYTES_COUNT, 0, 1, .ro, false, true, true⟩,
   ⟨fun _ => F.col.RX_BYTES_COUNT, 0, 1, .ro, false, true, true⟩,
   ⟨fun _ => F.col.RETRANSMITS_COUNT, 0, 1, .rw, false, true, false⟩,
   ⟨fun _ => F.col.DUP_FRAMES_COUNT, 0, 1, .rw, false, true, false⟩,
   ⟨fun _ => F.col.STALE_FRAMES_COUNT, 0, 1, .rw, false, true, false⟩,
   ⟨fun _ => F.col.DROP_WINDOW_COUNT, 0, 1, .rw, false, true, false⟩,
   ⟨fun _ => F.col.DROP_HOLD_COUNT, 0, 1, .rw, false, true, false⟩,
   ⟨fun _ => F.col.NACK_SENT_COUNT, 0, 1, .rw, false, true, false⟩,
   ⟨fun _ => F.col.FOREIGN_COUNT, 0, 1, .rw, false, true, false⟩,
   ⟨F.col.ARR_OP_ID, 16, 16, .ro, false, false, false⟩,
   ⟨F.col.ARR_OPSEQ, 16, 16, .ro, false, false, false⟩,
   ⟨F.col.ARR_LAST_RANK, 16, 16, .ro, false, false, false⟩,
   ⟨F.col.ARR_COMM, 16, 16, .ro, false, false, false⟩,
   ⟨F.col.ARR_STATUS, 16, 16, .ro, false, false, false⟩,
   ⟨F.col.ARR_WAIT_NS, 16, 16, .ro, false, false, false⟩,
   ⟨F.col.LAST_COUNT_COUNT, 4, 64, .rw, false, true, false⟩,
   ⟨fun _ => F.col.NUM_CTRL_SAT_TALLY, 0, 1, .rw, false, false, false⟩,
   ⟨fun _ => F.col.NUM_CTRL_SAT_TALLY_EN, 0, 1, .rw, false, false, false⟩,
   ⟨fun _ => F.col.SAT_POS_TILE, 0, 1, .ro, false, false, true⟩,
   ⟨fun _ => F.col.SAT_POS_ELEMENT, 0, 1, .ro, false, false, true⟩,
   ⟨fun _ => F.col.SAT_POS_UNIT, 0, 1, .ro, false, false, true⟩,
   ⟨fun _ => F.col.SAT_POS_CAUSE, 0, 1, .ro, false, false, true⟩,
   ⟨fun _ => F.col.SAT_POS_VALID, 0, 1, .rw1c, false, false, true⟩,
   ⟨fun _ => F.col.SAT_POS_OP_ID, 0, 1, .ro, false, false, true⟩,
   ⟨fun _ => F.col.SAT_TIME_TIME, 0, 1, .ro, false, false, true⟩]

/-- The fields of page type 0x022 from offset 0x040 on. -/
def fields_comm : List FieldDef :=
  [⟨fun _ => F.comm.COMM_CMD_COMM, 0, 1, .wo, false, false, false⟩,
   ⟨fun _ => F.comm.COMM_CMD_CMD, 0, 1, .wo, false, false, false⟩,
   ⟨fun _ => F.comm.COMM_RESULT_STATUS, 0, 1, .ro, false, false, false⟩,
   ⟨fun _ => F.comm.SELF_PEER, 0, 1, .rw, true, false, false⟩,
   ⟨F.comm.CM_MASK_MASK, 32, 16, .rw, false, false, true⟩,
   ⟨F.comm.CM_CFG_EPOCH, 32, 16, .rw, false, false, false⟩,
   ⟨F.comm.CM_CFG_TENANT, 32, 16, .rw, false, false, false⟩,
   ⟨F.comm.CM_STAT_STATE, 32, 16, .ro, false, false, false⟩,
   ⟨F.comm.CM_STAT_RANK, 32, 16, .ro, false, false, false⟩,
   ⟨F.comm.CM_STAT_SIZE, 32, 16, .ro, false, false, false⟩,
   ⟨F.comm.CM_OPSEQ_OPSEQ, 32, 16, .ro, false, false, false⟩,
   ⟨F.comm.CM_EPOCH_CUR_EPOCH, 32, 16, .ro, false, false, false⟩,
   ⟨F.comm.PR_MAC_MAC_BASE, 16, 64, .rw, false, false, true⟩,
   ⟨F.comm.PR_MAC_LOCAL_PORTS, 16, 64, .rw, false, false, true⟩,
   ⟨F.comm.PR_MAC_REMOTE_PORTS, 16, 64, .rw, false, false, true⟩,
   ⟨F.comm.PR_CFG_VLAN, 16, 64, .rw, false, false, false⟩,
   ⟨F.comm.PR_CFG_VALID, 16, 64, .rw, false, false, false⟩,
   ⟨F.comm.PR_CFG_TWIN, 16, 64, .rw, false, false, false⟩]

/-- The fields of page type 0x023 from offset 0x040 on. -/
def fields_mxe : List FieldDef :=
  [⟨fun _ => F.mxe.NUM_CTRL_NF_TALLY, 0, 1, .rw, false, false, false⟩,
   ⟨fun _ => F.mxe.NUM_CTRL_SAT_TALLY, 0, 1, .rw, false, false, false⟩,
   ⟨fun _ => F.mxe.NUM_CTRL_NF_TALLY_EN, 0, 1, .rw, false, false, false⟩,
   ⟨fun _ => F.mxe.NUM_CTRL_SAT_TALLY_EN, 0, 1, .rw, false, false, false⟩,
   ⟨fun _ => F.mxe.NF_POS_TILE, 0, 1, .ro, false, false, true⟩,
   ⟨fun _ => F.mxe.NF_POS_ELEMENT, 0, 1, .ro, false, false, true⟩,
   ⟨fun _ => F.mxe.NF_POS_UNIT, 0, 1, .ro, false, false, true⟩,
   ⟨fun _ => F.mxe.NF_POS_CAUSE, 0, 1, .ro, false, false, true⟩,
   ⟨fun _ => F.mxe.NF_POS_VALID, 0, 1, .rw1c, false, false, true⟩,
   ⟨fun _ => F.mxe.NF_POS_OP_ID, 0, 1, .ro, false, false, true⟩,
   ⟨fun _ => F.mxe.NF_TIME_TIME, 0, 1, .ro, false, false, true⟩,
   ⟨fun _ => F.mxe.SAT_POS_TILE, 0, 1, .ro, false, false, true⟩,
   ⟨fun _ => F.mxe.SAT_POS_ELEMENT, 0, 1, .ro, false, false, true⟩,
   ⟨fun _ => F.mxe.SAT_POS_UNIT, 0, 1, .ro, false, false, true⟩,
   ⟨fun _ => F.mxe.SAT_POS_CAUSE, 0, 1, .ro, false, false, true⟩,
   ⟨fun _ => F.mxe.SAT_POS_VALID, 0, 1, .rw1c, false, false, true⟩,
   ⟨fun _ => F.mxe.SAT_POS_OP_ID, 0, 1, .ro, false, false, true⟩,
   ⟨fun _ => F.mxe.SAT_TIME_TIME, 0, 1, .ro, false, false, true⟩,
   ⟨F.mxe.NF_TILES_TILES, 4, 4, .rw1c, false, false, false⟩,
   ⟨F.mxe.SAT_TILES_TILES, 4, 4, .rw1c, false, false, false⟩]

/-- The fields of page type 0x024 from offset 0x040 on. -/
def fields_vec : List FieldDef :=
  [⟨fun _ => F.vec.NUM_CTRL_NF_TALLY, 0, 1, .rw, false, false, false⟩,
   ⟨fun _ => F.vec.NUM_CTRL_SAT_TALLY, 0, 1, .rw, false, false, false⟩,
   ⟨fun _ => F.vec.NUM_CTRL_NF_TALLY_EN, 0, 1, .rw, false, false, false⟩,
   ⟨fun _ => F.vec.NUM_CTRL_SAT_TALLY_EN, 0, 1, .rw, false, false, false⟩,
   ⟨fun _ => F.vec.NF_POS_TILE, 0, 1, .ro, false, false, true⟩,
   ⟨fun _ => F.vec.NF_POS_ELEMENT, 0, 1, .ro, false, false, true⟩,
   ⟨fun _ => F.vec.NF_POS_UNIT, 0, 1, .ro, false, false, true⟩,
   ⟨fun _ => F.vec.NF_POS_CAUSE, 0, 1, .ro, false, false, true⟩,
   ⟨fun _ => F.vec.NF_POS_VALID, 0, 1, .rw1c, false, false, true⟩,
   ⟨fun _ => F.vec.NF_POS_OP_ID, 0, 1, .ro, false, false, true⟩,
   ⟨fun _ => F.vec.NF_TIME_TIME, 0, 1, .ro, false, false, true⟩,
   ⟨fun _ => F.vec.SAT_POS_TILE, 0, 1, .ro, false, false, true⟩,
   ⟨fun _ => F.vec.SAT_POS_ELEMENT, 0, 1, .ro, false, false, true⟩,
   ⟨fun _ => F.vec.SAT_POS_UNIT, 0, 1, .ro, false, false, true⟩,
   ⟨fun _ => F.vec.SAT_POS_CAUSE, 0, 1, .ro, false, false, true⟩,
   ⟨fun _ => F.vec.SAT_POS_VALID, 0, 1, .rw1c, false, false, true⟩,
   ⟨fun _ => F.vec.SAT_POS_OP_ID, 0, 1, .ro, false, false, true⟩,
   ⟨fun _ => F.vec.SAT_TIME_TIME, 0, 1, .ro, false, false, true⟩,
   ⟨F.vec.NF_TILES_TILES, 4, 4, .rw1c, false, false, false⟩,
   ⟨F.vec.SAT_TILES_TILES, 4, 4, .rw1c, false, false, false⟩]

/-- The fields of page type 0x025 from offset 0x040 on. -/
def fields_vst : List FieldDef :=
  [⟨fun _ => F.vst.VSTORE_STAT_IMAGES, 0, 1, .ro, false, false, false⟩,
   ⟨fun _ => F.vst.VSTORE_USED_BYTES, 0, 1, .ro, false, false, false⟩,
   ⟨fun _ => F.vst.VSTORE_FAMILY_MEMBER, 0, 1, .ro, false, false, false⟩,
   ⟨fun _ => F.vst.VSTORE_FAMILY_PARAM_SET, 0, 1, .ro, false, false, false⟩,
   ⟨fun _ => F.vst.VSTORE_BINDS_ACTIVE, 0, 1, .ro, false, false, false⟩,
   ⟨F.vst.DIR_IMAGE_ID, 8, 256, .ro, false, false, false⟩,
   ⟨F.vst.DIR_LENGTH, 8, 256, .ro, false, false, false⟩,
   ⟨F.vst.DIR_TYPE, 8, 256, .ro, false, false, false⟩,
   ⟨F.vst.DIR_VALID, 8, 256, .ro, false, false, false⟩]

/-- The fields of page type 0x026 from offset 0x040 on. -/
def fields_net : List FieldDef :=
  [⟨fun _ => F.net.NET_DIM_COLS, 0, 1, .ro, false, false, false⟩,
   ⟨fun _ => F.net.NET_DIM_ROWS, 0, 1, .ro, false, false, false⟩,
   ⟨fun _ => F.net.NET_DIM_END_CYC, 0, 1, .ro, false, false, false⟩,
   ⟨fun _ => F.net.NET_DIM_SEAM_CYC, 0, 1, .ro, false, false, false⟩,
   ⟨fun _ => F.net.NET_BYTES_COUNT, 0, 1, .ro, false, true, true⟩,
   ⟨fun _ => F.net.NET_CONTEND_COUNT, 0, 1, .ro, false, true, true⟩,
   ⟨fun _ => F.net.NET_HDR_CORR_COUNT, 0, 1, .rw, false, true, false⟩,
   ⟨fun _ => F.net.NET_HDR_FAIL_COUNT, 0, 1, .rw, false, true, false⟩]

/-- The fields of page type 0x027 from offset 0x040 on. -/
def fields_seam : List FieldDef :=
  [⟨fun _ => F.seam.SEAM_STAT_CH_UP, 0, 1, .ro, false, false, false⟩,
   ⟨fun _ => F.seam.SEAM_BYTES_01_COUNT, 0, 1, .ro, false, true, true⟩,
   ⟨fun _ => F.seam.SEAM_BYTES_10_COUNT, 0, 1, .ro, false, true, true⟩,
   ⟨fun _ => F.seam.SEAM_WAIT_COUNT, 0, 1, .ro, false, true, true⟩,
   ⟨fun _ => F.seam.SEAM_HDR_CORR_COUNT, 0, 1, .rw, false, true, false⟩,
   ⟨fun _ => F.seam.SEAM_HDR_FAIL_COUNT, 0, 1, .rw, false, true, false⟩]

/-- The fields of page type 0x028 from offset 0x040 on. -/
def fields_seq : List FieldDef :=
  [⟨fun _ => F.seq.SEQ_PHYS_PHYS_ID, 0, 1, .ro, false, false, false⟩,
   ⟨fun _ => F.seq.SEQ_FMAX_MEASURED, 0, 1, .ro, false, false, false⟩,
   ⟨fun _ => F.seq.SEQ_FMAX_RECORD, 0, 1, .ro, false, false, false⟩,
   ⟨fun _ => F.seq.SEQ_FEFF_EFFECTIVE, 0, 1, .ro, false, false, false⟩,
   ⟨fun _ => F.seq.SEQ_POS_HEAD, 0, 1, .ro, false, false, false⟩,
   ⟨fun _ => F.seq.SEQ_POS_SEGMENT, 0, 1, .ro, false, false, false⟩,
   ⟨fun _ => F.seq.SEQ_WAIT_WINDOW, 0, 1, .ro, false, false, false⟩,
   ⟨fun _ => F.seq.SEQ_WAIT_SPEC, 0, 1, .ro, false, false, false⟩,
   ⟨fun _ => F.seq.SEQ_WAIT_REASON, 0, 1, .ro, false, false, false⟩,
   ⟨fun _ => F.seq.SEQ_WAIT_PHASE, 0, 1, .ro, false, false, false⟩,
   ⟨fun _ => F.seq.SEQ_WAIT_FORECAST, 0, 1, .ro, false, false, false⟩,
   ⟨fun _ => F.seq.SEQ_FC_TIME_TIME, 0, 1, .ro, false, false, true⟩,
   ⟨fun _ => F.seq.SEQ_LATE_COUNT, 0, 1, .rw, false, true, false⟩,
   ⟨fun _ => F.seq.SEQ_HELD_COUNT, 0, 1, .rw, false, true, false⟩,
   ⟨F.seq.CURSOR_TALLY, 8, 64, .ro, false, false, false⟩,
   ⟨F.seq.CURSOR_CURSOR, 8, 64, .ro, false, false, false⟩]

/-- The fields of page type 0x029 from offset 0x040 on. -/
def fields_til : List FieldDef :=
  [⟨fun _ => F.til.MXE_STAT_QUEUED, 0, 1, .ro, false, false, false⟩,
   ⟨fun _ => F.til.MXE_STAT_BUSY, 0, 1, .ro, false, false, false⟩,
   ⟨fun _ => F.til.MXE_STAT_ACTIVE_SET, 0, 1, .ro, false, false, false⟩,
   ⟨fun _ => F.til.MXE_STAT_DRAINING, 0, 1, .ro, false, false, false⟩,
   ⟨fun _ => F.til.MXE_STAT_CHUNK_BLKS, 0, 1, .ro, false, false, false⟩,
   ⟨fun _ => F.til.MXE_LAST_STATUS, 0, 1, .ro, false, false, false⟩,
   ⟨fun _ => F.til.MXE_LAST_OPCODE, 0, 1, .ro, false, false, false⟩,
   ⟨fun _ => F.til.MXE_LAST_OPID_OP_ID, 0, 1, .ro, false, false, false⟩,
   ⟨fun _ => F.til.MXE_OPS_COUNT, 0, 1, .ro, false, true, true⟩,
   ⟨fun _ => F.til.MXE_ARRAY_CYC_COUNT, 0, 1, .ro, false, true, true⟩,
   ⟨fun _ => F.til.MXE_WAIT_CYC_COUNT, 0, 1, .ro, false, true, true⟩,
   ⟨fun _ => F.til.MXE_PRODUCTS_COUNT, 0, 1, .ro, false, true, true⟩,
   ⟨fun _ => F.til.VEC_STAT_QUEUED, 0, 1, .ro, false, false, false⟩,
   ⟨fun _ => F.til.VEC_STAT_BUSY, 0, 1, .ro, false, false, false⟩,
   ⟨fun _ => F.til.VEC_STAT_PROG_VALID, 0, 1, .ro, false, false, false⟩,
   ⟨fun _ => F.til.VEC_STAT_TABLE_VALID, 0, 1, .ro, false, false, false⟩,
   ⟨fun _ => F.til.VEC_LAST_STATUS, 0, 1, .ro, false, false, false⟩,
   ⟨fun _ => F.til.VEC_LAST_OPCODE, 0, 1, .ro, false, false, false⟩,
   ⟨fun _ => F.til.VEC_LAST_OPID_OP_ID, 0, 1, .ro, false, false, false⟩,
   ⟨F.til.VEC_PIMG_IMAGE_ID, 4, 4, .ro, false, false, false⟩,
   ⟨F.til.VEC_TIMG_IMAGE_ID, 4, 4, .ro, false, false, false⟩,
   ⟨fun _ => F.til.VEC_RUNS_COUNT, 0, 1, .ro, false, true, true⟩,
   ⟨fun _ => F.til.VEC_ISSUE_CYC_COUNT, 0, 1, .ro, false, true, true⟩,
   ⟨fun _ => F.til.VEC_STALL_CYC_COUNT, 0, 1, .ro, false, true, true⟩,
   ⟨fun _ => F.til.VEC_FLOPS_COUNT, 0, 1, .ro, false, true, true⟩,
   ⟨fun _ => F.til.VEC_TBL_EVALS_COUNT, 0, 1, .ro, false, true, true⟩,
   ⟨fun _ => F.til.VEC_CORR_COUNT, 0, 1, .rw, false, true, false⟩,
   ⟨fun _ => F.til.VEC_FAILED_COUNT, 0, 1, .rw, false, true, false⟩,
   ⟨fun _ => F.til.VEC_REFUSED_COUNT, 0, 1, .rw, false, true, false⟩,
   ⟨fun _ => F.til.VEC_ABORTED_COUNT, 0, 1, .rw, false, true, false⟩,
   ⟨fun _ => F.til.VEC_NF_RUNS_COUNT, 0, 1, .rw, false, true, false⟩,
   ⟨fun _ => F.til.VEC_SAT_RUNS_COUNT, 0, 1, .rw, false, true, false⟩,
   ⟨fun _ => F.til.VEC_STORE_CORR_COUNT, 0, 1, .rw, false, true, false⟩,
   ⟨fun _ => F.til.SHF_BANK_CONF_COUNT, 0, 1, .ro, false, true, true⟩,
   ⟨fun _ => F.til.SHF_LOCAL_BYTES_COUNT, 0, 1, .ro, false, true, true⟩,
   ⟨fun _ => F.til.SHF_IN_BYTES_COUNT, 0, 1, .ro, false, true, true⟩,
   ⟨fun _ => F.til.SHF_OUT_BYTES_COUNT, 0, 1, .ro, false, true, true⟩,
   ⟨fun _ => F.til.SHF_REMOTE_WAIT_COUNT, 0, 1, .ro, false, true, true⟩,
   ⟨F.til.LB_BASE_BASE, 16, 4, .ro, false, true, false⟩,
   ⟨F.til.LB_LEN_LENGTH, 16, 4, .ro, false, true, false⟩] ++
  [⟨F.til.LB_STAT_GEN, 16, 4, .ro, false, false, false⟩,
   ⟨F.til.LB_STAT_STATE, 16, 4, .ro, false, false, false⟩,
   ⟨F.til.LB_DROP_COUNT, 16, 4, .rw, false, true, false⟩]

/-- The register map of a page type from offset 0x040 on. -/
def pageFields : PageType → List FieldDef
  | .hst => fields_hst
  | .lnk => fields_lnk
  | .jq => fields_jq
  | .mbx => fields_mbx
  | .ks => fields_ks
  | .pwr => fields_pwr
  | .ops => fields_ops
  | .thr => fields_thr
  | .dom => fields_dom
  | .wake => fields_wake
  | .tim => fields_tim
  | .servo => fields_servo
  | .atc => fields_atc
  | .slot => fields_slot
  | .elog => fields_elog
  | .tir => fields_tir
  | .mq => fields_mq
  | .mgt => fields_mgt
  | .xpt => fields_xpt
  | .cong => fields_cong
  | .ctx => fields_ctx
  | .win => fields_win
  | .cel => fields_cel
  | .rgn => fields_rgn
  | .eth => fields_eth
  | .gl => fields_gl
  | .ms => fields_ms
  | .agt => fields_agt
  | .late => fields_late
  | .tal => fields_tal
  | .ccr => fields_ccr
  | .dp => fields_dp
  | .col => fields_col
  | .comm => fields_comm
  | .mxe => fields_mxe
  | .vec => fields_vec
  | .vst => fields_vst
  | .net => fields_net
  | .seam => fields_seam
  | .seq => fields_seq
  | .til => fields_til

end Sys2Proof.Machine
end

