-- ==== Sys2Proof/Machine/State.lean ====
section
/-! DEFINITION. The state of the KNQ-256: everything the spec gives the part, as plain data, the queue of commands that wait,
and the state after reset. -/

namespace Sys2Proof.Machine

/-- Why the machine stops with a fault: no command of this part ends so (a block answers with a status, an event or a
counter). The one constructor is kept for the interface and nothing raises it; safe. -/
inductive Fault where
  /-- raised by nothing -/
  | none
deriving DecidableEq, Repr

/-- Why the machine refuses a command. -/
inductive Refusal where
  /-- a row whose meaning is not written; raised by no arm of the finished model; safe -/
  | notModelled (mnemonic : String)
  /-- an access to the CXL.mem component registers (0x400 to 0x7FF of a link page), whose layout is CXL 3.1's and not the
  spec's (R388, R391); raised by register accesses there; safe -/
  | cxlComponentRegister (addr : Nat)
  /-- an access to offsets 0xE00 to 0xEFF of a page in the debug state, whose contents are no part of the interface (R41);
  raised by register accesses there; safe -/
  | debugRegister (addr : Nat)
deriving DecidableEq, Repr

/-- The output pins of R470 and R474; a name with _N is a pin that is asserted low. -/
inductive Pin where
  | faultN | thermShdnN | enCore0 | enCore1 | enSerdes | enHbmC | enHbmQ | enAttic
deriving DecidableEq, Repr

/-- What leaves the package: messages, frames, pin changes and records the outside sees. -/
inductive Out where
  | msi (module addr data : Nat)                    -- an MSI-X message through a UCIe module (R386)
  | pin (p : Pin) (asserted : Bool)                 -- an output pin was asserted or released (R470, R474)
  | pulse (widthMs : Nat)                           -- a pulse on PPS_OUT (R477)
  | read (addr : Nat) (data : List Byte)            -- bytes delivered for a read of the device range
  | ended (addr status : Nat)                       -- an access that ended with a status
  | spdm (fn : Nat) (msg : String) (data : List Byte)         -- an SPDM response through a function's DOE mailbox (R400)
  | frame (port cls : Nat) (f : Frame) (secured : Bool)   -- a frame on a fabric port's wire
  | mgtFrame (data : List Byte)                     -- a frame on the management port's wire
  | jam                                             -- the 32-bit jam of a collision (R335)
  | mdio (phy reg data : Nat)                       -- a Clause 22 write to the external PHY
  | shard (addr : Nat) (c : ShardClass)             -- the class Oneisor gives a shard (R224)
  | mka (port value : Nat)                          -- an ICV, or 1 or 0 for a check's verdict, handed to Oneisor (R411)
deriving DecidableEq, Repr

/-- What the register hub holds beside the register fields (R29, R385, R386). -/
structure Hub where
  /-- the low half of a 64-bit write each requester has issued: (BAR address, value) (R29) -/
  held : List (Nat × Option (Nat × Nat)) := []
  /-- the high half captured by a 32-bit read of a low half: (BAR address, value) (R29) -/
  captured : List (Nat × Option (Nat × Nat)) := []
  /-- the XPT queue each requester selects (Q_SEL, R371) -/
  qsel : List (Nat × Nat) := []
  /-- the words of the MSI-X table (R27, R386) -/
  msix : List (Nat × Nat) := []
  /-- the MSI-X pending bits -/
  pba : List (Nat × Bool) := []
  /-- sequence number of the next event record (R385) -/
  eqSeq : Nat := 0
  /-- passes the event ring has made, modulo 2 -/
  eqPass : Bool := false
  /-- pages (by BAR address) whose line rose while the event ring was full, newest first (R385) -/
  unreported : List Nat := []
deriving DecidableEq, Repr

/-- The time base and its servo (R163 to R166). -/
structure TimeBase where
  /-- TIME has been set since reset (R163) -/
  set : Bool := false
  /-- the part of a nanosecond TIME has advanced, in 1 / (256 × 10⁹) ns -/
  frac : Nat := 0
  /-- the servo's integral term I, in 1/256 ppb (R166) -/
  integral : Int := 0
  /-- consecutive updates within LOCK_NS -/
  good : Nat := 0
  /-- a PPS edge has been captured since reset (R477) -/
  ppsSeen : Bool := false
  /-- when the last edge was captured, in ns since the release of reset -/
  ppsAt : Nat := 0
deriving DecidableEq, Repr

/-! ### The event log (R460 to R463) -/

/-- An entry offered to the log: source page's type code and instance, CODE, STATUS, DETAIL, STAMP, UPTIME (R460). -/
structure LogEntry where
  ptype : Nat
  inst : Nat
  code : Nat
  status : Nat
  detail : Nat
  stamp : Nat
  up : Bool
deriving DecidableEq, Repr

/-- The event log. -/
structure EventLog where
  /-- entries written since the model's start, by SEQ: 256-bit images; an entry torn by a loss of power holds an image that fails its CHECK -/
  entries : List (Nat × Option Nat) := []
  /-- the entry whose program runs, with its SEQ -/
  prog : Option (Nat × Nat) := none
  /-- entries that wait -/
  wait : List LogEntry := []
  /-- SEQ values passed over since LOG_HEAD: entries torn -/
  torn : Nat := 0
  /-- entries suppressed since the previous entry written -/
  dropped : Nat := 0
  /-- time of the last entry of a source and code, plus one, by `2^16 × source + CODE`, in ns since the release of reset -/
  last : List (Nat × Nat) := []
  /-- READY has been set, or the boot has failed, since the last reset (R462) -/
  open_ : Bool := false
  /-- the power-fail warning stands (R464), and its entry has been offered -/
  pwrFail : Bool := false
deriving DecidableEq, Repr

/-! ### Boot, characterisation, faults (R449 to R459) -/

/-- A site command under way (R455): OP, physical group, PERSIST, the status it will end with, the PARAMS block. -/
structure SiteCmd where
  op : Nat
  phys : Nat
  persist : Bool
  status : Nat
  block : List Byte
deriving DecidableEq, Repr

/-- A physical group in SELFTEST (R452): candidate clocks failed, passing trials in succession. -/
structure CharGroup where
  failed : Nat := 0
  passed : Nat := 0
deriving DecidableEq, Repr

/-- What the start-up and the fault controller hold beside registers. -/
structure Boot where
  /-- trials of each physical group in SELFTEST -/
  trials : List (Nat × CharGroup) := []
  /-- MEASURED of each physical group that has ended its characterisation, plus one -/
  measured : List (Nat × Nat) := []
  site : Option SiteCmd := none
  /-- when each die's faults arose, newest first, in ns since the release of reset -/
  faults : List (Nat × List Nat) := []
  /-- RESET_N is low, or has not been released since power came up -/
  held : Bool := true
  /-- a stage has failed: the stage after it that still runs, or none (R451) -/
  failedAt : Option Nat := none
  /-- the UCIe modules may train: stage LINKS has begun (R449, R451) -/
  links : Bool := false
  /-- what Onyx found of the configuration record (R454): 0 good, 1 or 3 its factory section not accepted, 2 its site section -/
  recordBad : Nat := 0
  /-- physical groups retired since the last boot (R19) -/
  retiredNow : List Nat := []
deriving DecidableEq, Repr

/-! ### Tiles (R83, R103, R116) -/

/-- One output element of an accumulator set: whether it used a non-finite block, its frame, and the exact sums of its three
accumulators in the frame (R70, R72, R107). Every pairing uses `hh`; QBI16 with a narrower operand also `ll`; QBI16 with QBI16 all
three. -/
structure Acc where
  nan : Bool := false
  frame : Option Int := none
  hh : Int := 0
  mid : Int := 0
  ll : Int := 0
deriving DecidableEq, Repr

/-- The state of an accumulator set (R103). -/
inductive SetState where
  | active | pending | draining | free
deriving DecidableEq, Repr

/-- An accumulator set: its state, the format pair and blocks of its chunk (R88), its elements by `row × 64 + column`. -/
structure AccSet where
  st : SetState := .free
  fmts : Option (Nat × Nat) := none
  blks : Nat := 0
  elems : List (Nat × Acc) := []
deriving DecidableEq, Repr

/-- How far a started tile operation has come. -/
inductive Phase where
  | signal                  -- a SIGNAL, before its turn
  | clear                   -- a CLEAR, before it reaches the array
  | accum (step : Nat)      -- reduction steps enter, the next being `step`
  | reach                   -- a DRAIN, before it reaches the accumulator block
  | handover                -- its last products have accumulated
  | pending (set : Nat)     -- its set waits for the converter
  | drain (set : Nat)       -- the converter holds its set
  | convert                 -- a CONVERT or EXPAND, before the converter takes it
  | ready                   -- its last write is issued
deriving DecidableEq, Repr

/-- A tile operation in the queue of four (R96): its descriptor and whether it is held (R186). -/
structure TileOp where
  desc : Nat
  held : Bool := false
  /-- an interlock wait of the operation has been counted (R96) -/
  waited : Bool := false
deriving DecidableEq, Repr

/-- A started tile operation: descriptor, phase, and the conditions it has met. -/
structure TileRun where
  desc : Nat
  phase : Phase
  nf : Bool := false
  sat : Bool := false
deriving DecidableEq, Repr

/-- A bound element program (R126): image id, entry indices, instructions as stored (check byte above the 64 bits). -/
structure ProgSlot where
  imageId : Nat
  entries : List Nat
  code : List Nat
deriving DecidableEq, Repr

/-- A bound function table (R134): image id, header (512 bits), value and derivative segments (128 bits each). -/
structure TableSlot where
  imageId : Nat
  header : Nat
  value : List Nat
  deriv : List Nat
deriving DecidableEq, Repr

/-- A descriptor in the vector engine's queue (R116). -/
structure VecOp where
  desc : Nat
  held : Bool := false
deriving DecidableEq, Repr

/-- The descriptor the vector engine runs. -/
structure VecRun where
  desc : Nat
  /-- index of the next instruction -/
  pc : Nat
  /-- index of the first instruction after BODY -/
  body : Nat := 0
  /-- passes of the body completed -/
  sweeps : Nat := 0
  /-- HALT has issued, or the bind has filled its slot -/
  ended : Bool := false
  /-- a summary has been sent and not yet accepted (R132) -/
  summary : Bool := false
  nf : Bool := false
  sat : Bool := false
  /-- the position records that this RUN has captured (R80) -/
  nfRec : Bool := false
  satRec : Bool := false
deriving DecidableEq, Repr

/-- 128 lanes of zero. -/
def zeroLanes : List Word := List.replicate 128 0

/-- A tile: matrix-engine queue and started operations, accumulator sets, vector engine. -/
structure Tile where
  queue : List TileOp := []
  started : List TileRun := []
  set0 : AccSet := { st := .active }
  set1 : AccSet := {}
  /-- vector registers V0–V31, 128 lanes each -/
  v : List (Nat × List Word) := []
  /-- predicate registers P1–P7 (P0 reads as all ones, R116) -/
  p : List (Nat × BitVec 128) := []
  /-- scalar registers S0–S15 -/
  sc : List (Nat × Word) := []
  /-- address registers A0–A7 -/
  ad : List (Nat × Word) := []
  /-- signed per-sweep increments of A0–A7, in bytes -/
  inc : List (Nat × Int) := []
  /-- index register X, its pitch and its per-sweep increment -/
  x : BitVec 40 := 0
  xpitch : Word := 0
  xinc : Int := 0
  progs : List (Nat × Option ProgSlot) := []
  tables : List (Nat × Option TableSlot) := []
  vqueue : List VecOp := []
  vrun : Option VecRun := none
deriving DecidableEq, Repr

/-- A summary message on its way to a slot (R138). -/
structure Summary where
  core : Nat
  slot : Nat
  tag : Nat
  tile : Nat
  opId : Nat
  time : Nat
  words : List Word
deriving DecidableEq, Repr

/-! ### Agate (R163 to R203) -/

/-- A tally increment on the notice network (R180). -/
structure Notice where
  die : Nat
  tally : Nat
  amount : Nat
  src : Nat
deriving DecidableEq, Repr

/-- A beat in a stream's window (R185): where it stands, the ITER and anchor of its segment's entry, whether its segment is
predicted and not yet confirmed, whether it has fired. -/
structure WinBeat where
  beat : Nat
  index : Nat
  seg : Nat
  entry : Nat
  iter : Nat
  anchor : Nat
  spec : Bool
  fired : Bool := false
deriving DecidableEq, Repr

/-- A descriptor an ISSUE still has to deliver (R178): unit, tile (0 for a die unit), index in the store, held (R186). -/
structure Delivery where
  unit : Nat
  tile : Nat
  index : Nat
  held : Bool
deriving DecidableEq, Repr

/-- A speculative firing kept for the decision (R186 to R188): an ISSUE's planned time and slack, for its lateness at release. -/
structure SpecIssue where
  planned : Nat
  slack : Nat
  index : Nat
  seg : Nat
  iter : Nat
deriving DecidableEq, Repr

/-- A stream of a die: its window, the next beat it fetches, and what speculation has deferred. -/
structure Stream where
  window : List WinBeat := []
  /-- segment, position, entry number, ITER and anchor of the next beat fetched; none: the list's END has been fetched -/
  fetch : Option (Nat × Nat × Nat × Nat × Nat) := none
  /-- segment, entry number and anchor of the list whose END was fetched last, and whether it is of a predicted segment -/
  lastEnd : Option (Nat × Nat × Nat × Bool) := none
  fetchSpec : Bool := false
  /-- the END behind which the window ran into a predicted segment: segment, entry number, anchor -/
  specFrom : Option (Nat × Nat × Nat) := none
  /-- entries of each segment since START -/
  iters : List (Nat × Nat) := []
  /-- segments entered on a prediction not yet confirmed -/
  specSegs : List Nat := []
  /-- entry of the segment whose END the stream fired last, plus one -/
  ended : Nat := 0
  deliver : List Delivery := []
  /-- what speculative firings have consumed beyond the committed cursors, by view entry (R186) -/
  specCursors : List (Nat × Nat) := []
  /-- SIG and fill-tally advances that wait for confirmation -/
  deferred : List Notice := []
  /-- landing buffers filled speculatively: (tile, buffer) -/
  specFills : List (Nat × Nat) := []
  specIssues : List SpecIssue := []
  /-- speculative firings not yet confirmed -/
  specCount : Nat := 0
  /-- TIME at which the last beat fired, the last descriptor was delivered (with its tile), the head's last wait was met (with its
  tally); the same for the next FILL: the last FILL or RELEASE fired, its last wait met (R189) -/
  tFired : Nat := 0
  tDelivered : Nat := 0
  dTile : Nat := 0
  tMet : Nat := 0
  metTally : Nat := 0
  fFired : Nat := 0
  fMet : Nat := 0
  fMetTally : Nat := 0
  /-- TIME at which a landing buffer last became FULL, by `4 × tile of the group + buffer` -/
  bufAt : List (Nat × Nat) := []
deriving DecidableEq, Repr

/-- A fill on its way to a landing buffer (R156, R157). -/
structure Fill where
  die : Nat
  stream : Nat
  tile : Nat
  buf : Nat
  gen : Nat
  src : Nat
  len : Nat
  /-- bytes already arrived -/
  pos : Nat
  sig : Option Notice
  spec : Bool
deriving DecidableEq, Repr

/-- A DECIDE handed to a control core (R182). -/
structure Deciding where
  die : Nat
  entry : Nat
  seg : Nat
  dpoint : Nat
  core : Nat
  fired : Nat
  anchor : Nat
deriving DecidableEq, Repr

/-- A decision on its way to the engines: the entry it follows, the successor, its anchor, how far the anchor slipped, the deciding
core, and whether the successor was predicted (R169). -/
structure Decision where
  entry : Nat
  succ : Nat
  anchor : Nat
  slip : Nat
  core : Nat
  predicted : Bool
  /-- the later of the DECIDE firing and the last operand becoming available (R182) -/
  since : Nat
deriving DecidableEq, Repr

/-- A phase report or a forecast on its way to PWR (R191): group (64 + die for a die stream), phase, TIME reported or planned. -/
structure PhaseNote where
  src : Nat
  phase : Nat
  at_ : Nat
deriving DecidableEq, Repr

/-- The timetable image both dies hold (R195, R196) and the engines' state. -/
structure Agate where
  segs : List (Nat × Nat) := []
  nsegs : Nat := 0
  /-- FIRST and COUNT of stream lists, by `die × 2^16 + segment × 33 + stream` -/
  dirs : List (Nat × Nat) := []
  /-- beats by `die × 2^16 + index`; filled counts by die -/
  beats : List (Nat × Nat) := []
  nbeats : List (Nat × Nat) := []
  /-- tile descriptors by `group × 2048 + index`; filled counts by group -/
  tileDesc : List (Nat × Nat) := []
  ntile : List (Nat × Nat) := []
  /-- die descriptors by `die × 2048 + index`; filled counts by die -/
  dieDesc : List (Nat × Nat) := []
  ndie : List (Nat × Nat) := []
  /-- predicate entries by `die × 256 + dpoint` -/
  preds : List (Nat × Nat) := []
  /-- tally views by `die × 64 + stream` -/
  views : List (Nat × List Nat) := []
  /-- REMOTE_LO and REMOTE_HI by die; none before a load -/
  remote : List (Nat × Option (Nat × Nat)) := []
  /-- program and table images of the image stores, by `die × 256 + directory index` -/
  vimages : List (Nat × List Byte) := []
  /-- streams by `die × 64 + stream` -/
  streams : List (Nat × Stream) := []
  /-- fills in flight, oldest first -/
  fills : List Fill := []
  /-- increments on the notice network, oldest first -/
  notices : List Notice := []
  /-- DECIDEs not yet answered, oldest first -/
  deciding : List Deciding := []
  /-- decisions sent to an engine and not yet arrived, by die -/
  sent : List (Nat × List Decision) := []
  /-- successor and anchor after an entry, once decided, by `die × 2^32 + entry` -/
  decided : List (Nat × Option (Nat × Nat)) := []
  /-- COUNTs captured when the die's engine entered its current segment, by `die × 4096 + tally` (R184) -/
  captured : List (Nat × Nat) := []
  /-- conditions and the first failure of the run's completions (R194) -/
  runNf : Bool := false
  runSat : Bool := false
  runLate : Bool := false
  /-- lowest entry whose segment has not completed; the segment of each entry, plus one, once known -/
  entry : Nat := 0
  segAt : List (Nat × Nat) := []
  /-- cursors of the die streams, by `64 × die + view entry` (a group's stand in its SEQ page) -/
  cursors : List (Nat × Nat) := []
  /-- the current phase of each die's die stream -/
  diePhase : List (Nat × Nat) := []
  /-- phase reports and forecasts on their way to PWR, oldest first -/
  reports : List PhaseNote := []
  forecasts : List PhaseNote := []
  /-- sequence numbers of the lateness records, by die (R190) -/
  lateSeq : List (Nat × Nat) := []
  /-- TIME of the run's start, and the job that started it: (queue, ring index, OP_ID) -/
  job : Option (Nat × Nat × Nat) := none
  /-- segment and time at which that job starts the run once its load has ended -/
  jobStart : Option (Nat × Nat) := none
  /-- tenant slot the run acts for; that of the run started last -/
  tenant : Nat := 0
  lastTenant : Option Nat := none
  /-- a removed tenant's run has ended and the Shelves are to be zero-filled (R409) -/
  fillDue : Bool := false
  /-- physical groups whose retirement waits for the next load (R19) -/
  retiring : List Nat := []
deriving DecidableEq, Repr

/-! ### Power (R417 to R446) -/

/-- Work that came while the package was in NAP and waits for the wake (R438). -/
inductive HeldWork where
  | load
  | start
  | span (f : SpanFrom) (t span : Nat) (write : Option (Nat × Nat)) (waits late : Nat)
  | cxl (m x : Nat) (write : Option (Nat × Nat))
deriving DecidableEq, Repr

/-- What PWR holds of a group: the level a raising ramp leads to (R419), the preferred level in force (R421; none: DEFAULT_PREF), the
normalised power summed since the group entered its phase and over how many ticks (R422), when its reason last changed (R427). -/
structure PwrGroup where
  target : Option Nat := none
  pref : Option Nat := none
  sum : Nat := 0
  ticks : Nat := 0
  /-- the normalised power of the last ten ticks, newest first -/
  recent : List Nat := []
  since : Nat := 0
deriving DecidableEq, Repr

/-- What PWR holds of a die: its phase, uncore power summed since, ticks. -/
structure PwrDie where
  phase : Nat := 0
  sum : Nat := 0
  ticks : Nat := 0
  recent : List Nat := []
deriving DecidableEq, Repr

/-- What a period has seen of a communicator (R432, R434): operations completed, least WAIT_NS, how often each rank was last, members
whose hints name this chip. -/
structure CommPeriod where
  ops : Nat := 0
  least : Option Nat := none
  lasts : List (Nat × Nat) := []
  namers : List Nat := []
deriving DecidableEq, Repr

/-- What PWR holds beside its registers. -/
structure Power where
  groups : List (Nat × PwrGroup) := []
  dies : List (Nat × PwrDie) := []
  /-- the level to which the limit of R426 holds L -/
  limit : Nat := 12
  /-- levels by which R424 lowers every group; the alarm stands -/
  current : Nat := 0
  alarm : Bool := false
  /-- the trip at 110 °C holds (R426) -/
  trip : Bool := false
  /-- a fatal fault or the power-fail warning holds every group at level 0 (R458, R464) -/
  zero : Bool := false
  /-- forecasts whose planned time has not come -/
  planned : List PhaseNote := []
  /-- P10 of the last hundred ticks in mW, newest first -/
  window : List Nat := []
  /-- the modelled power at each of those ticks before CAL, in mW, newest first; ticks since CAL was last updated -/
  model : List Nat := []
  capTicks : Nat := 0
  period : List (Nat × CommPeriod) := []
  /-- powers summed over the period, for the hints -/
  powerSum : Nat := 0
  powerTicks : Nat := 0
  /-- periods since hints last called for BOOST -/
  quiet : Nat := 0
  ringSeq : Nat := 0
  /-- energy below one count, in nJ / 32,768, by the counter's key -/
  energy : List (Nat × Nat) := []
  /-- throttled time below one µs of each group, in ns -/
  thrNs : List (Nat × Nat) := []
  held : List HeldWork := []
  /-- the state an entry leads to, the state it left or a wake leaves -/
  goal : Nat := 0
  from_ : Nat := 0
  /-- when the package entered its state -/
  since : Nat := 0
  /-- the wake stage under way: 1 to 4; 0: none -/
  stage : Nat := 0
deriving DecidableEq, Repr

/-! ### Host interface (R375 to R392) -/

/-- A completion record of a job queue that waits to be written (R383). -/
structure JobRecord where
  queue : Nat
  opId : Nat
  status : Nat
  opcode : Nat
  index : Nat
  skips : Nat := 0
  late : Nat := 0
deriving DecidableEq, Repr

/-- An ADMIT that has not completed (R382): queue, ring index, OP_ID, its number `k`, the pins it holds as (slot, generation). -/
structure Admitted where
  queue : Nat
  index : Nat
  opId : Nat
  service : Nat
  k : Nat
  pins : List (Fin 32 × Nat)
deriving DecidableEq, Repr

/-- A service the running RUN declares (R382). -/
structure Service where
  number : Nat
  admitTally : Nat
  doneTally : Nat
  ringLog2 : Nat
  ringAddr : Nat
  slots : Nat
  tenant : Nat
  /-- admissions so far -/
  admissions : Nat := 0
  /-- COUNT of DONE_TALLY when the run started -/
  doneBase : Nat := 0
deriving DecidableEq, Repr

/-- What the host interface holds beside its registers. -/
structure HostIf where
  /-- sequence number of the next record of each queue (R383) -/
  seqs : List (Nat × Nat) := []
  /-- passes each completion ring has made, modulo 2 -/
  passes : List (Nat × Bool) := []
  /-- records that wait for room in their completion ring, oldest first -/
  waiting : List JobRecord := []
  /-- records written since each queue's last message, and TIME of the first of them (R386) -/
  unsignalled : List (Nat × Nat) := []
  firstUnsig : List (Nat × Nat) := []
  services : List Service := []
  admitted : List Admitted := []
  /-- records issued in the last 10 µs: when (ns since the release of reset), module, host address, bytes, newest first (R378) -/
  issued : List (Nat × Nat × Nat × List Byte) := []
  /-- LATE_BEATS of both dies when the run started -/
  lateBase : Nat := 0
  /-- modules that did not advance within a stage's timeout and wait for RETRAIN (R377) -/
  stuck : List (Nat × Bool) := []
  /-- training steps the run has ended by SKIP (R216) -/
  skips : Nat := 0
deriving DecidableEq, Repr

/-! ### The device range (R259 to R286) -/

/-- A 16-byte block of a Cellar stack: the provenance and plaintext it was encrypted from, or the raw ciphertext where no device
write stands behind it (a scrub). -/
structure Cell where
  prov : Option Prov := none
  data : Nat := 0
deriving DecidableEq, Repr

/-- The state of an object handle (R263). -/
inductive ObjState where
  | creating | resident | moving | destroying
deriving DecidableEq, Repr

/-- An object (R261 to R264): owner slot, class, size, protection, tier (1 SHELF, 2 CELLAR, 3 ATTIC, 4 BOXROOM), stack mask, stack
offset BASE or window address, the Attic address of its home. -/
structure Obj where
  owner : Nat
  cls : Nat
  size : Nat
  protect : Bool
  tier : Nat
  mask : Nat
  place : Nat
  st : ObjState
  home : Option Nat := none
deriving DecidableEq, Repr

/-- A CREATE, DESTROY or QUERY taken from a ring and not yet completed (R275); `ready` holds its status once it may complete. -/
structure ObjCmd where
  op : Nat
  ctag : Nat
  handle : Nat
  /-- the placement is zero-filled before a CREATE completes (INIT_ZERO) -/
  zero : Bool
  ready : Option Nat
deriving DecidableEq, Repr

/-- A MIGRATE or REFILL that runs (R275). -/
structure Migration where
  fw : Bool
  refill : Bool
  ctag : Nat
  handle : Nat
  tier : Nat
  mask : Nat
  place : Nat
deriving DecidableEq, Repr

/-- A MOVE that runs (R280). -/
structure Move where
  die : Nat
  desc : Nat
deriving DecidableEq, Repr

/-- A descriptor in a die unit's queue: the issuing die, the descriptor, held while speculative (R186). -/
structure DieOp where
  die : Nat
  desc : Nat
  held : Bool
deriving DecidableEq, Repr

/-- What the tier manager and the Cellar controllers hold beside their registers. -/
structure Tiers where
  /-- Cellar blocks of 16 bytes by `stack × 2^32 + offset / 16` -/
  cellar : List (Nat × Option Cell) := []
  /-- runs that scrubs have filled with zero ciphertext, by `stack × 2^36 + offset`, rising and apart (R410) -/
  scrubs : List (Nat × Nat) := []
  /-- Cellar tags by `stack × 2^33 + offset / 8` (R267) -/
  tags : List (Nat × Option Nat) := []
  /-- blocks last sealed into host memory, by host address / 16: provenance and plaintext (R271) -/
  sealedBlk : List (Nat × Option (Prov × Nat)) := []
  objects : List (Nat × Option Obj) := []
  /-- commands waiting to complete in their ring's order: driver ring, firmware ring -/
  drv : List ObjCmd := []
  fwr : List ObjCmd := []
  /-- the ring the last command was taken from was the firmware ring -/
  lastFw : Bool := true
  /-- completion records that wait for room in their ring, oldest first (R275) -/
  drvOut : List Nat := []
  fwOut : List Nat := []
  /-- completion sequence numbers -/
  drvSeq : Nat := 0
  fwSeq : Nat := 0
  migs : List Migration := []
  moves : List Move := []
  queue : List DieOp := []
deriving DecidableEq, Repr

/-! ### The Attic (R286 to R306) -/

/-- An install under way: slot, target bank, package address and length, whether the first selector write has completed. -/
structure Install where
  slot : Nat
  bank : Nat
  src : Nat
  len : Nat
  programming : Bool
deriving DecidableEq, Repr

/-- A selector write under way: slot, the command behind it (0: a refresh), RAISE_FLOOR, the new record. -/
structure SelWrite where
  slot : Nat
  op : Nat
  raise : Bool
  rcd : Nat
deriving DecidableEq, Repr

/-- One layer of a replacement: PASS and OPEN tallies as (die, tally, COUNT of the PASS at the start), the handles of its objects. -/
structure ReplLayer where
  pass : List (Nat × Nat × Nat)
  opens : List (Nat × Nat)
  objs : List Nat
deriving DecidableEq, Repr

/-- A replacement in place (R302): layers not yet replaced, how many replaced, old and new live requests, REFILLs failed. -/
structure Replacement where
  layers : List ReplLayer
  front : Nat
  old : Nat
  new : Nat
  fails : Nat
deriving DecidableEq, Repr

/-- What the Attic holds: it keeps its contents through every reset. -/
structure Attic where
  /-- ciphertext of the banks, by `(2 × slot + bank) × 2^33 + offset` -/
  cells : List (Nat × Option Byte) := []
  /-- keys released to the controller, by `2 × slot + bank` (R405) -/
  keys : List (Nat × Option Nat) := []
  /-- bank records: package bytes 0 to 0x47F, by `2 × slot + bank` -/
  records : List (Nat × List Byte) := []
  /-- selector copies, by `2 × slot + copy` (R293) -/
  selectors : List (Nat × Option Nat) := []
  /-- wear counts, by `248 × (2 × slot + bank) + block` (R287) -/
  wear : List (Nat × Option Nat) := []
  install : Option Install := none
  selWrite : Option SelWrite := none
  repl : List (Nat × Option Replacement) := []
  /-- firmware bundles written: image 0 or 1 as (IMAGE_ID, SVN, bytes) -/
  bundles : List (Nat × Option (Nat × Nat × List Byte)) := []
  /-- firmware selector: ACTIVE image, VALID bits, once written by this device since the model's start (none: as manufactured) -/
  fwActive : Option Nat := none
  fwValid : Option Nat := none
  fwFloor : Option Nat := none
deriving DecidableEq, Repr

/-! ### Onyx (R393 to R416) -/

/-- A tenant package as unwrapped: root secret, TENANT_TAG, KEY_GEN. -/
structure TenantKey where
  secret : Nat
  tag : Nat
  gen : Nat
deriving DecidableEq, Repr

/-- What a mailbox command does when it ends (R415). -/
inductive MbxEffect where
  | none
  | enrol (payload : List Byte) (policy : Bool)
  | update (image svn : Nat) (bytes : List Byte)
  | activate
  | raiseFloor
  | cakImport (k : Nat) (cak : List Byte)
  | cakDelete (k : Nat)
  | extend (i : Nat) (digest : List Byte)
  | debug (token : List Byte)
deriving DecidableEq, Repr

/-- A mailbox command that runs. -/
structure MbxCmd where
  op : Nat
  status : Nat
  effect : MbxEffect
deriving DecidableEq, Repr

/-- What Onyx holds beside its registers. -/
structure Onyx where
  /-- tenant keys by slot, from ACTIVATING until ZEROISING ends (R408) -/
  keys : List (Nat × Option TenantKey) := []
  /-- an ACTIVATE held while the slot scrubs -/
  heldAct : List (Nat × Option TenantKey) := []
  /-- slots whose REVOKE asked for a scrub -/
  scrub : List (Nat × Bool) := []
  /-- slots whose page's soft reset waits for the slot -/
  resetWait : List (Nat × Bool) := []
  /-- the keys of selectors 16 and 17, drawn at boot (R394) -/
  key16 : Nat := 0
  key17 : Nat := 0
  /-- the entropy source has failed a health test (R393) -/
  drbgStopped : Bool := false
  /-- what an ENROL of this device replaced: IVK modulus, SUK identity, policy digest, REQUIRE_POLICY, site chain; none: as the
  identity partition stood -/
  ivk : Option Nat := none
  suk : Option Nat := none
  policy : Option (Nat × Bool) := none
  siteChain : Option (List Byte) := none
  /-- measurement registers and their counts (R399) -/
  meas : List (Nat × Nat) := []
  measCnt : List (Nat × Nat) := []
  /-- CAK and CKN by index -/
  caks : List (Nat × Option (List Byte)) := []
  mbx : Option MbxCmd := none
  /-- SPDM connection state of each function: 0 none, 1 version, 2 capabilities, 3 algorithms (R400) -/
  spdm : List (Nat × Nat) := []
  debugLevel : Nat := 0
deriving DecidableEq, Repr

/-! ### Fabric ports (R307 to R340) -/

/-- A frame waiting in a class queue: its source (0 collective engines, 1 PWR, 2 the XPT, 3 firmware, 4 the port's own control
frames) and, for a firmware entry, its ring index and whether it asked for a timestamp. -/
structure QFrame where
  frame : Frame
  src : Nat
  entry : Option (Nat × Bool) := none
deriving DecidableEq, Repr

/-- A gate entry (R314). -/
structure Gate where
  interval : Nat
  gates : Nat
  shedOk : Bool
  lpiOk : Bool
deriving DecidableEq, Repr

/-- A gate list with its cycle and the instant C at which it takes effect (R315, R316). -/
structure GateList where
  entries : List Gate
  cycle : Nat
  start : Nat
deriving DecidableEq, Repr

/-- A lane change under way (R324): this end proposed it, the switch instant, the width, agreed by both ends. -/
structure Shed where
  proposer : Bool
  at_ : Nat
  target : Nat
  agreed : Bool
deriving DecidableEq, Repr

/-- What a fabric port holds beside its registers. -/
structure Port where
  /-- class queues, oldest first -/
  queues : List (Nat × List QFrame) := []
  /-- the source served last in each class (R312) -/
  served : List (Nat × Nat) := []
  oper : Option GateList := none
  pend : Option GateList := none
  shed : Option Shed := none
  /-- the head of a class has been counted as held by its gate (R318) -/
  heldCounted : List (Nat × Bool) := []
  /-- the partner has advertised low-power idle -/
  lpiPartner : Bool := false
  /-- TIME at which low-power idle was entered; a wake has begun -/
  lpiSince : Nat := 0
  waking : Bool := false
  /-- a firmware entry has been taken and not completed -/
  fwBusy : Bool := false
  /-- TIME at which each class's gate was last closed (R367) -/
  closedAt : List (Nat × Option Nat) := []
  /-- cycles of the operating list counted -/
  cycles : Nat := 0
deriving DecidableEq, Repr

/-- A frame the management port sends: bytes, ring index (none: a probe), attempts, whether it backs off. -/
structure MgtFrame where
  bytes : List Byte
  entry : Option Nat
  attempts : Nat
  backoff : Option Nat
deriving DecidableEq, Repr

/-- The ports, the management port, the twin link and the configuration record's fields as written since the model's start. -/
structure Net where
  ports : List (Nat × Port) := []
  mgt : List MgtFrame := []
  /-- sequence numbers of control frames, by `16 × port + subtype` -/
  seqs : List (Nat × Nat) := []
  /-- secure association keys by `8 × port + 4 × direction + AN`; lowest acceptable receive PN likewise (R327) -/
  saks : List (Nat × Option Nat) := []
  rxPn : List (Nat × Nat) := []
  /-- fields of the configuration record written since the model's start (R454, R455) -/
  site : List (Nat × Option Nat) := []
  /-- those that take effect at the next boot -/
  siteNext : List (Nat × Option Nat) := []
deriving DecidableEq, Repr

/-! ### Collective engines (R230 to R258) -/

/-- A DATA frame not yet acknowledged (R243): PSN, piece or step, destination offset, payload, retransmissions. -/
structure SentFrame where
  psn : Nat
  piece : Nat
  off : Nat
  data : List Byte
  tries : Nat := 0
deriving DecidableEq, Repr

/-- A flow this chip sends: receiver's rank, next PSN, frames not acknowledged in PSN order. -/
structure SendFlow where
  rank : Nat
  next : Nat := 0
  unacked : List SentFrame := []
deriving DecidableEq, Repr

/-- A receive flow context (R243): sender's rank, base PSN, PSNs above the base received, frames since the last ACK. -/
structure RecvFlow where
  rank : Nat
  base : Nat := 0
  marks : List Nat := []
  owed : Nat := 0
deriving DecidableEq, Repr

/-- A piece slot (R244): the piece (counted among those reduced here), its member bitmap, its sums. -/
structure PieceSlot where
  idx : Nat
  members : Nat
  sums : List Int
deriving DecidableEq, Repr

/-- An accepted collective operation (R238, R247, R248). -/
structure ColOp where
  desc : Nat
  opseq : Nat
  /-- its sends have begun -/
  moving : Bool := false
  send : List SendFlow := []
  recv : List RecvFlow := []
  slots : List PieceSlot := []
  /-- lowest unfinished piece, next piece to enter the window, finished pieces above the lowest -/
  floor : Nat := 0
  next : Nat := 0
  finished : List Nat := []
  /-- bytes (BARRIER: frames) still to be received; by rank for PERMUTE and RESHARD, by step for RING_PASS -/
  due : Nat := 0
  dueOf : List (Nat × Nat) := []
  /-- RING_PASS: steps admitted, steps sent, COUNT of FREE_TALLY at the start -/
  admitted : Nat := 0
  sent : Nat := 0
  freeBase : Nat := 0
  sat : Bool := false
  /-- rank whose frame or acknowledgement came last; TIME of the last own send -/
  last : Nat := 0
  lastSend : Option Nat := none
  /-- the status other than DONE with which it must end -/
  fail : Option Nat := none
deriving DecidableEq, Repr

/-- A frame in the hold area (R245): port it came through, header, payload. -/
structure HeldFrame where
  port : Nat
  hdr : Nat
  data : List Byte
deriving DecidableEq, Repr

/-- A report to PWR of a completed operation's slack (R257): communicator, last rank, WAIT_NS. -/
structure Slack where
  comm : Nat
  rank : Nat
  wait : Nat
deriving DecidableEq, Repr

/-- A die's collective engine: descriptors delivered, operations accepted and waiting, operations running, held frames. -/
structure ColEngine where
  queue : List DieOp := []
  waiting : List ColOp := []
  running : List ColOp := []
  hold : List HeldFrame := []
deriving DecidableEq, Repr

/-! ### Camern transport (R341 to R374) -/

/-- A tracker of a message (R359 to R363). The requester of a WRITE and the responder of a READ send its data; the others receive. -/
structure Track where
  conn : Nat
  msg : Nat
  /-- this end is the requester -/
  req : Bool
  /-- this end sends the data -/
  send : Bool
  len : Nat
  /-- device address of byte 0 at this end -/
  addr : Nat
  win : Nat := 0
  winGen : Nat := 0
  winOff : Nat := 0
  /-- die and tally of the bump -/
  bump : Option (Nat × Nat) := none
  /-- serial number of the entry it belongs to, at the requester -/
  entry : Nat := 0
  /-- sending: next packet never sent; packets acknowledged (a bitmap); retransmissions by packet -/
  next : Nat := 0
  acked : Nat := 0
  tries : List (Nat × Nat) := []
  /-- receiving: packets placed (a bitmap), bytes placed, packets since the last ACK entry, TX_TS of the most recently sent packet
  and TIME of its arrival -/
  got : Nat := 0
  count : Nat := 0
  owed : Nat := 0
  ts : Nat := 0
  at_ : Nat := 0
deriving DecidableEq, Repr

/-- A started entry (R354, R358, R359): queue, descriptor, serial number, messages started, messages ended DONE and their bytes, its
status once a message has ended otherwise, and the connection's tenant slot. -/
structure XEntry where
  queue : Nat
  desc : Nat
  serial : Nat
  tenant : Nat
  started : Nat := 0
  ended : Nat := 0
  bytes : Nat := 0
  status : Nat := 0
  /-- it has been executed (cut into messages, or a SIGNAL done) -/
  run : Bool := false
deriving DecidableEq, Repr

/-- A completion record of a work queue that waits for room: queue, OP_ID, status, opcode, bytes. -/
structure XRecord where
  queue : Nat
  opId : Nat
  status : Nat
  opcode : Nat
  bytes : Nat
deriving DecidableEq, Repr

/-- A packet in the miss buffer (R350): connection, port, frame, TIME of arrival. -/
structure Missed where
  conn : Nat
  port : Nat
  frame : Frame
  since : Nat
deriving DecidableEq, Repr

/-- What the XPT holds beside its registers. -/
structure Xpt where
  /-- resident contexts (R345), by connection: 256-byte images -/
  ctx : List (Nat × Option Nat) := []
  /-- resident connections, least recently used first -/
  lru : List Nat := []
  /-- contexts being written back -/
  writing : List (Nat × Nat) := []
  /-- connections to fetch, and fetches under way -/
  wanted : List Nat := []
  fetching : List Nat := []
  missed : List Missed := []
  /-- KEY_ID and tenant slot of every context that is not FREE, by connection -/
  live : List (Nat × Option (Nat × Nat)) := []
  /-- connections whose KEY and SALT Onyx has written (R407) -/
  keyed : List Nat := []
  /-- CONNECTs or CLOSEs sent without an answer, by connection; none: none sent -/
  sent : List (Nat × Option Nat) := []
  /-- status carried by the CLOSE that CLOSING contexts retransmit is DONE; path used last, by connection -/
  path : List (Nat × Nat) := []
  tracks : List Track := []
  entries : List XEntry := []
  /-- serial number of the next started entry -/
  serial : Nat := 0
  /-- producer index by queue; sequence number of the next record by queue -/
  tails : List (Nat × Nat) := []
  seqs : List (Nat × Nat) := []
  records : List XRecord := []
  /-- entries delivered to the beat queues, by die -/
  beat : List (Nat × List DieOp) := []
  /-- windows (R351): 32-byte images -/
  wins : List (Nat × Nat) := []
  /-- a window command runs: index, command -/
  winCmd : Option (Nat × Nat) := none
deriving DecidableEq, Repr

/-- The state of the block. -/
structure State where
  /-- the commands that wait, first in first out -/
  pending : List Instr := []
  /-- every register field of every page, by the bit address of its lowest bit; unlisted: the field's reset value -/
  regs : List (Nat × Nat) := []
  hub : Hub := {}
  /-- TIM.TIME (R163) -/
  time : BitVec 64 := 0
  tbase : TimeBase := {}
  /-- how many free values have been drawn: the model's own counter, of which no rule speaks (log 2) -/
  freeCtr : Nat := 0
  /-- the output pins that are asserted -/
  outPins : List Pin := []
  /-- what has left the package, oldest first -/
  out : List Out := []
  /-- host memory, the environment's: the bytes written, by host address (the Boxroom behind the UCIe modules); an unlisted byte
  reads as `Config.hostByte` -/
  hostMem : List (Nat × Option Byte) := []
  /-- nanoseconds since the release of reset -/
  uptime : Nat := 0
  log : EventLog := {}
  boot : Boot := {}
  /-- Shelf bytes, by `tile × 2^21 + offset` (R84); zero until written (zeroed at boot, log 6) -/
  shelf : List (Nat × Byte) := []
  tiles : List (Nat × Tile) := []
  /-- summary messages in flight, oldest first -/
  summaries : List Summary := []
  /-- what each summary slot (`core × 32 + slot`) holds: the entries by tile (R139) -/
  slotHeld : List (Nat × List (Nat × List Word)) := []
  /-- TIME at which each slot last became COMPLETE -/
  slotDone : List (Nat × Nat) := []
  agate : Agate := {}
  pwr : Power := {}
  host : HostIf := {}
  tiers : Tiers := {}
  attic : Attic := {}
  onyx : Onyx := {}
  net : Net := {}
  /-- the collective engines, by die -/
  col : List (Nat × ColEngine) := []
  /-- slack reports on their way to PWR, oldest first -/
  slack : List Slack := []
  xpt : Xpt := {}
deriving DecidableEq, Repr

/-- The state right after reset: every register field at its reset value, every block empty, no command waiting. -/
def State.reset : State := {}

end Sys2Proof.Machine
end

