-- ==== Sys2Proof/Machine/Ops.lean ====
section
/-! DEFINITION. The shared operations: reading and writing register fields, the events of a page (R38, R39), the host event
ring (R385), MSI-X messages (R386), and how the register hub decides a write (R28 to R46). -/

namespace Sys2Proof.Machine

/-! ### Register fields -/

/-- The value of a register field. -/
def State.fget (s : State) (p : Page) (f : Fld) : Nat := Store.get f.reset s.regs (f.key p)

/-- The state with a register field set (to the field's width). -/
def State.fput (s : State) (p : Page) (f : Fld) (v : Nat) : State :=
  { s with regs := Store.set f.reset s.regs (f.key p) (v % 2 ^ f.width) }

/-- A counter advanced, held at its largest value (R39). -/
def State.bump (s : State) (p : Page) (f : Fld) (n : Nat) : State :=
  s.fput p f (satAdd f.width (s.fget p f) n)

/-- A one-bit field set or cleared. -/
def State.fset (s : State) (p : Page) (f : Fld) (b : Bool) : State := s.fput p f b.toNat

/-- A one-bit field read as a truth value. -/
def State.fon (s : State) (p : Page) (f : Fld) : Bool := s.fget p f == 1

/-! ### Bytes and free values -/

/-- A free value: the next one of the unnamed sequence (log 2). -/
def State.draw (s : State) : Nat × State := (Config.free s.freeCtr, { s with freeCtr := s.freeCtr + 1 })

/-- `n` bytes of host memory. -/
def State.hostRead (s : State) : Nat → Nat → List Byte
  | _, 0 => []
  | a, n + 1 => (Store.get none s.hostMem a).getD (Config.hostByte a) :: s.hostRead (a + 1) n

/-- Bytes put into host memory. -/
def State.hostWrite (s : State) : Nat → List Byte → State
  | _, [] => s
  | a, b :: bs => State.hostWrite { s with hostMem := Store.set none s.hostMem a (some b) } (a + 1) bs

/-! ### Pages -/

/-- The host-control page. -/
def pgHst : Page := ⟨.hst, 0⟩

/-- The block of a page takes new work (CTRL.ENABLE, R43). -/
def State.enabled (s : State) (p : Page) : Bool := s.fon p F.com.ENABLE

/-- The page is isolated (R40). -/
def State.isolated (s : State) (p : Page) : Bool := s.fon p F.com.ISOLATED

/-- A soft reset of the page is running (R45). -/
def State.resetting (s : State) (p : Page) : Bool := s.fon p F.com.RESET_BUSY

/-- The page types of the first 1 MiB of the BAR and the Seam page, by address (R31). -/
def globalPages : List PageType :=
  [.hst, .lnk, .mbx, .ks, .pwr, .ops, .thr, .dom, .wake, .tim, .servo, .atc, .slot, .elog, .tir, .mq, .mgt, .xpt,
   .cong, .ctx, .win, .cel, .rgn, .eth, .gl, .ms, .seam]

/-- The page of type `ty` that holds BAR address `a`, for the types whose pages lie one after another. -/
def pageIndex (a : Nat) (ty : PageType) : Option Page :=
  let first := (Page.mk ty 0).base
  if first ≤ a ∧ a < first + ty.count * 0x1000 then some ⟨ty, (a - first) / 0x1000⟩ else none

/-- The page of die `d` at offset `o` of the die's block (R31). -/
def diePageAt (d o : Nat) : Option Page :=
  if o / 0x1000 < 10 then
    some ⟨([PageType.agt, .late, .ccr, .dp, .col, .comm, .mxe, .vec, .vst, .net].getD (o / 0x1000) .agt), d⟩
  else if 0x10000 ≤ o ∧ o < 0x20000 then some ⟨.tal, 16 * d + (o - 0x10000) / 0x1000⟩ else none

/-- The register page that holds BAR address `a`; none where the page index leaves the slot empty (R28, R31). -/
def pageAt (a : Nat) : Option Page :=
  if 0x1000000 ≤ a ∧ a < 0x1400000 then
    let g := (a - 0x1000000) / 0x10000
    let k := (a % 0x10000) / 0x1000
    if k = 0 then some ⟨.seq, g⟩ else if k ≤ 4 then some ⟨.til, 4 * g + (k - 1)⟩ else none
  else if 0x2000000 ≤ a ∧ a < 0x2400000 then some ⟨.jq, (a - 0x2000000) / 0x1000⟩
  else if 0x100000 ≤ a ∧ a < 0x180000 then diePageAt ((a - 0x100000) / 0x40000) ((a - 0x100000) % 0x40000)
  else globalPages.findSome? (pageIndex a)

/-! ### MSI-X (R386) -/

/-- A word of the MSI-X table as reset leaves it: vector control masks the vector (PRESUMED: PCIe, log 9). -/
def msixReset (k : Nat) : Nat := if k % 4 = 3 then 1 else 0

/-- Word `k` of the MSI-X table. -/
def State.msixWord (s : State) (k : Nat) : Nat := Store.get (msixReset k) s.hub.msix k

/-- The lowest-numbered module that is UP, or `m` itself where it is UP (R378). -/
def State.moduleFor (s : State) (m : Nat) : Nat :=
  let up := s.fget pgHst F.hst.HOST_STAT_MODULES_UP
  if bitAt up m then m else ((List.range 4).find? (bitAt up)).getD m

/-- Vector `v` raised through module `m`: a message, or the pending bit where the vector is masked. -/
def State.raiseVector (s : State) (m v : Nat) : State :=
  if s.msixWord (4 * v + 3) % 2 = 1 then
    { s with hub.pba := Store.set false s.hub.pba v true }
  else
    { s with out := s.out ++ [.msi (s.moduleFor m) (s.msixWord (4 * v) + 2 ^ 32 * s.msixWord (4 * v + 1)) (s.msixWord (4 * v + 2))] }

/-- A word of the MSI-X table written; unmasking a pending vector sends its message. -/
def State.msixWrite (s : State) (k v : Nat) : State :=
  let s := { s with hub.msix := Store.set (msixReset k) s.hub.msix k (v % 2 ^ 32) }
  let n := k / 4
  if k % 4 = 3 ∧ v % 2 = 0 ∧ Store.get false s.hub.pba n then
    State.raiseVector { s with hub.pba := Store.set false s.hub.pba n false } 0 n
  else s

/-! ### Events (R38, R39) and the event ring (R385) -/

/-- The EVT_STAT bits a page type can set: the common ones and those its chapter defines (R38). -/
def definedEvents (p : Page) : Nat :=
  let upTo (n : Nat) : Nat := 2 ^ n - 2 ^ 8
  0xF + match p.ty with
    | .mxe | .vec | .net | .seam | .hst | .mq | .win | .elog => upTo 10
    | .tim | .comm => upTo 9
    | .til => upTo 17
    | .servo | .cel | .atc | .gl | .xpt | .lnk | .jq | .mbx | .ks => upTo 11
    | .ms => upTo 10
    | .agt => upTo 14
    | .col => upTo 15 - 2 ^ 8
    | .tir | .pwr | .ccr => upTo 12
    | .eth => if p.inst = 0 then upTo 16 else upTo 14
    | _ => 0

/-- The page's event line: some set event is unmasked (R38). -/
def State.lineHigh (s : State) (p : Page) : Bool :=
  (s.fget p F.com.EVT_STAT &&& (2 ^ 32 - 1 - s.fget p F.com.EVT_MASK)) != 0

/-- The page type reports to the host event queue (EVT_ROUTE, R385). -/
def State.routed (s : State) (p : Page) : Bool := bitAt (s.fget pgHst F.hst.EVT_ROUTE_ROUTE) p.ty.code

/-- The event ring has no room: HEAD + 1 equals TAIL modulo the ring size (log 10). -/
def State.eqFull (s : State) : Bool :=
  let n := 2 ^ s.fget pgHst F.hst.EQ_CFG_LOG2
  (s.fget pgHst F.hst.EQ_HEAD_HEAD + 1) % n == s.fget pgHst F.hst.EQ_TAIL_TAIL % n

/-- EVT_CAUSE of a page as one word. -/
def State.causeWord (s : State) (p : Page) : Nat :=
  placeAt 0 0 5 (s.fget p F.com.CAUSE_FIRST_BIT) + placeAt 0 5 1 (s.fget p F.com.CAUSE_FORCED)
  + placeAt 0 7 1 (s.fget p F.com.CAUSE_VALID) + placeAt 0 8 8 (s.fget p F.com.CAUSE_STATUS)
  + placeAt 0 16 12 (s.fget p F.com.CAUSE_DETAIL)

/-- The event record of page `p` (R385). -/
def State.eventRecord (s : State) (p : Page) : Nat :=
  withCheck 32 (placeAt 0 0 26 p.base + placeAt 0 31 1 (!s.hub.eqPass).toNat + placeAt 4 0 32 (s.fget p F.com.EVT_STAT)
    + placeAt 8 0 32 (s.causeWord p) + placeAt 0x10 0 64 s.time.toNat + placeAt 0x18 0 32 s.hub.eqSeq)

/-- A record written to host memory through module `m`, remembered for the 10 µs in which a loss of the module has it rewritten
(R378). -/
def State.putIssued (s : State) (m a : Nat) (bytes : List Byte) : State :=
  { s.hostWrite a bytes with
      host.issued := (s.uptime, m, a, bytes) :: s.host.issued.filter fun r => s.uptime ≤ r.1 + 10000 }

/-- The record of page `p` put into the event ring, with the message of the ring's vector. -/
def State.eqPut (s : State) (p : Page) : State :=
  let n := 2 ^ s.fget pgHst F.hst.EQ_CFG_LOG2
  let h := s.fget pgHst F.hst.EQ_HEAD_HEAD % n
  let s1 := s.putIssued (s.moduleFor (s.fget pgHst F.hst.EQ_CFG_MODULE)) (s.fget pgHst F.hst.EQ_BASE_ADDR + 32 * h)
    (leBytes 32 (s.eventRecord p))
  let s2 := s1.fput pgHst F.hst.EQ_HEAD_HEAD ((h + 1) % n)
  let s3 := { s2 with hub.eqSeq := (s.hub.eqSeq + 1) % 2 ^ 32,
                      hub.eqPass := if h + 1 = n then !s.hub.eqPass else s.hub.eqPass,
                      hub.unreported := s2.hub.unreported.filter (· ≠ p.base) }
  if s.fon pgHst F.hst.EQ_CFG_IRQ_EN
  then s3.raiseVector (s.fget pgHst F.hst.EQ_CFG_MODULE) (s.fget pgHst F.hst.EQ_CFG_VECTOR) else s3

/-- Events set in EVT_STAT, with EVT_CAUSE captured while VALID = 0 (R39). -/
def State.setStat (s : State) (p : Page) (evs : Nat) (forced : Bool) (status detail : Nat) : State :=
  let s1 := s.fput p F.com.EVT_STAT (s.fget p F.com.EVT_STAT ||| evs)
  if s.fon p F.com.CAUSE_VALID ∨ evs = 0 then s1 else
    let first := ((List.range 32).find? (bitAt evs)).getD 0
    ((((s1.fput p F.com.CAUSE_FIRST_BIT first).fset p F.com.CAUSE_FORCED forced).fset p F.com.CAUSE_VALID true).fput p
      F.com.CAUSE_STATUS status).fput p F.com.CAUSE_DETAIL detail

/-- A rise of page `p`'s line reported to the host event queue: a record, or EQ_OVERFLOW where the ring is full. -/
def State.report (s : State) (p : Page) : State :=
  if !s.routed p then s
  else if s.eqFull then
    { s.bump pgHst F.hst.EQ_OVERFLOW_COUNT 1 with hub.unreported := p.base :: s.hub.unreported.filter (· ≠ p.base) }
  else s.eqPut p

/-- The host-control page's own event after a report: EQ_RECORD (8) or EQ_OVERFLOW (9), itself reported where routed. -/
def State.hostEvent (s : State) (evs : Nat) : State :=
  let s1 := s.setStat pgHst evs false 0 0
  if !s.lineHigh pgHst && s1.lineHigh pgHst then s1.report pgHst else s1

/-- The report of a line that has risen, with the event it raises on the host-control page. -/
def State.lineRose (s : State) (p : Page) : State :=
  if !s.routed p then s
  else if s.eqFull then (s.report p).hostEvent (2 ^ 9) else (s.report p).hostEvent (2 ^ 8)

/-- What follows a change of EVT_STAT or EVT_MASK from state `s0` to `s`: a rise of the page's line is reported (R385). -/
def State.afterLine (s : State) (s0 : State) (p : Page) : State :=
  if !s0.lineHigh p && s.lineHigh p then s.lineRose p
  else if s0.lineHigh p && !s.lineHigh p then { s with hub.unreported := s.hub.unreported.filter (· ≠ p.base) }
  else s

/-- Event bits raised on a page, each of them a defined event (R38). -/
def State.events (s : State) (p : Page) (evs : Nat) (status : Nat := 0) (detail : Nat := 0) : State :=
  (s.setStat p evs false status detail).afterLine s p

/-- One event raised on a page. -/
def State.event (s : State) (p : Page) (b : Nat) (status : Nat := 0) (detail : Nat := 0) : State :=
  s.events p (2 ^ b) status detail

/-- EVT_FORCE: the defined bits among those written set, without counting (R38). -/
def State.force (s : State) (p : Page) (bits : Nat) : State :=
  (s.setStat p (bits &&& definedEvents p) true 0 0).afterLine s p

/-- EVT_STAT cleared where written as 1; VALID falls when no event stays set (R39). -/
def State.clearEvents (s : State) (p : Page) (bits : Nat) : State :=
  let left := s.fget p F.com.EVT_STAT &&& (2 ^ 32 - 1 - bits % 2 ^ 32)
  let s1 := s.fput p F.com.EVT_STAT left
  (if left = 0 then s1.fset p F.com.CAUSE_VALID false else s1).afterLine s p

/-- Records written while the ring has room for the routed pages whose line is high and not yet reported (R385): at most
`n`, oldest first. -/
def State.drainUnreported : Nat → State → State
  | 0, s => s
  | n + 1, s =>
    match s.hub.unreported.getLast? with
    | none => s
    | some b =>
      if s.eqFull then s else
      match pageAt b with
      | none => s
      | some p => State.drainUnreported n ((s.eqPut p).hostEvent (2 ^ 8))

/-! ### Refused accesses -/

/-- An access counted as rejected on the host-control page: HST.EVT_CNT7 (R28, R29, R40). -/
def State.hostReject (s : State) : State := s.bump pgHst (F.com.EVT_CNT 7) 1

/-- A write discarded by page `p`: counted once in EVT_CNT7, with the reasons' event bits and its offset (R42). -/
def State.discard (s : State) (p : Page) (off evs : Nat) : State :=
  let s1 := s.bump p (F.com.EVT_CNT 7) 1
  if evs = 0 then s1 else s1.events p evs 0 off

/-- What any access of a requester does to its split holds (R29): a captured high half is released; a held low half that the
access does not complete is discarded and counted as rejected by its page. -/
def State.releaseHolds (s : State) (r : Requester) : State :=
  let s1 := match Store.get none s.hub.held r.key with
    | none => s
    | some (a, _) =>
      let s' := match pageAt a with
        | some p => s.bump p (F.com.EVT_CNT 7) 1
        | none => s.hostReject
      { s' with hub.held := Store.set none s'.hub.held r.key none }
  { s1 with hub.captured := Store.set none s1.hub.captured r.key none }

/-- Whether a page, or one of its registers, takes writes from control cores only (R285, R306, R372, R374, R415, R467, R468,
R282, R283). -/
def coreOnly (p : Page) (off : Nat) : Bool :=
  match p.ty with
  | .rgn | .ctx => true
  | .slot => 0x100 ≤ off && off % 32 == 0x18
  | .win => off == 0x040
  | .elog => off == 0x0A0 || off == 0x0A4 || off == 0x0A8
  | .ccr => off == 0x044 || off == 0x048 || off == 0x058
  | .tir => off == 0x040 || off == 0x044
  | .mq => (0x070 ≤ off && off < 0x080) || (0x088 ≤ off && off < 0x094) || off == 0x098
  | _ => false

/-- The package is in STANDBY (R436). -/
def State.inStandby (s : State) : Bool := s.fget ⟨.pwr, 0⟩ F.pwr.PWR_STATE_STATE == 3

/-- The admission of a command's register write to page `p` at offset `off` (R40, R45, the job queues in STANDBY of R438, and the pages
that take writes from control cores only): the state to act on, or the state after the write was turned away. -/
def State.hubAdmit (s : State) (r : Requester) (p : Page) (off : Nat) (act : State → State) : State :=
  let s := s.releaseHolds r
  if s.isolated p then s.hostReject
  else if s.resetting p || (p.ty == .jq && s.inStandby) then s.bump p (F.com.EVT_CNT 7) 1
  else if coreOnly p off && !r.isCore then s.hostReject
  else act s

/-! ### Status codes -/

/-- The status codes of R48. -/
def stDone : Nat := 0x00
def stLenRange : Nat := 0x01
def stAddrRange : Nat := 0x02
def stAccess : Nat := 0x03
def stWindowRevoked : Nat := 0x04
def stTierLate : Nat := 0x05
def stTierFail : Nat := 0x06
def stKeyRetired : Nat := 0x07
def stFormat : Nat := 0x08
def stVersion : Nat := 0x09
def stSaturated : Nat := 0x0A
def stNonfinite : Nat := 0x0B
def stAborted : Nat := 0x0C
def stTimeout : Nat := 0x0D
def stReservedSet : Nat := 0x0E
def stAuth : Nat := 0x0F
def stLate : Nat := 0x10
def stFenced : Nat := 0x11
/-- The block-specific status CHECK_FAILED that every block gives an uncorrectable check error. -/
def stCheckFailed : Nat := 0x80

/-- The status of completed work (R50): NONFINITE before SATURATED before LATE. -/
def completedStatus (nonfinite saturated late : Bool) : Nat :=
  if nonfinite then stNonfinite else if saturated then stSaturated else if late then stLate else stDone

/-- A version is accepted: its GEN_MASK bit is set (0x0002 on every page of this device, R46) and it is no greater than the
page's VERSION_SELECT (R47). -/
def State.versionOk (s : State) (p : Page) (v : Nat) : Bool := bitAt 0x0002 v && v ≤ s.fget p F.com.VERSION_SELECT

/-- The first failing check of an ordered list of (fails, status) (R49). -/
def firstFailure : List (Bool × Nat) → Option Nat
  | [] => none
  | (b, st) :: rest => if b then some st else firstFailure rest

end Sys2Proof.Machine
end

