-- ==== Sys2Proof/Machine/Log.lean ====
section
/-! DEFINITION. The event log (R460 to R463): offering an entry, the program that writes it, reading one back. -/

namespace Sys2Proof.Machine

def pgElog : Page := ⟨.elog, 0⟩

/-- The codes of R463. -/
def lcBootStage : Nat := 1
def lcBootFail : Nat := 2
def lcGroupUnqualified : Nat := 3
def lcFmaxDrift : Nat := 4
def lcSpareMapped : Nat := 5
def lcConfigBad : Nat := 6
def lcDieFault : Nat := 7
def lcFatal : Nat := 8
def lcWatchdog : Nat := 9
def lcPowerFail : Nat := 0xA
def lcStoreUncorrectable : Nat := 0xB
def lcSelectorEmpty : Nat := 0xC
def lcTenantState : Nat := 0xD
def lcAtticChange : Nat := 0xE
def lcThermalTrip : Nat := 0xF
def lcTwinState : Nat := 0x10
def lcDebugGrant : Nat := 0x11

/-- The image of an entry (R460). -/
def State.logImage (s : State) (e : LogEntry) (seq : Nat) : Nat :=
  withCheck 32 (placeAt 0 0 64 e.stamp + placeAt 8 0 32 seq + placeAt 0xC 0 12 e.ptype + placeAt 0xC 16 8 e.inst
    + placeAt 0xC 31 1 e.up.toNat + placeAt 0x10 0 16 e.code + placeAt 0x10 16 8 e.status
    + placeAt 0x10 24 8 (min 255 s.log.dropped) + placeAt 0x14 0 32 e.detail
    + placeAt 0x18 0 16 (s.fget pgElog F.elog.BOOT_PROGRESS_BOOT))

/-- The program of an entry begins (R461); after a power-fail warning none does but a POWER_FAIL entry's (R464). -/
def State.logStart (s : State) (e : LogEntry) : State :=
  let seq := (s.fget pgElog F.elog.LOG_HEAD_SEQ + 1 + s.log.torn) % 2 ^ 32
  { s with log.prog := some (seq, s.logImage e seq), log.dropped := 0 }.fset pgElog F.elog.LOG_STAT_BUSY true

/-- An entry suppressed and counted (R461). -/
def State.logDrop (s : State) : State :=
  ({ s with log.dropped := min 255 (s.log.dropped + 1) }.bump pgElog F.elog.LOG_DROPPED_COUNT 1).event pgElog 9

/-- An entry offered while the log may be idle or busy (R461, R462). -/
def State.logOffer (s : State) (e : LogEntry) : State :=
  if s.log.pwrFail ∧ e.code ≠ lcPowerFail then s.logDrop
  else if s.log.prog.isNone then s.logStart e
  else if e.code = lcFatal ∨ e.code = lcPowerFail then { s with log.wait := s.log.wait ++ [e] }
  else if !s.log.open_ && s.log.wait.length < 64 then { s with log.wait := s.log.wait ++ [e] }
  else s.logDrop

/-- An entry of source page `p` (`src` tells apart what shares a page), subject to one per CODE and LOG_RATE µs (R462). -/
def State.logFrom (s : State) (p : Page) (inst src code status detail : Nat) : State :=
  let key := 2 ^ 16 * (16 * p.base + src) + code
  let last := Store.get 0 s.log.last key
  if s.log.open_ && last != 0 && s.uptime < last - 1 + 1000 * s.fget pgElog F.elog.LOG_RATE_US then s.logDrop
  else
    let e : LogEntry := ⟨p.ty.code, inst, code, status, detail % 2 ^ 32, if s.tbase.set then s.time.toNat else s.uptime / 1000,
      !s.tbase.set⟩
    { s with log.last := Store.set 0 s.log.last key (s.uptime + 1) }.logOffer e

/-- An entry of a page. -/
def State.logEvent (s : State) (p : Page) (code : Nat) (status : Nat := 0) (detail : Nat := 0) : State :=
  s.logFrom p p.inst 0 code status detail

/-- The program of an entry ends (R461): it is the newest; the next that waits begins. -/
def State.logDone (s : State) : State :=
  match s.log.prog with
  | none => s
  | some (seq, img) =>
    let s := { s with log.prog := none, log.torn := 0, log.entries := Store.set none s.log.entries seq (some img) }
    let s := s.fput pgElog F.elog.LOG_HEAD_SEQ seq
    let s := s.fput pgElog F.elog.LOG_OLDEST_SEQ (max (s.fget pgElog F.elog.LOG_OLDEST_SEQ) ((seq / 4096 - 16) * 4096))
    let s := (s.bump pgElog F.elog.LOG_WRITES_COUNT 1).fset pgElog F.elog.LOG_STAT_BUSY false
    let s := s.event pgElog 8
    match s.log.wait with
    | [] => s
    | e :: rest =>
      if s.log.pwrFail ∧ e.code ≠ lcPowerFail then s else { s with log.wait := rest }.logStart e

/-- The image of the entry with a SEQ, if it is retained and not torn. -/
def State.logAt (s : State) (seq : Nat) : Option Nat :=
  let img := (Store.get none s.log.entries seq).getD (Config.logEntry seq % 2 ^ 256)
  if seq < s.fget pgElog F.elog.LOG_OLDEST_SEQ ∨ s.fget pgElog F.elog.LOG_HEAD_SEQ < seq then none
  else match checkStruct 32 img with
    | .clean d => if fieldAt d 8 0 32 = seq then some img else none
    | .corrected d => if fieldAt d 8 0 32 = seq then some img else none
    | .failed => none

/-- LOG_PROGRAM_DONE (R461). -/
def execLogProgramDone (s : State) : Host.Outcome State Fault Refusal := .next s.logDone

/-- LOG_ADD (R462, R467): a control core's write of LOG_ADD offers an entry of its own CCR page. -/
def execLogAdd (r : Requester) (code : BitVec 16) (status : BitVec 8) (s : State) : Host.Outcome State Fault Refusal :=
  .next (s.hubAdmit r pgElog 0xA4 fun s =>
    let c := r.key - 4
    s.logFrom ⟨.ccr, c / 2⟩ c (1 + c % 2) code.toNat status.toNat (s.fget pgElog F.elog.LOG_ADD_DETAIL_DETAIL))

/-- LOG_READ (R467): a write of LOG_READ shows the entry in LOG_DATA, or MISSING. -/
def execLogRead (r : Requester) (seq : BitVec 32) (s : State) : Host.Outcome State Fault Refusal :=
  .next (s.hubAdmit r pgElog 0x6C fun s =>
    let s := s.fput pgElog F.elog.LOG_READ_SEQ seq.toNat
    match s.logAt seq.toNat with
    | none => (s.fset pgElog F.elog.LOG_STAT_READ_VALID false).fset pgElog F.elog.LOG_STAT_MISSING true
    | some img =>
      let s := (s.fset pgElog F.elog.LOG_STAT_READ_VALID true).fset pgElog F.elog.LOG_STAT_MISSING false
      (List.range 8).foldl (fun s k => s.fput pgElog (F.elog.LOG_DATA_ENTRY k) (fieldAt img (4 * k) 0 32)) s)

end Sys2Proof.Machine
end

