-- ==== Sys2Proof/Machine/Numbers.lean ====
section
/-! DEFINITION. The number formats: FP32 with one rounding of the exact result (R57 to R59), the block-integer formats
(R61 to R64), conversion (R65 to R69) and the integers that saturate (R56). An exact value is `m × 2^e`. -/

namespace Sys2Proof.Machine

/-- What an FP32 pattern stands for: `fin m e` is `m × 2^e`; a zero carries its sign. -/
inductive Fp where
  | nan
  | inf (neg : Bool)
  | zero (neg : Bool)
  | fin (m : Int) (e : Int)
deriving DecidableEq, Repr

/-- The canonical quiet NaN (R59). -/
def fpNaN : Word := 0x7FC00000#32
/-- An infinity. -/
def fpInf (neg : Bool) : Word := if neg then 0xFF800000#32 else 0x7F800000#32
/-- A zero. -/
def fpZero (neg : Bool) : Word := if neg then 0x80000000#32 else 0#32

/-- FP32 decoded; subnormals are values like any other (R58). -/
def fpOf (w : Word) : Fp :=
  let n := w.toNat
  let neg := 2 ^ 31 ≤ n
  let ex := bitsOf n 23 8
  let fr := n % 2 ^ 23
  let sg (m : Nat) : Int := if neg then -(m : Int) else m
  if ex = 255 then (if fr = 0 then .inf neg else .nan)
  else if ex = 0 then (if fr = 0 then .zero neg else .fin (sg fr) (-149))
  else .fin (sg (fr + 2 ^ 23)) ((ex : Int) - 150)

/-- A NaN or an infinity. -/
def fpNonfinite (w : Word) : Bool := bitsOf w.toNat 23 8 == 255

/-- A NaN. -/
def fpIsNaN (w : Word) : Bool := fpNonfinite w && w.toNat % 2 ^ 23 != 0

/-- `n / 2^sh` rounded to nearest, ties to even. -/
def rneShift (n sh : Nat) : Nat :=
  if Nat.log2 n + 1 < sh then 0 else
  let q := n >>> sh
  let rest := n % 2 ^ sh
  let half := 2 ^ sh
  if 2 * rest > half ∨ (2 * rest = half ∧ q % 2 = 1) then q + 1 else q

/-- The FP32 pattern nearest to `m × 2^e` (`m > 0`), ties to even; beyond the range an infinity (R57, R73). -/
def fpRoundMag (m : Nat) (e : Int) : Nat :=
  let top : Int := (Nat.log2 m : Int) + e
  let q : Int := max (top - 23) (-149)
  let n := if q ≤ e then m <<< (e - q).toNat else rneShift m (q - e).toNat
  let (n, q) := if n = 2 ^ 24 then (2 ^ 23, q + 1) else (n, q)
  if n < 2 ^ 23 then n
  else
    let ex := q + 150
    if ex ≥ 255 then 255 * 2 ^ 23 else ex.toNat * 2 ^ 23 + (n - 2 ^ 23)

/-- The exact value `m × 2^e` rounded once to FP32; an exact zero takes the sign given. -/
def fpRound (m : Int) (e : Int) (zeroNeg : Bool := false) : Word :=
  if m = 0 then fpZero zeroNeg
  else BitVec.ofNat 32 ((if m < 0 then 2 ^ 31 else 0) + fpRoundMag m.natAbs e)

/-- `2^k` times an integer, for a shift that is not negative. -/
def shiftInt (m : Int) (k : Int) : Int := m * (2 ^ k.toNat : Nat)

/-- The sum of two exact values, as one exact value. -/
def dyAdd (m1 e1 m2 e2 : Int) : Int × Int :=
  let e := min e1 e2
  (shiftInt m1 (e1 - e) + shiftInt m2 (e2 - e), e)

/-- The exact value of a finite number or zero. -/
def fpExact : Fp → Int × Int
  | .fin m e => (m, e)
  | _ => (0, 0)

/-- The sign of a value that is not a NaN. -/
def fpNeg : Fp → Bool
  | .inf n => n
  | .zero n => n
  | .fin m _ => m < 0
  | .nan => false

/-- The sum of an exact value (with the sign a zero of it has) and a number, rounded once: addition and the last step of a
fused multiply-add (R57, R59). -/
def fpAddExact (a b : Fp) : Word :=
  match a, b with
  | .nan, _ => fpNaN
  | _, .nan => fpNaN
  | .inf x, .inf y => if x = y then fpInf x else fpNaN
  | .inf x, _ => fpInf x
  | _, .inf y => fpInf y
  | .zero x, .zero y => fpZero (x && y)
  | a, b =>
    let (m1, e1) := fpExact a
    let (m2, e2) := fpExact b
    let (m, e) := dyAdd m1 e1 m2 e2
    fpRound m e false

/-- The exact product of two numbers (R59). -/
def fpMulExact (a b : Fp) : Fp :=
  let s := fpNeg a != fpNeg b
  match a, b with
  | .nan, _ => .nan
  | _, .nan => .nan
  | .inf _, .zero _ => .nan
  | .zero _, .inf _ => .nan
  | .inf _, _ => .inf s
  | _, .inf _ => .inf s
  | .zero _, _ => .zero s
  | _, .zero _ => .zero s
  | .fin m1 e1, .fin m2 e2 => .fin (m1 * m2) (e1 + e2)

/-- An exact value as FP32. -/
def fpPack : Fp → Word
  | .nan => fpNaN
  | .inf n => fpInf n
  | .zero n => fpZero n
  | .fin m e => fpRound m e

/-- FP32 addition. -/
def fpAdd (x y : Word) : Word := fpAddExact (fpOf x) (fpOf y)

/-- The number with its sign turned; a NaN stays a NaN. -/
def fpFlip : Fp → Fp
  | .nan => .nan
  | .inf n => .inf (!n)
  | .zero n => .zero (!n)
  | .fin m e => .fin (-m) e

/-- FP32 subtraction. -/
def fpSub (x y : Word) : Word := fpAddExact (fpOf x) (fpFlip (fpOf y))

/-- FP32 multiplication. -/
def fpMul (x y : Word) : Word := fpPack (fpMulExact (fpOf x) (fpOf y))

/-- Fused multiply-add `x × y + z`, one rounding. -/
def fpFma (x y z : Word) : Word := fpAddExact (fpMulExact (fpOf x) (fpOf y)) (fpOf z)

/-- The total order of the numbers that are not NaNs, with −0 below +0 (R59), as an integer. -/
def fpOrder (w : Word) : Int :=
  let n := w.toNat
  if 2 ^ 31 ≤ n then -((n - 2 ^ 31 : Nat) : Int) - 1 else (n : Int)

/-- Maximum (R59). -/
def fpMax (x y : Word) : Word :=
  if fpIsNaN x || fpIsNaN y then fpNaN else if fpOrder x < fpOrder y then y else x

/-- Minimum (R59). -/
def fpMin (x y : Word) : Word :=
  if fpIsNaN x || fpIsNaN y then fpNaN else if fpOrder y < fpOrder x then y else x

/-- `x < y` as numbers (the zeros are equal); false with a NaN. -/
def fpLt (x y : Word) : Bool :=
  match fpOf x, fpOf y with
  | .nan, _ => false
  | _, .nan => false
  | .zero _, .zero _ => false
  | _, _ => fpOrder x < fpOrder y

/-- `x = y` as numbers; false with a NaN. -/
def fpEq (x y : Word) : Bool :=
  match fpOf x, fpOf y with
  | .nan, _ => false
  | _, .nan => false
  | .zero _, .zero _ => true
  | _, _ => x == y

/-- `x ≤ y`; false with a NaN. -/
def fpLe (x y : Word) : Bool := fpLt x y || fpEq x y

/-- Multiplication by `2^k`, rounded once. -/
def fpScale (x : Word) (k : Int) : Word :=
  match fpOf x with
  | .fin m e => fpRound m (e + k)
  | v => fpPack v

/-- The integer square root of `n` below `2^(2·k)`, bit by bit from bit `k − 1`, `r` being what is found above. -/
def isqrtFrom : Nat → Nat → Nat → Nat
  | 0, _, r => r
  | k + 1, n, r =>
    let t := r + 2 ^ k
    isqrtFrom k n (if t * t ≤ n then t else r)

/-- Square root: negative numbers other than −0 give the NaN. -/
def fpSqrt (x : Word) : Word :=
  match fpOf x with
  | .nan => fpNaN
  | .inf n => if n then fpNaN else fpInf false
  | .zero n => fpZero n
  | .fin m e =>
    if m < 0 then fpNaN else
    let (mm, ee) := if e % 2 = 0 then (m.toNat, e) else (2 * m.toNat, e - 1)
    let n := mm <<< 60
    let r := isqrtFrom 44 n 0
    fpRound ((2 * r + (if r * r = n then 0 else 1) : Nat) : Int) (ee / 2 - 31)

/-- Reciprocal, rounded once; a zero gives an infinity of its sign. -/
def fpRecip (x : Word) : Word :=
  match fpOf x with
  | .nan => fpNaN
  | .inf n => fpZero n
  | .zero n => fpInf n
  | .fin m e =>
    let d := m.natAbs
    let q := 2 ^ 60 / d
    let v : Int := ((2 * q + (if q * d = 2 ^ 60 then 0 else 1) : Nat) : Int)
    fpRound (if m < 0 then -v else v) (-61 - e)

/-- Reciprocal square root, rounded once; a zero gives an infinity of its sign, a negative number the NaN. -/
def fpRsqrt (x : Word) : Word :=
  match fpOf x with
  | .nan => fpNaN
  | .inf n => if n then fpNaN else fpZero false
  | .zero n => fpInf n
  | .fin m e =>
    if m < 0 then fpNaN else
    let (mm, ee) := if e % 2 = 0 then (m.toNat, e) else (2 * m.toNat, e - 1)
    let n := 2 ^ 100 / mm
    let r := isqrtFrom 51 n 0
    fpRound ((2 * r + (if r * r * mm = 2 ^ 100 then 0 else 1) : Nat) : Int) (-51 - ee / 2)

/-! ### INT32 (R55, R56) -/

/-- The value of an INT32 word. -/
def i32 (w : Word) : Int := w.toInt

/-- An integer in the low bits of a word. -/
def ofI32 (i : Int) : Word := BitVec.ofInt 32 i

/-- An integer clamped to the `w`-bit signed range, and whether it lay outside. -/
def clampInt (w : Nat) (i : Int) : Int × Bool :=
  let hi : Int := (2 ^ (w - 1) : Nat) - 1
  let lo : Int := -((2 ^ (w - 1) : Nat) : Int)
  if i > hi then (hi, true) else if i < lo then (lo, true) else (i, false)

/-- An INT32 result clamped to its range, and whether it saturated (R56). -/
def sat32 (i : Int) : Word × Bool := let (v, b) := clampInt 32 i; (ofI32 v, b)

/-! ### Rounding exact values to integers -/

/-- `m × 2^e` rounded to nearest, ties to even. -/
def rneInt (m e : Int) : Int :=
  if 0 ≤ e then shiftInt m e
  else
    let n : Int := (rneShift m.natAbs (-e).toNat : Nat)
    if m < 0 then -n else n

/-- `⌊m × 2^e⌋`. -/
def floorInt (m e : Int) : Int := if 0 ≤ e then shiftInt m e else m / ((2 ^ (-e).toNat : Nat) : Int)

/-- R66, `mix`. -/
def ditherMix (h : Nat) : Nat :=
  let h := h ^^^ (h >>> 16)
  let h := h * 0x6A5D39E3 % 2 ^ 32
  let h := h ^^^ (h >>> 15)
  let h := h * 0x94C72B5B % 2 ^ 32
  h ^^^ (h >>> 16)

/-- The 16-bit dither value of an element (R66). -/
def dither (step tid index : Nat) : Nat :=
  let h := ditherMix (step % 2 ^ 32 ^^^ 0x51554E31)
  let h := ditherMix (h ^^^ tid % 2 ^ 32)
  let h := ditherMix (h ^^^ index % 2 ^ 32)
  ditherMix (h ^^^ (index >>> 32) % 2 ^ 32) >>> 16

/-- A rounding mode: NEAREST, or DITHER with the step number and tensor id of R66. -/
inductive Rounding where
  | nearest
  | dither (step tid : Nat)
deriving DecidableEq, Repr

/-- `m × 2^e` rounded to an integer; `index` is the element's logical index (R65, R67, R68). -/
def roundBy (r : Rounding) (index : Nat) (m e : Int) : Int :=
  match r with
  | .nearest => rneInt m e
  | .dither st tid =>
    let (s, x) := dyAdd m e (Sys2Proof.Machine.dither st tid index : Nat) (-16)
    floorInt s x

/-! ### The block-integer formats -/

/-- Format codes (R54). -/
def fmtINT4 : Nat := 1
def fmtINT8 : Nat := 2
def fmtINT32 : Nat := 3
def fmtFP32 : Nat := 4
def fmtQBI4 : Nat := 5
def fmtQBI8 : Nat := 6
def fmtQBI16 : Nat := 7

/-- A code that R54 defines. -/
def fmtKnown (f : Nat) : Bool := 1 ≤ f && f ≤ 7
/-- A block-integer format. -/
def fmtIsQbi (f : Nat) : Bool := 5 ≤ f && f ≤ 7
/-- Element (or mantissa) width in bits. -/
def fmtWidth (f : Nat) : Nat := match f with | 1 => 4 | 2 => 8 | 3 => 32 | 4 => 32 | 5 => 4 | 6 => 8 | 7 => 16 | _ => 8

/-- A block of 64 elements: exponent byte, mantissas, residues. -/
structure QBlock where
  exp : Nat
  man : List Int
  res : List Int
deriving DecidableEq, Repr

/-- The value of a mantissa under exponent byte `E` (R61). -/
def qbiValue (w E : Nat) (m : Int) : Fp :=
  if E = 0 ∨ (E < 255 ∧ m = 0) then .zero false
  else if E = 255 then
    if m = (2 ^ (w - 1) : Nat) - 1 then .inf false else if m = -((2 ^ (w - 1) : Nat) : Int) then .inf true else .nan
  else .fin m ((E : Int) - 127 - ((w : Int) - 1))

/-- The value of a QBI8 element with its residue (R64); the exact sum. -/
def qbi8WithResidue (E : Nat) (m r : Int) : Fp :=
  if E = 255 then qbiValue 8 E m
  else
    let m := if E = 0 then 0 else m
    let v := m * 128 + r
    if v = 0 then .zero false else .fin v ((if E = 0 then (1 : Int) else (E : Int)) - 141)

/-- An exact value times `2^S`, rounded once (R69). -/
def fpPackScaled (v : Fp) (S : Int) : Word :=
  match v with
  | .fin m e => fpRound m (e + S)
  | v => fpPack v

/-- What a conversion of a block gave: the block and the lowest positions that raised a condition. -/
structure QuantResult where
  block : QBlock
  nonfinite : Option Nat
  saturated : Option Nat
deriving DecidableEq, Repr

/-- The lowest index at which a predicate holds. -/
def firstIdx {α : Type} (p : α → Bool) : List α → Nat → Option Nat
  | [], _ => none
  | x :: xs, i => if p x then some i else firstIdx p xs (i + 1)

/-- ⌊log₂⌋ of the magnitude of a finite non-zero number. -/
def fpLog2 (v : Fp) : Int :=
  match v with
  | .fin m e => (Nat.log2 m.natAbs : Int) + e
  | _ => 0

/-- The exponent byte of a block in MAX mode, none where every element is zero (R65). -/
def maxExponent (xs : List Word) : Option Nat :=
  let M := xs.foldl (fun a x => max a (x.toNat % 2 ^ 31)) 0
  if M = 0 then none
  else some (max 1 (min 254 (fpLog2 (fpOf (BitVec.ofNat 32 M)) + 128))).toNat

/-- One element converted under exponent byte `E`: mantissa, residue, saturated (R65). -/
def quantElem (w E : Nat) (rnd : Rounding) (residue : Bool) (index : Nat) (x : Word) : Int × Int × Bool :=
  let (m, e) := fpExact (fpOf x)
  let te : Int := e - ((E : Int) - 127 - ((w : Int) - 1))
  let L : Int := (2 ^ (w - 1) : Nat) - 1
  let n := max (-L) (min L (roundBy rnd index m te))
  let top : Int := (2 ^ (w - 1) : Nat)
  let sat := if 0 ≤ te then decide (top ≤ (shiftInt m te).natAbs) else decide (shiftInt top (-te) ≤ m.natAbs)
  let (dm, de) := dyAdd m te (-n) 0
  let r := if residue then max (-128) (min 127 (rneInt dm (de + 7))) else 0
  (n, r, sat)

/-- R65, `quantise_block`: `xs` with `+0` at padding positions already; `index i` the logical index of element `i`. -/
def quantBlock (xs : List Word) (pads : List Bool) (w : Nat) (preset : Option Nat) (rnd : Rounding) (residue : Bool)
    (index : Nat → Nat) : QuantResult :=
  let xs := List.zipWith (fun x p => if p then 0#32 else x) xs pads
  let zeros := xs.map (fun _ => (0 : Int))
  match firstIdx fpNonfinite xs 0 with
  | some i =>
    let man := xs.map (fun x =>
      match fpOf x with
      | .inf false => ((2 ^ (w - 1) : Nat) : Int) - 1
      | .inf true => -((2 ^ (w - 1) : Nat) : Int)
      | _ => 0)
    ⟨⟨255, man, zeros⟩, some i, none⟩
  | none =>
    let E? := match preset with
      | none => maxExponent xs
      | some e => some (max 1 (min 254 e))
    match E? with
    | none => ⟨⟨0, zeros, zeros⟩, none, none⟩
    | some E =>
      let q := (List.range xs.length).zipWith (fun i x => quantElem w E rnd residue (index i) x) xs
      let sat := firstIdx (fun e : Int × Int × Bool => e.2.2) q 0
      let man := q.map (·.1)
      let res := q.map (·.2.1)
      if man.all (· == 0) && (!residue || res.all (· == 0)) then ⟨⟨0, zeros, zeros⟩, none, sat⟩
      else ⟨⟨E, man, res⟩, none, sat⟩

/-- Conversion to an integer of `w` bits with scale `2^S` (R68): value, non-finite, saturated. -/
def fpToInt (w : Nat) (S : Int) (rnd : Rounding) (index : Nat) (x : Word) : Int × Bool × Bool :=
  match fpOf x with
  | .nan => (0, true, false)
  | .inf n => (if n then -((2 ^ (w - 1) : Nat) : Int) else ((2 ^ (w - 1) : Nat) : Int) - 1, true, false)
  | v =>
    let (m, e) := fpExact v
    let (c, b) := clampInt w (roundBy rnd index m (e + S))
    (c, false, b)

/-- Conversion from an integer with scale `2^S`, rounded once (R69). -/
def intToFp (v : Int) (S : Int) : Word := fpRound v S

/-! ### Mantissas and elements in bytes -/

/-- `n` elements of width `w` bits (4, 8, 16 or 32) from little-endian bytes (R55, R62). -/
def unpackElems (w : Nat) (bytes : List Byte) (n : Nat) : List Int :=
  let v := leNat bytes
  (List.range n).map (fun i => signedOf w (bitsOf v (w * i) w))

/-- Elements of width `w` bits as a little-endian number, least significant first. -/
def packElemsNat (w : Nat) : List Int → Nat
  | [] => 0
  | x :: xs => unsignedOf w x + 2 ^ w * packElemsNat w xs

/-- Elements of width `w` bits as bytes. -/
def packElems (w : Nat) (xs : List Int) : List Byte := leBytes (w * xs.length / 8) (packElemsNat w xs)

end Sys2Proof.Machine
end

