-- ==== Sys2Proof/Machine/Flags.lean ====
section
/-! DEFINITION. The tallies (R174, R176) and the numeric flags: the sticky bits, first-position records, counts and tally events
of NONFINITE and SATURATED (R78 to R82). -/

namespace Sys2Proof.Machine

/-- The tally page that serves tally `t` of die `d` (R31). -/
def tallyPage (d t : Nat) : Page := ⟨.tal, 16 * d + t / 256⟩

/-- COUNT of tally `t` of die `d`. -/
def State.tally (s : State) (d t : Nat) : Nat := s.fget (tallyPage d t) (F.tal.COUNT_COUNT (t % 256))

/-! ### Beats and their waits (R171, R175) -/

namespace BT
def version (b : Nat) : Nat := fieldAt b 0 0 4
def kind (b : Nat) : Nat := fieldAt b 0 4 4
def phase (b : Nat) : Nat := fieldAt b 0 8 8
def waits (b : Nat) : Nat := fieldAt b 0 16 2
def cons (b w : Nat) : Bool := fieldAt b 0 (18 + w) 1 == 1
def specOk (b : Nat) : Bool := fieldAt b 0 20 1 == 1
def notBefore (b : Nat) : Nat := fieldAt b 4 0 40
def tally (b w : Nat) : Nat := fieldAt b 8 (8 + 12 * w) 12
def thresh (b w : Nat) : Nat := fieldAt b 0xC (16 * w) 16
def slack (b : Nat) : Nat := fieldAt b 0x10 0 16
def arg0 (b : Nat) : Nat := fieldAt b 0x10 16 16
def arg1 (b : Nat) : Nat := fieldAt b 0x14 0 32
def arg2 (b : Nat) : Nat := fieldAt b 0x18 0 32
def tiles (b : Nat) : Nat := arg0 b % 16
def unit (b : Nat) : Nat := bitsOf (arg0 b) 4 4
def count (b : Nat) : Nat := bitsOf (arg0 b) 8 5
def desc (b : Nat) : Nat := arg1 b % 2 ^ 11
def len (b : Nat) : Nat := 64 * (arg0 b % 2 ^ 15)
def advance (b : Nat) : Bool := bitAt (arg0 b) 15
def src (b : Nat) : Nat := arg1 b + 2 ^ 32 * (arg2 b % 2 ^ 20)
def fillTile (b : Nat) : Nat := bitsOf (arg2 b) 20 2
def fillBuf (b : Nat) : Nat := bitsOf (arg2 b) 22 2
def relTile (b : Nat) : Nat := arg0 b % 4
def relBuf (b : Nat) : Nat := bitsOf (arg0 b) 2 2
def dpoint (b : Nat) : Nat := arg0 b % 256
def sigTally (b : Nat) : Nat := fieldAt b 0x1C 9 12
def sigOther (b : Nat) : Bool := fieldAt b 0x1C 21 1 == 1
def sigEn (b : Nat) : Bool := fieldAt b 0x1C 22 1 == 1
end BT

/-- The kinds of beats (R172). -/
def kIssue : Nat := 1
def kFill : Nat := 2
def kRelease : Nat := 3
def kDecide : Nat := 4
def kEnd : Nat := 5
def kSignal : Nat := 6

/-- The key of stream `st` of die `d`. -/
def streamKey (d st : Nat) : Nat := 64 * d + st

/-- Stream `st` of die `d`. -/
def State.stream (s : State) (d st : Nat) : Stream := Store.get {} s.agate.streams (streamKey d st)

/-- The stream with new contents. -/
def State.putStream (s : State) (d st : Nat) (x : Stream) : State :=
  { s with agate.streams := Store.set {} s.agate.streams (streamKey d st) x }

/-- The sequencer page of a group of a die. -/
def pgSeq (d st : Nat) : Page := ⟨.seq, 32 * d + st⟩

/-- The entry of tally `t` in a stream's view (R175). -/
def State.viewIx (s : State) (d st t : Nat) : Option Nat := (Store.get [] s.agate.views (streamKey d st)).findIdx? (· == t)

/-- The committed cursor of view entry `v`. -/
def State.cursor (s : State) (d st v : Nat) : Nat :=
  if st = 32 then Store.get 0 s.agate.cursors (64 * d + v) else s.fget (pgSeq d st) (F.seq.CURSOR_CURSOR v)

/-- The committed cursor set. -/
def State.putCursor (s : State) (d st v c : Nat) : State :=
  if st = 32 then { s with agate.cursors := Store.set 0 s.agate.cursors (64 * d + v) (c % 2 ^ 32) }
  else s.fput (pgSeq d st) (F.seq.CURSOR_CURSOR v) c

/-- D of wait `w` of a beat for a COUNT of its tally (R175): a beat of a predicted segment reads the speculative cursor. -/
def State.waitD (s : State) (d st : Nat) (spec : Bool) (b w count : Nat) : Nat :=
  let cur := match s.viewIx d st (BT.tally b w) with
    | none => 0
    | some v => s.cursor d st v + (if spec then Store.get 0 (s.stream d st).specCursors v else 0)
  (count + 2 ^ 32 - cur % 2 ^ 32) % 2 ^ 32

/-- Wait `w` of a beat is met at a COUNT of its tally (R175). -/
def State.waitMet (s : State) (d st : Nat) (spec : Bool) (b w count : Nat) : Bool :=
  let x := s.waitD d st spec b w count
  BT.thresh b w ≤ x && x < 2 ^ 31

/-- Every wait of a beat is met. -/
def State.waitsMet (s : State) (d st : Nat) (spec : Bool) (b : Nat) : Bool :=
  (List.range (BT.waits b)).all fun w => s.waitMet d st spec b w (s.tally d (BT.tally b w))

/-- Some wait of a beat finds D at 2³¹ or more (R175). -/
def State.waitOver (s : State) (d st : Nat) (spec : Bool) (b : Nat) : Bool :=
  (List.range (BT.waits b)).any fun w => 2 ^ 31 ≤ s.waitD d st spec b w (s.tally d (BT.tally b w))

/-- The head of a window: the first beat that has not fired. -/
def Stream.head (x : Stream) : Option WinBeat := x.window.find? fun w => !w.fired

/-- The next FILL of a window: the first that has not fired. -/
def Stream.nextFill (x : Stream) : Option WinBeat := x.window.find? fun w => !w.fired && BT.kind w.beat == kFill

/-- An increment takes a tally from `c0` to `c1`: a wait of a beat is met by it. -/
def State.becameMet (s : State) (d st t c0 c1 : Nat) (o : Option WinBeat) : Bool :=
  match o with
  | none => false
  | some w => (List.range (BT.waits w.beat)).any fun i =>
      BT.tally w.beat i == t && !s.waitMet d st w.spec w.beat i c0 && s.waitMet d st w.spec w.beat i c1

/-- What the streams of a die learn of an increment: when a wait of the head, or of the next FILL, was met last, for the lateness
cause (R189). -/
def State.noteMet (s : State) (d t c0 c1 : Nat) : State :=
  (List.range 33).foldl (fun s st =>
    let x := s.stream d st
    let h := s.becameMet d st t c0 c1 x.head
    let f := s.becameMet d st t c0 c1 x.nextFill
    let x1 := if h then { x with tMet := s.time.toNat, metTally := t } else x
    let x2 := if f then { x1 with fMet := s.time.toNat, fMetTally := t } else x1
    if h || f then s.putStream d st x2 else s) s

/-- An increment of tally `t` of die `d` by `n` from source `src`: COUNT wraps, LAST_SRC takes the source; an increment of zero is
none (R174, R176). -/
def State.advanceTally (s : State) (d t n src : Nat) : State :=
  if n = 0 then s else
    ((s.fput (tallyPage d t) (F.tal.COUNT_COUNT (t % 256)) (s.tally d t + n)).fput (tallyPage d t)
      (F.tal.SRC_LAST_SRC (t % 256)) src).noteMet d t (s.tally d t) ((s.tally d t + n) % 2 ^ 32)

/-- An increment sent on the notice network; it reaches the tally unit with TALLY_INCREMENT. -/
def State.notify (s : State) (d t n src : Nat) : State :=
  { s with agate.notices := s.agate.notices ++ [⟨d, t, n, src⟩] }

/-- A source code of R176: class and identifier. -/
def srcCode (cls ident : Nat) : Nat := cls * 2 ^ 12 + ident % 2 ^ 12

/-- The source of an advance that Oneisor makes (class 11 of R176): which core runs it is nowhere stated, so its number is free
(log 39). -/
def State.oneisorSrc (s : State) : Nat × State := let (n, s) := s.draw; (srcCode 11 (n % 4), s)

/-- A position at which a condition arose: element, unit and cause (R78, R79). -/
structure NumPos where
  element : Nat
  unit : Nat
  cause : Nat
deriving DecidableEq, Repr

/-- The MXE page of a tile's die. -/
def mxePage (tile : Nat) : Page := ⟨.mxe, tile / 128⟩
/-- The VEC page of a tile's die. -/
def vecPage (tile : Nat) : Page := ⟨.vec, tile / 128⟩

/-- NONFINITE met by an operation of `tile`: the event, the tile bit, and the first-position record while none is held
(R78 to R80). The MXE and VEC pages share offsets. -/
def State.flagNonfinite (s : State) (p : Page) (tile opId : Nat) (at_ : NumPos) : State :=
  let j := tile % 128
  let s1 := s.fput p (F.mxe.NF_TILES_TILES (j / 32)) (s.fget p (F.mxe.NF_TILES_TILES (j / 32)) ||| 2 ^ (j % 32))
  let s2 := if s.fon p F.mxe.NF_POS_VALID then s1 else
    ((((((s1.fput p F.mxe.NF_POS_TILE tile).fput p F.mxe.NF_POS_ELEMENT at_.element).fput p F.mxe.NF_POS_UNIT at_.unit).fput p
      F.mxe.NF_POS_CAUSE at_.cause).fset p F.mxe.NF_POS_VALID true).fput p F.mxe.NF_POS_OP_ID opId).fput p F.mxe.NF_TIME_TIME
      s.time.toNat
  s2.event p 8

/-- SATURATED met by an operation of `tile` (R78 to R80). -/
def State.flagSaturated (s : State) (p : Page) (tile opId : Nat) (at_ : NumPos) : State :=
  let j := tile % 128
  let s1 := if p.ty = .col then s else
    s.fput p (F.mxe.SAT_TILES_TILES (j / 32)) (s.fget p (F.mxe.SAT_TILES_TILES (j / 32)) ||| 2 ^ (j % 32))
  let s2 := if s.fon p F.mxe.SAT_POS_VALID then s1 else
    ((((((s1.fput p F.mxe.SAT_POS_TILE tile).fput p F.mxe.SAT_POS_ELEMENT at_.element).fput p F.mxe.SAT_POS_UNIT at_.unit).fput p
      F.mxe.SAT_POS_CAUSE at_.cause).fset p F.mxe.SAT_POS_VALID true).fput p F.mxe.SAT_POS_OP_ID opId).fput p F.mxe.SAT_TIME_TIME
      s.time.toNat
  s2.event p 9

/-- What an operation met: the first position of each condition. -/
structure Conds where
  nf : Option NumPos := none
  sat : Option NumPos := none
deriving DecidableEq, Repr

/-- The earlier of two findings. -/
def Conds.or (a b : Conds) : Conds := ⟨a.nf.orElse fun _ => b.nf, a.sat.orElse fun _ => b.sat⟩

/-- The flags and records of an operation's conditions. -/
def State.flagConds (s : State) (p : Page) (tile opId : Nat) (c : Conds) : State :=
  let s := match c.nf with | some x => s.flagNonfinite p tile opId x | none => s
  match c.sat with | some x => s.flagSaturated p tile opId x | none => s

/-- A later finding of the operation that captured the records held, `nf` or `sat`: a lower position takes the record (R80). -/
def State.lowerRecords (s : State) (p : Page) (tile opId : Nat) (nf sat : Bool) (c : Conds) : State :=
  let s := match c.nf with
    | some x =>
      if nf && s.fon p F.mxe.NF_POS_VALID && s.fget p F.mxe.NF_POS_TILE == tile && s.fget p F.mxe.NF_POS_OP_ID == opId
          && x.element < s.fget p F.mxe.NF_POS_ELEMENT then
        ((s.fput p F.mxe.NF_POS_ELEMENT x.element).fput p F.mxe.NF_POS_UNIT x.unit).fput p F.mxe.NF_POS_CAUSE x.cause
      else s
    | none => s
  match c.sat with
  | some x =>
    if sat && s.fon p F.mxe.SAT_POS_VALID && s.fget p F.mxe.SAT_POS_TILE == tile && s.fget p F.mxe.SAT_POS_OP_ID == opId
        && x.element < s.fget p F.mxe.SAT_POS_ELEMENT then
      ((s.fput p F.mxe.SAT_POS_ELEMENT x.element).fput p F.mxe.SAT_POS_UNIT x.unit).fput p F.mxe.SAT_POS_CAUSE x.cause
    else s
  | none => s

/-- What the completion of an operation that met conditions adds: the count of the condition its status reports (R78) and the tally
events, once per operation and condition (R81). Source class 10 of R176. -/
def State.numericCompletion (s : State) (p : Page) (nf sat : Bool) : State :=
  let s := if nf then s.bump p (F.com.EVT_CNT 0) 1 else if sat then s.bump p (F.com.EVT_CNT 1) 1 else s
  let src := srcCode 10 (2 * p.inst + (if p.ty = .vec then 1 else 0))
  let s := if nf && s.fon p F.mxe.NUM_CTRL_NF_TALLY_EN then s.notify p.inst (s.fget p F.mxe.NUM_CTRL_NF_TALLY) 1 src else s
  if sat && s.fon p F.mxe.NUM_CTRL_SAT_TALLY_EN then s.notify p.inst (s.fget p F.mxe.NUM_CTRL_SAT_TALLY) 1 src else s

/-- The matrix-engine, vector and Shelf registers of a tile's page. -/
def tilPage (tile : Nat) : Page := ⟨.til, tile⟩

end Sys2Proof.Machine
end

