-- ==== Sys2Proof/Machine/Run.lean ====
section
/-! DEFINITION. What several blocks share about a run: the status its completions add up to, how it ends (R194), the records of the
job queues (R383, R386), the queues of a tile, and the landing buffers (R157). -/

namespace Sys2Proof.Machine

/-! ### Sleep (R436, R438) -/

def pgPwr : Page := ⟨.pwr, 0⟩

/-- PWR_STATE.STATE: 0 ACTIVE, 1 ENTERING, 2 NAP, 3 STANDBY, 4 WAKING. -/
def State.pwrState (s : State) : Nat := s.fget pgPwr F.pwr.PWR_STATE_STATE

/-- The package takes a state; the time spent in the old one is counted in its RES counter (R438, R443), ENTERING and WAKING with the
state they left. -/
def State.setPwr (s : State) (v : Nat) : State :=
  let old := if s.pwrState = 1 ∨ s.pwrState = 4 then s.pwr.from_ else s.pwrState
  let f := if old = 2 then F.pwr.RES_NAP_NS else if old = 3 then F.pwr.RES_STANDBY_NS else F.pwr.RES_ACTIVE_NS
  let s := s.bump pgPwr f (s.uptime - s.pwr.since)
  ({ s with pwr.since := s.uptime, pwr.from_ := old }.fput pgPwr F.pwr.PWR_STATE_STATE v).event pgPwr 8

/-- The tile logic sleeps, or wakes from NAP. -/
def State.napping (s : State) : Bool := s.pwrState == 2 || (s.pwrState == 4 && s.pwr.from_ == 2)

/-- An access or command in NAP begins an automatic wake (R438). -/
def State.napWake (s : State) : State :=
  if s.pwrState = 2 then (s.bump pgPwr F.pwr.WAKES_AUTO_COUNT 1).setPwr 4 else s

/-- A wake through the four stages of R440 begins. -/
def State.stageOne (s : State) : State :=
  let s := (s.fput ⟨.wake, 0⟩ F.wake.WAKE_STAT_STAGE 0).fset ⟨.wake, 0⟩ F.wake.WAKE_STAT_FAILED false
  { s with pwr.stage := 1 }

/-- New work during an entry ends it with ABORTED and records the refuser; the package wakes, from an entry to STANDBY through the stages
of R440 (R438). -/
def State.abortEntry (s : State) (refuser : Nat) : State :=
  if s.pwrState ≠ 1 then s else
    let s := (s.fput pgPwr F.pwr.PWR_STATE_RESULT stAborted).fput pgPwr F.pwr.PWR_STATE_REFUSERS
      (s.fget pgPwr F.pwr.PWR_STATE_REFUSERS ||| refuser)
    (if s.pwr.goal = 3 then s.stageOne else s).setPwr 4

/-- Work that a sleeping package cannot do yet is kept until the wake; otherwise it is done (R438). -/
def State.whenAwake (s : State) (w : HeldWork) (act : State → State) : State :=
  if s.napping then { s.napWake with pwr.held := s.napWake.pwr.held ++ [w] } else act s

/-! ### Tiles -/

/-- The tile's units. -/
def State.tile (s : State) (t : Nat) : Tile := Store.get {} s.tiles t

/-- The set that is ACTIVE, if any. -/
def Tile.activeSet (u : Tile) : Option Nat :=
  if u.set0.st = .active then some 0 else if u.set1.st = .active then some 1 else none

/-- Set 0 or 1. -/
def Tile.set (u : Tile) (k : Nat) : AccSet := if k = 0 then u.set0 else u.set1

/-- The tile with a set replaced. -/
def Tile.putSet (u : Tile) (k : Nat) (a : AccSet) : Tile := if k = 0 then { u with set0 := a } else { u with set1 := a }

/-- MXE_STAT.ACTIVE_SET (R104): the ACTIVE set, or the one that becomes ACTIVE next: the one the converter holds, else the first
PENDING one. -/
def Tile.activeSetReg (u : Tile) : Nat :=
  match u.activeSet with
  | some k => k
  | none => if u.set0.st = .draining then 0 else if u.set1.st = .draining then 1 else if u.set0.st = .pending then 0 else 1

/-- A set that is PENDING or DRAINING. -/
def AccSet.draining (a : AccSet) : Bool := a.st = .pending || a.st = .draining

/-- The tile with new contents, and the status registers of its page that show them (R101, R142). -/
def State.putTile (s : State) (t : Nat) (u : Tile) : State :=
  let p := tilPage t
  let k := u.activeSetReg
  let s := { s with tiles := Store.set {} s.tiles t u }
  let s := s.fput p F.til.MXE_STAT_QUEUED u.queue.length
  let s := s.fset p F.til.MXE_STAT_BUSY (!u.started.isEmpty)
  let s := s.fput p F.til.MXE_STAT_ACTIVE_SET k
  let s := s.fset p F.til.MXE_STAT_DRAINING (u.set (1 - k)).draining
  let s := s.fput p F.til.MXE_STAT_CHUNK_BLKS (u.set k).blks
  let s := s.fput p F.til.VEC_STAT_QUEUED u.vqueue.length
  s.fset p F.til.VEC_STAT_BUSY u.vrun.isSome

/-- OPCODE and OP_ID of a descriptor (R89, R128 place them alike). -/
def descOpcode (d : Nat) : Nat := fieldAt d 0 8 8
def descOpId (d : Nat) : Nat := fieldAt d 4 0 32
/-- TALLY and TALLY_EN of a tile or vector descriptor. -/
def descTally (d : Nat) : Nat := fieldAt d 0x3C 16 12
def descTallyEn (d : Nat) : Bool := fieldAt d 0x3C 28 1 == 1

/-- MXE_LAST: the report of an operation that ended (R95, R101). -/
def State.mxeLast (s : State) (t d status : Nat) : State :=
  let p := tilPage t
  ((s.fput p F.til.MXE_LAST_STATUS status).fput p F.til.MXE_LAST_OPCODE (descOpcode d)).fput p F.til.MXE_LAST_OPID_OP_ID (descOpId d)

/-- VEC_LAST: the report of a vector descriptor that ended (R132, R142). -/
def State.vecLast (s : State) (t d status : Nat) : State :=
  let p := tilPage t
  ((s.fput p F.til.VEC_LAST_STATUS status).fput p F.til.VEC_LAST_OPCODE (descOpcode d)).fput p F.til.VEC_LAST_OPID_OP_ID (descOpId d)

/-- A tile operation ended with ABORTED: reported, counted in EVT_CNT3, event 11 (R97). -/
def State.mxeAborted (s : State) (t d : Nat) : State :=
  ((s.mxeLast t d stAborted).bump (tilPage t) (F.com.EVT_CNT 3) 1).event (tilPage t) 11 stAborted

/-- A vector descriptor ended with ABORTED (R133, R142). -/
def State.vecAborted (s : State) (t d : Nat) : State :=
  ((s.vecLast t d stAborted).bump (tilPage t) F.til.VEC_ABORTED_COUNT 1).event (tilPage t) 15 stAborted

/-- Queued operations of a tile that satisfy `which` end with ABORTED (R97, R133). -/
def State.withdraw (s : State) (t : Nat) (which : Bool → Bool) : State :=
  let u := s.tile t
  let s1 := (u.queue.filter (fun o => which o.held)).foldl (fun s o => s.mxeAborted t o.desc) s
  let s2 := (u.vqueue.filter (fun o => which o.held)).foldl (fun s o => s.vecAborted t o.desc) s1
  s2.putTile t { u with queue := u.queue.filter (fun o => !which o.held), vqueue := u.vqueue.filter (fun o => !which o.held) }

/-- Held descriptors of a tile released (R187). -/
def State.releaseHeld (s : State) (t : Nat) : State :=
  let u := s.tile t
  s.putTile t { u with queue := u.queue.map (fun o => { o with held := false }),
                       vqueue := u.vqueue.map (fun o => { o with held := false }) }

/-! ### Landing buffers (R157) -/

/-- The state of a landing buffer: 0 EMPTY, 1 FILLING, 2 FULL. -/
def State.lbState (s : State) (t n : Nat) : Nat := s.fget (tilPage t) (F.til.LB_STAT_STATE n)

/-- A buffer goes EMPTY with GEN + 1: a squash, or a release of a FULL buffer. -/
def State.lbAdvance (s : State) (t n : Nat) : State :=
  (s.fput (tilPage t) (F.til.LB_STAT_GEN n) (s.fget (tilPage t) (F.til.LB_STAT_GEN n) + 1)).fput (tilPage t) (F.til.LB_STAT_STATE n) 0

/-- A squash of a buffer: a FILLING or FULL buffer goes EMPTY with GEN + 1. -/
def State.lbSquash (s : State) (t n : Nat) : State := if s.lbState t n = 0 then s else s.lbAdvance t n

/-! ### Job queues (R379 to R386) -/

/-- The job-queue page of queue `q`. -/
def jqPage (q : Nat) : Page := ⟨.jq, q⟩

/-- The completion ring of a queue has room. -/
def State.cqRoom (s : State) (q : Nat) : Bool :=
  let n := 2 ^ s.fget (jqPage q) F.jq.JQ_CFG_CQ_LOG2
  (s.fget (jqPage q) F.jq.CQ_HEAD_HEAD + 1) % n != s.fget (jqPage q) F.jq.CQ_TAIL_TAIL % n

/-- The message of a queue's vector once COAL_COUNT records stand unsignalled (R386). -/
def State.coalesce (s : State) (q : Nat) : State :=
  let n := Store.get 0 s.host.unsignalled q + 1
  let first := if n = 1 then s.time.toNat else Store.get 0 s.host.firstUnsig q
  let lim := max 1 (s.fget (jqPage q) F.jq.IRQ_CFG_COAL_COUNT)
  let s := { s with host.firstUnsig := Store.set 0 s.host.firstUnsig q first }
  if lim ≤ n then
    let s := { s with host.unsignalled := Store.set 0 s.host.unsignalled q 0 }
    if s.fon (jqPage q) F.jq.IRQ_CFG_IRQ_EN
    then s.raiseVector (s.fget (jqPage q) F.jq.JQ_CFG_MODULE) (s.fget (jqPage q) F.jq.IRQ_CFG_VECTOR) else s
  else { s with host.unsignalled := Store.set 0 s.host.unsignalled q n }

/-- The completion record of R383. -/
def State.jobRecord (s : State) (r : JobRecord) : Nat :=
  withCheck 32 (placeAt 0 0 32 r.opId + placeAt 4 0 8 r.status + placeAt 4 8 8 r.opcode + placeAt 4 16 10 r.queue
    + placeAt 4 31 1 (!Store.get false s.host.passes r.queue).toNat + placeAt 8 0 12 r.index + placeAt 0xC 0 16 r.skips
    + placeAt 0xC 16 16 r.late + placeAt 0x10 0 64 s.time.toNat + placeAt 0x18 0 32 (Store.get 0 s.host.seqs r.queue))

/-- A completion record written to its ring, with event COMPLETION, the queue's message (R383, R386), and CQ_FULL where it takes the last
room; a ring with no room keeps the record (log 23). -/
def State.putRecord (s : State) (r : JobRecord) : State :=
  let p := jqPage r.queue
  if !s.cqRoom r.queue then { s with host.waiting := s.host.waiting ++ [r] } else
    let n := 2 ^ s.fget p F.jq.JQ_CFG_CQ_LOG2
    let h := s.fget p F.jq.CQ_HEAD_HEAD % n
    let a := s.fget p F.jq.CQ_BASE_ADDR + 32 * h
    let bytes := leBytes 32 (s.jobRecord r)
    let m := s.moduleFor (s.fget p F.jq.JQ_CFG_MODULE)
    let s1 := (s.putIssued m a bytes).fput p F.jq.CQ_HEAD_HEAD ((h + 1) % n)
    let s2 := { s1 with host.seqs := Store.set 0 s.host.seqs r.queue ((Store.get 0 s.host.seqs r.queue + 1) % 2 ^ 32),
                        host.passes := if h + 1 = n then
                            Store.set false s.host.passes r.queue (!Store.get false s.host.passes r.queue) else s.host.passes }
    (if s2.cqRoom r.queue then s2.event p 8 r.status else s2.events p (2 ^ 8 + 2 ^ 9) r.status).coalesce r.queue

/-! ### Runs (R194) -/

def pgAgt (d : Nat) : Page := ⟨.agt, d⟩

/-- AGT_STAT.STATE of a die: 0 EMPTY, 1 LOADING, 2 IDLE, 3 RUNNING, 4 STOPPING. -/
def State.agtState (s : State) (d : Nat) : Nat := s.fget (pgAgt d) F.agt.AGT_STAT_STATE

/-- Both engines take a state. -/
def State.setAgt (s : State) (v : Nat) : State :=
  (s.fput (pgAgt 0) F.agt.AGT_STAT_STATE v).fput (pgAgt 1) F.agt.AGT_STAT_STATE v

/-- A run is under way. -/
def State.running (s : State) : Bool := s.agtState 0 == 3 || s.agtState 0 == 4

/-- The tenant's pins released by an ADMIT that ends (R303): one batch less on each pinned generation. -/
def State.unpin (s : State) (pins : List (Fin 32 × Nat)) : State :=
  pins.foldl (fun s pin =>
    let f := if pin.2 = 0 then F.slot.SL_SVC_PIN0 pin.1 else F.slot.SL_SVC_PIN1 pin.1
    s.fput ⟨.slot, 0⟩ f (s.fget ⟨.slot, 0⟩ f - 1)) s

/-- The run's late beats so far, both dies. -/
def State.lateBeats (s : State) : Nat :=
  s.fget (pgAgt 0) F.agt.LATE_BEATS_COUNT + s.fget (pgAgt 1) F.agt.LATE_BEATS_COUNT

/-- All queued and held descriptors of the tiles withdrawn, all landing buffers squashed (R194). -/
def State.clearTiles (s : State) : State :=
  (List.range 256).foldl (fun s t =>
    let s := if (s.tile t).queue.isEmpty && (s.tile t).vqueue.isEmpty then s else s.withdraw t (fun _ => true)
    (List.range 4).foldl (fun s n => s.lbSquash t n) s) s

/-- Descriptors that still queue at the tier manager, the collective engines and the XPT's beat queues withdrawn (R194); none of
them has begun, so no report of theirs is due. -/
def State.clearDieQueues (s : State) : State :=
  { s with tiers.queue := [], xpt.beat := [],
           col := [0, 1].foldl (fun m d => Store.set {} m d { Store.get {} m d with queue := [] }) s.col }

/-- The end of a run with a status (R194): queued and held descriptors end ABORTED, buffers are squashed, both engines return to
IDLE with END_STATUS, RUN_END is raised, and the job that started the run, with its ADMITs, ends (R382). -/
def State.endRun (s : State) (status : Nat) : State :=
  let s := (State.clearTiles s).clearDieQueues
  let s := (List.range 64).foldl (fun s g =>
    let p : Page := ⟨.seq, g⟩
    ((s.fput p F.seq.SEQ_WAIT_WINDOW 0).fset p F.seq.SEQ_WAIT_SPEC false).fput p F.seq.SEQ_WAIT_REASON 6) s
  let s := { s with agate.streams := [], agate.fills := s.agate.fills.map (fun (f : Fill) => { f with sig := none }), agate.deciding := [],
                    agate.sent := [], agate.decided := [] }
  let s := State.setAgt s 2
  let s := (s.fput (pgAgt 0) F.agt.AGT_STAT_END_STATUS status).fput (pgAgt 1) F.agt.AGT_STAT_END_STATUS status
  let s := (s.event (pgAgt 0) 9 status).event (pgAgt 1) 9 status
  let ended : List Admitted := s.host.admitted
  let ast := if status = stDone ∨ status = stSaturated ∨ status = stNonfinite ∨ status = stLate then stAborted else status
  let late := min 0xFFFF (s.lateBeats - s.host.lateBase)
  let job := s.agate.job
  let s := { s with host.admitted := [], host.services := [], agate.job := none }
  let s := ended.foldl (fun s a => (s.unpin a.pins).putRecord ⟨a.queue, a.opId, ast, 3, a.index, 0, 0⟩) s
  match job with
  | none => s
  | some (q, i, op) => s.putRecord ⟨q, op, status, 2, i, min 0xFFFF s.host.skips, late⟩

/-- The statuses that end a run when a descriptor or fill of it meets them (R194): a refusal, TIER_LATE, TIER_FAIL, AUTH,
KEY_RETIRED. -/
def endsRun (status : Nat) : Bool :=
  status == stLenRange || status == stAddrRange || status == stAccess || status == stTierLate || status == stTierFail
  || status == stKeyRetired || status == stFormat || status == stVersion || status == stReservedSet || status == stAuth
  || status == stFenced || status == stCheckFailed || status == 0x81 || status == 0x82

/-- What a run learns of a status its work ended with (R194). -/
def State.noteRun (s : State) (status : Nat) : State :=
  if !s.running then s
  else if endsRun status then s.endRun status
  else if status = stNonfinite then { s with agate.runNf := true }
  else if status = stSaturated then { s with agate.runSat := true }
  else s

end Sys2Proof.Machine
end

