-- ==== Sys2Proof/Machine/Mem.lean ====
section
/-! DEFINITION. The 52-bit device range (R259 to R272): its windows, who may read and write what, how an address becomes bytes of a
Shelf, a Cellar stack, the Attic or host memory, encryption and tags, and the checks of a transfer in the order of R49. -/

namespace Sys2Proof.Machine

def pgTir : Page := ⟨.tir, 0⟩
def pgAtc : Page := ⟨.atc, 0⟩
def pgSlot : Page := ⟨.slot, 0⟩
def pgCel (c : Nat) : Page := ⟨.cel, c⟩
def pgRgn (c : Nat) : Page := ⟨.rgn, c⟩
def pgKs (t : Nat) : Page := ⟨.ks, t⟩

/-- A tenant slot is REVOKING, ZEROISING or SCRUBBING: its work is refused (R409). -/
def State.tenantGone (s : State) (t : Nat) : Bool := 3 ≤ s.fget (pgKs t) F.ks.KS_STAT_STATE

/-! ### Windows (R259) -/

/-- What a device address means. -/
inductive Win where
  | shelf (tile off : Nat)
  | attic (bank off : Nat)            -- bank: `2 × slot + b`
  | cellar (stack off : Nat)
  | object (h o : Nat)
  | boxroom (host : Nat)
  | unassigned
deriving DecidableEq, Repr

/-- The window of a device address (R259). Bits [28:21] of a Shelf-range address name the tile (R84). -/
def winOf (a : Nat) : Win :=
  if a < 0x20000000 then .shelf (a / 2 ^ 21) (a % 2 ^ 21)
  else if 0x010000000000 ≤ a ∧ a < 0x018000000000 then .attic ((a - 0x010000000000) / 2 ^ 33) (a % 2 ^ 33)
  else if 0x020000000000 ≤ a ∧ a < 0x028000000000 then
    if a % 2 ^ 36 < 0xC00000000 then .cellar ((a - 0x020000000000) / 2 ^ 36) (a % 2 ^ 36) else .unassigned
  else if 0x4000000000000 ≤ a ∧ a < 0x8000000000000 then .object (a / 2 ^ 34 % 2 ^ 16) (a % 2 ^ 34)
  else if 0x8000000000000 ≤ a ∧ a < 0x10000000000000 then .boxroom (a % 2 ^ 51)
  else .unassigned

/-! ### Keys and tweaks (R266, R406) -/

/-- The key identity of a selector: a tenant slot's key while it has one, the keys of selectors 16 and 17. -/
def State.selKey (s : State) (sel : Nat) : CryptKey :=
  if sel = 16 then .boot 16 s.onyx.key16
  else if sel = 17 then .boot 17 s.onyx.key17
  else match Store.get none s.onyx.keys sel with
    | some k => .tenant k.secret k.tag k.gen
    | none => .boot sel 0

/-- The key generation of a selector; 0 for 16 and 17 (R394). -/
def State.selGen (s : State) (sel : Nat) : Nat :=
  match Store.get none s.onyx.keys sel with
  | some k => if sel < 16 then k.gen else 0
  | none => 0

/-- The tweak of a data unit (R266). -/
def unitTweak (handle unit gen stack : Nat) : Nat := unit % 2 ^ 28 + handle * 2 ^ 28 + gen * 2 ^ 44 + stack * 2 ^ 60

/-- The key selector of an object (R262). -/
def Obj.selector (o : Obj) : Nat := if o.cls = 2 then 16 else if o.cls = 3 then 17 else o.owner

/-- What the unit of object `h` at offset `o` is encrypted under. -/
def State.objProv (s : State) (h : Nat) (ob : Obj) (o : Nat) : Prov :=
  ⟨s.selKey ob.selector, unitTweak h (o / 256) (s.selGen ob.selector) 0⟩

/-- What a unit of the direct window is encrypted under: regions of KEY 17 only (R260). -/
def State.directProv (s : State) (c off : Nat) : Prov := ⟨s.selKey 17, unitTweak 0xFFFF (off / 256) 0 c⟩

/-- A bank unit's key and tweak (R288). -/
def bankProv (bank key version off : Nat) : Prov :=
  ⟨.bank key, off / 256 % 2 ^ 28 + 0xFFFE * 2 ^ 28 + version * 2 ^ 44 + (bank / 2) * 2 ^ 64⟩

/-! ### Blocks -/

/-- A run `[lo, hi)` put among runs that lie in rising order and apart; the runs it meets or touches become one with it. -/
def addRun : Nat → Nat → List (Nat × Nat) → List (Nat × Nat)
  | lo, hi, [] => if lo < hi then [(lo, hi)] else []
  | lo, hi, (a, b) :: m =>
    if hi ≤ lo then (a, b) :: m
    else if hi < a then (lo, hi) :: (a, b) :: m
    else if b < lo then (a, b) :: addRun lo hi m
    else addRun (min a lo) (max b hi) m

/-- A scrub has written zero ciphertext at a stack offset (R410); what the device has written there since is listed. -/
def State.scrubbed (s : State) (c off : Nat) : Bool := s.tiers.scrubs.any fun r => r.1 ≤ c * 2 ^ 36 + off && c * 2 ^ 36 + off < r.2

/-- The ciphertext of a Cellar block. -/
def State.cellRaw (s : State) (key : Nat) : Nat :=
  match Store.get none s.tiers.cellar key with
  | none => if s.scrubbed (key / 2 ^ 32) (key % 2 ^ 32 * 16) then 0 else Config.dram key % 2 ^ 128
  | some c => match c.prov with
    | none => c.data
    | some p => Config.xtsSeal p (key % 16) c.data % 2 ^ 128

/-- A Cellar block read under `p`: the plaintext where `p` wrote it, else what the decryption of its ciphertext gives (R483). -/
def State.cellRead (s : State) (key : Nat) (p : Prov) : Nat :=
  match Store.get none s.tiers.cellar key with
  | some c => if c.prov = some p then c.data else Config.xtsOpen p (key % 16) (s.cellRaw key) % 2 ^ 128
  | none => Config.xtsOpen p (key % 16) (s.cellRaw key) % 2 ^ 128

/-- Byte `i` of a 128-bit block. -/
def blockByte (b i : Nat) : Byte := BitVec.ofNat 8 (b >>> (8 * i))

/-- A 128-bit block with byte `i` replaced. -/
def blockPut (b i : Nat) (v : Byte) : Nat := leNat ((leBytes 16 b).set i v)

/-- Where a byte of the device range lies, with what protects it. -/
inductive Loc where
  | shelf (key : Nat)
  | cellar (stack off : Nat) (p : Prov)
  | attic (bank off : Nat)
  | host (a : Nat)
  | sealed (a : Nat) (p : Prov)
deriving DecidableEq, Repr

/-- Sixteen bytes of host memory in a SEALED aperture, decrypted under `p`. -/
def State.sealedRead (s : State) (a : Nat) (p : Prov) (i : Nat) : Nat :=
  let raw := leNat (s.hostRead (a / 16 * 16) 16)
  match Store.get none s.tiers.sealedBlk (a / 16) with
  | some (p', d) =>
    if p' = p ∧ raw = Config.xtsSeal p i d % 2 ^ 128 then d else Config.xtsOpen p i raw % 2 ^ 128
  | none => Config.xtsOpen p i raw % 2 ^ 128

/-- The SET_VERSION of a bank (SL_SET_A, SL_SET_B). -/
def State.bankSet (s : State) (bank : Nat) : Nat :=
  s.fget pgSlot (if bank % 2 = 0 then F.slot.SL_SET_A_SET (bank / 2) else F.slot.SL_SET_B_SET (bank / 2))

/-- The installed length of a bank in bytes: 0 where it holds no set (R274). -/
def State.bankLen (s : State) (bank : Nat) : Nat :=
  if bitAt (s.fget pgSlot (F.slot.SL_STAT_VALID (bank / 2))) (bank % 2) then
    4096 * s.fget pgSlot (if bank % 2 = 0 then F.slot.SL_LEN_A_UNITS (bank / 2) else F.slot.SL_LEN_B_UNITS (bank / 2))
  else 0

/-- A byte of the Attic, decrypted with the bank's key (R270). -/
def State.atticByte (s : State) (bank off : Nat) : Byte :=
  let raw := leNat ((List.range 16).map fun i =>
    (Store.get none s.attic.cells (bank * 2 ^ 33 + off / 16 * 16 + i)).getD (Config.atticByte (bank * 2 ^ 33 + off / 16 * 16 + i)))
  let key := (Store.get none s.attic.keys bank).getD 0
  blockByte (Config.xtsOpen (bankProv bank key (s.bankSet bank / 2 ^ 16) off) (off / 16 % 16) raw) (off % 16)

/-- A byte read where it lies. -/
def State.locByte (s : State) : Loc → Byte
  | .shelf k => Store.get 0 s.shelf k
  | .cellar c off p => blockByte (s.cellRead (c * 2 ^ 32 + off / 16) p) (off % 16)
  | .attic b off => s.atticByte b off
  | .host a => (Store.get none s.hostMem a).getD (Config.hostByte a)
  | .sealed a p => blockByte (s.sealedRead a p (a / 16 % 16)) (a % 16)

/-- A byte written where it lies: Cellar and SEALED bytes by a read-modify-write of their block (R268, R271); Attic bytes never. -/
def State.putLoc (s : State) (l : Loc) (v : Byte) : State :=
  match l with
  | .shelf k => { s with shelf := Store.set 0 s.shelf k v }
  | .cellar c off p =>
    let key := c * 2 ^ 32 + off / 16
    { s with tiers.cellar := Store.set none s.tiers.cellar key (some ⟨some p, blockPut (s.cellRead key p) (off % 16) v⟩) }
  | .attic _ _ => s
  | .host a => s.hostWrite a [v]
  | .sealed a p =>
    let d := blockPut (s.sealedRead a p (a / 16 % 16)) (a % 16) v
    State.hostWrite { s with tiers.sealedBlk := Store.set none s.tiers.sealedBlk (a / 16) (some (p, d)) } (a / 16 * 16)
      (leBytes 16 (Config.xtsSeal p (a / 16 % 16) d))

/-! ### Objects and apertures -/

/-- The object of a handle; none: FREE. -/
def State.obj (s : State) (h : Nat) : Option Obj := Store.get none s.tiers.objects h

/-- The stack and stack offset of byte `o` of a Cellar object (R264). -/
def Obj.stackOf (ob : Obj) (o : Nat) : Nat × Nat :=
  let sts := bitList 8 ob.mask
  let k := max 1 sts.length
  let g := o / 4096
  (sts.getD (g % k) 0, ob.place + g / k * 4096 + o % 4096)

/-- Extent length of an object of a size on `k` stacks (R264). -/
def extentLen (size k : Nat) : Nat := roundUp ((size + 4096 * k - 1) / (4096 * k) * 4096) 0x10000

/-- Region `j` of a stack is VALID and its span holds `[lo, hi)`. -/
def State.regionHas (s : State) (c j lo hi : Nat) : Bool :=
  s.fon (pgRgn c) (F.rgn.RG_CFG_VALID j) && s.fget (pgRgn c) (F.rgn.RG_SPAN_BASE j) * 2 ^ 21 ≤ lo
    && hi ≤ s.fget (pgRgn c) (F.rgn.RG_SPAN_LIMIT j) * 2 ^ 21

/-- The region of a stack that holds the byte at an offset. -/
def State.regionAt (s : State) (c off : Nat) : Option Nat := (List.range 64).find? fun j => s.regionHas c j off (off + 1)

/-- Where the tag area of a protected region starts (R267). -/
def State.tagArea (s : State) (c j : Nat) : Nat :=
  let b := s.fget (pgRgn c) (F.rgn.RG_SPAN_BASE j) * 2 ^ 21
  let l := s.fget (pgRgn c) (F.rgn.RG_SPAN_LIMIT j) * 2 ^ 21
  l - (l - b) / 32

/-- The end of the data of a region: its tag area where PROTECT, else LIMIT. -/
def State.regionDataEnd (s : State) (c j : Nat) : Nat :=
  if s.fon (pgRgn c) (F.rgn.RG_CFG_PROTECT j) then s.tagArea c j else s.fget (pgRgn c) (F.rgn.RG_SPAN_LIMIT j) * 2 ^ 21

/-- The stack offset of the tag of the unit at `off`, in a protected region (R267). -/
def State.tagOff (s : State) (c off : Nat) : Option Nat :=
  match s.regionAt c off with
  | none => none
  | some j =>
    if s.fon (pgRgn c) (F.rgn.RG_CFG_PROTECT j)
    then some (s.tagArea c j + (off - s.fget (pgRgn c) (F.rgn.RG_SPAN_BASE j) * 2 ^ 21) / 256 * 8) else none

/-- Aperture `a` is VALID and covers the host bytes `[lo, hi)`. -/
def State.apertureHas (s : State) (a lo hi : Nat) : Bool :=
  let b := s.fget pgTir (F.tir.AP_BASE_HOST a)
  s.fon pgTir (F.tir.AP_CFG_VALID a) && b ≤ lo && hi ≤ b + 4096 * s.fget pgTir (F.tir.AP_PAGES_PAGES a)

/-- The aperture that holds a host byte. -/
def State.apertureAt (s : State) (a : Nat) : Option Nat := (List.range 64).find? fun k => s.apertureHas k a (a + 1)

/-- The trained modules of a mask (R271, R377: STAGE 4 is UP). -/
def State.upModules (s : State) (mask : Nat) : List Nat :=
  (bitList 4 mask).filter fun m => s.fget ⟨.lnk, m⟩ F.lnk.LINK_STAT_STAGE == 4

/-- The module that carries a host address: the one its aperture's mask gives, or, outside every aperture, the lowest that is UP;
none where no module of the mask is UP (R271, R378). -/
def State.moduleOf (s : State) (a : Nat) : Option Nat :=
  let ms := s.upModules (match s.apertureAt a with | some k => s.fget pgTir (F.tir.AP_CFG_MODULES k) | none => 15)
  if ms.isEmpty then none else ms[a / 4096 % ms.length]?

/-- The window address an object byte stands for, where its tier is not the Cellar. -/
def State.objLoc (s : State) (h : Nat) (ob : Obj) (o : Nat) : Loc :=
  if ob.tier = 2 then let (c, off) := ob.stackOf o; .cellar c off (s.objProv h ob o)
  else match winOf (ob.place + o) with
    | .shelf t off => .shelf (t * 2 ^ 21 + off)
    | .attic b off => .attic b off
    | .boxroom a => .sealed a (s.objProv h ob o)
    | _ => .shelf 0

/-- Where the byte at a device address lies (its access having passed the checks). -/
def State.locOf (s : State) (a : Nat) : Option Loc :=
  match winOf a with
  | .shelf t off => some (.shelf (t * 2 ^ 21 + off))
  | .attic b off => some (.attic b off)
  | .cellar c off => some (.cellar c off (s.directProv c off))
  | .object h o => (s.obj h).map fun ob => s.objLoc h ob o
  | .boxroom x => some (.host x)
  | .unassigned => none

/-! ### Rights and ranges (R259 to R262, R270, R271), in the order of R49 -/

/-- A bank is being programmed (R270): its slot's install writes the inactive bank. -/
def State.bankProgramming (s : State) (bank : Nat) : Bool :=
  s.fon pgSlot (F.slot.SL_STAT_PROGRAMMING (bank / 2)) && (match s.attic.install with | some i => i.bank == bank % 2 | none => false)

/-- Onyx has released the bank's key. -/
def State.bankKey (s : State) (bank : Nat) : Bool := (Store.get none s.attic.keys bank).isSome

/-- The first failing check of a read of a bank (R270). -/
def State.atticCheck (s : State) (bank off len : Nat) : Option Nat :=
  let n := s.bankLen bank
  if n ≤ off then some stAddrRange
  else if n < off + len then some stLenRange
  else if !s.bankKey bank || s.bankProgramming bank then some stAccess
  else none

/-- `who` may read an object (R262); firmware may read every object (DEDUCED, log 27). -/
def Obj.readable (ob : Obj) : Agent → Bool
  | .firmware => true
  | .tenant t => ob.cls == 2 || ((ob.cls == 0 || ob.cls == 1) && ob.owner == t.val)

/-- `who` may write an object (R262). -/
def Obj.writable (ob : Obj) : Agent → Bool
  | .firmware => true
  | .tenant t => (ob.cls == 0 || ob.cls == 1) && ob.owner == t.val

/-- The first failing check of an access to an object. -/
def State.objCheck (s : State) (who : Agent) (write : Bool) (h o len : Nat) : Option Nat :=
  match s.obj h with
  | none => some stAddrRange
  | some ob =>
    if ob.st = .creating ∨ ob.st = .destroying ∨ ob.size ≤ o then some stAddrRange
    else if ob.size < o + len then some stLenRange
    else if !(if write then ob.writable who else ob.readable who) then some stAccess
    else if write && (ob.st == .moving || ob.tier == 3) then some stAccess
    else if ob.tier = 3 then match winOf (ob.place + o) with
      | .attic b off => s.atticCheck b off len
      | _ => some stAddrRange
    else none

/-- The first failing check of an access to the Boxroom window (R260, R271). Firmware reaches every host address outside SEALED
apertures (log 27). -/
def State.boxroomCheck (s : State) (who : Agent) (write : Bool) (a len : Nat) : Option Nat :=
  match s.apertureAt a with
  | none => if who = .firmware then none else some stAccess
  | some k =>
    if !s.apertureHas k a (a + len) then some stLenRange
    else if s.fon pgTir (F.tir.AP_CFG_SEALED k) then some stAccess
    else match who with
      | .firmware => none
      | .tenant t =>
        if s.fget pgTir (F.tir.AP_CFG_TENANT k) ≠ t.val then some stAccess
        else if write && !s.fon pgTir (F.tir.AP_CFG_WRITABLE k) then some stAccess
        else none

/-- The first failing check of an access to the direct window of a stack (R259, R260). -/
def State.directCheck (s : State) (who : Agent) (c off len : Nat) : Option Nat :=
  if 0xC00000000 < off + len then some stLenRange
  else if who ≠ .firmware then some stAccess
  else if (List.range 64).any fun j =>
      s.regionHas c j off (off + len) && s.fget (pgRgn c) (F.rgn.RG_CFG_KEY j) == 17 && off + len ≤ s.regionDataEnd c j
  then none else some stAccess

/-- The first failing check of an access of `len` bytes at a device address (R259, R260 in the order of R49). -/
def State.rangeCheck (s : State) (who : Agent) (write : Bool) (a len : Nat) : Option Nat :=
  match winOf a with
  | .shelf _ off => if 0x180000 ≤ off then some stAddrRange else if 0x180000 < off + len then some stLenRange else none
  | .attic b off =>
    match s.atticCheck b off len with
    | some st => some st
    | none => if write then some stAccess else none
  | .cellar c off => s.directCheck who c off len
  | .object h o => s.objCheck who write h o len
  | .boxroom x => if 2 ^ 51 < x + len then some stLenRange else s.boxroomCheck who write x len
  | .unassigned => some stAddrRange

/-- A refused write to a MOVING object is counted and raised (R282). -/
def State.noteRefused (s : State) (write : Bool) (a : Nat) : State :=
  match winOf a with
  | .object h _ =>
    match s.obj h with
    | some ob => if write && ob.st == .moving then (s.bump pgTir F.tir.WRITE_REFUSED_COUNT 1).event pgTir 11 stAccess else s
    | none => s
  | _ => s

/-! ### Tags (R267) -/

/-- The 256 ciphertext bytes of the unit a Cellar byte lies in. -/
def State.cellUnit (s : State) (c off : Nat) : List Byte :=
  (List.range 16).flatMap fun i => leBytes 16 (s.cellRaw (c * 2 ^ 32 + off / 256 * 16 + i))

/-- The stack offset of a tag, the value stored there. -/
def State.tagAt (s : State) (c t : Nat) : Nat :=
  (Store.get none s.tiers.tags (c * 2 ^ 33 + t / 8)).getD
    (if s.scrubbed c t then 0 else Config.dram (2 ^ 60 + c * 2 ^ 33 + t / 8) % 2 ^ 64)

/-- The host address of the tag of byte `o` of a protected object in a SEALED aperture (R271). -/
def Obj.hostTag (ob : Obj) (o : Nat) : Nat := ob.place % 2 ^ 51 + roundUp ob.size 256 + o / 256 * 8

/-- The tag of the unit at `o` of an object (of the direct window for none) is right, or the unit carries none. -/
def State.tagGood (s : State) (ob : Option (Obj × Nat)) (l : Loc) : Bool :=
  match l with
  | .cellar c off p => match s.tagOff c off with
    | some t => s.tagAt c t == Config.cmac p (s.cellUnit c off) % 2 ^ 64
    | none => true
  | .sealed a p => match ob with
    | some (ob, o) => if ob.protect then leNat (s.hostRead (ob.hostTag o) 8) == Config.cmac p (s.hostRead (a / 256 * 256) 256) % 2 ^ 64
        else true
    | none => true
  | _ => true

/-- The tag of the unit written anew. -/
def State.retag (s : State) (ob : Option (Obj × Nat)) (l : Loc) : State :=
  match l with
  | .cellar c off p => match s.tagOff c off with
    | some t =>
      let v := Config.cmac p (s.cellUnit c off) % 2 ^ 64
      { s with tiers.tags := Store.set none s.tiers.tags (c * 2 ^ 33 + t / 8) (some v) }
    | none => s
  | .sealed a p => match ob with
    | some (ob, o) => if ob.protect then s.hostWrite (ob.hostTag o) (leBytes 8 (Config.cmac p (s.hostRead (a / 256 * 256) 256))) else s
    | none => s
  | _ => s

/-- The object and offset of an address, for its tags. -/
def State.objOf (s : State) (a : Nat) : Option (Obj × Nat) :=
  match winOf a with
  | .object h o => (s.obj h).map fun ob => (ob, o)
  | _ => none

/-! ### Transfers -/

/-- The addresses at which the 256-byte units of `[a, a + len)` start within the run. -/
def unitStarts (a len : Nat) : List Nat :=
  if len = 0 then [] else (List.range ((a + len - 1) / 256 - a / 256 + 1)).map fun i => if i = 0 then a else (a / 256 + i) * 256

/-- The tier of a location as LAST_ERR codes it. -/
def Loc.tier : Loc → Nat
  | .shelf _ => 1 | .cellar _ _ _ => 2 | .attic _ _ => 3 | .host _ => 4 | .sealed _ _ => 4

/-- A request that ended with TIER_LATE, TIER_FAIL or AUTH at the granule of an address: LAST_ERR, the count, the event (R272, R282). -/
def State.tierEnded (s : State) (a tier status : Nat) : State :=
  let s := ((s.fput pgTir F.tir.LAST_ERR_ADDR a).fput pgTir F.tir.LAST_ERR_STATUS status).fput pgTir F.tir.LAST_ERR_TIER tier
  if status = stTierLate then (s.bump pgTir F.tir.LATE_COUNT 1).event pgTir 8 status
  else if status = stTierFail then (s.bump pgTir F.tir.FAILED_COUNT 1).event pgTir 9 status
  else s

/-- A tag failure at a location: counted by the stack's controller or by the tier manager (R267, R282). -/
def State.authFailed (s : State) (l : Loc) : State :=
  match l with
  | .cellar c _ _ => (s.bump (pgCel c) F.cel.AUTH_FAIL_COUNT 1).event (pgCel c) 10 stAuth
  | _ => (s.bump pgTir F.tir.AUTH_FAIL_COUNT 1).event pgTir 10 stAuth

/-- A granule that cannot be reached: an aperture none of whose modules is UP (R271). -/
def State.unreachable (s : State) (l : Loc) : Bool :=
  match l with
  | .host a => (s.moduleOf a).isNone
  | .sealed a _ => (s.moduleOf a).isNone
  | _ => false

/-- The first unit of a run that fails: no module (TIER_FAIL) or, where tags are checked, a wrong tag (AUTH). -/
def State.badUnit (s : State) (starts : List Nat) : Option (Nat × Nat) :=
  starts.findSome? fun a => match s.locOf a with
    | none => some (a, stAddrRange)
    | some l => if s.unreachable l then some (a, stTierFail) else if !s.tagGood (s.objOf a) l then some (a, stAuth) else none

/-- The counters of the Cellar controllers for the bytes of a run (R284): data bytes, tag bytes, read-modify-writes. -/
def State.meterRun (s : State) (write : Bool) (a len : Nat) : State :=
  (unitStarts a len).foldl (fun s u =>
    match s.locOf u with
    | some (.cellar c off _) =>
      let n := min (256 - u % 256) (a + len - u)
      let s := s.bump (pgCel c) (if write then F.cel.WR_BYTES_COUNT else F.cel.RD_BYTES_COUNT) n
      let tagged := (s.tagOff c off).isSome
      let s := if tagged then s.bump (pgCel c) F.cel.TAG_BYTES_COUNT 8 else s
      if !write then s
      else if tagged then (if n < 256 then s.bump (pgCel c) F.cel.RMW_COUNT 1 else s)
      else s.bump (pgCel c) F.cel.RMW_COUNT
        (if u / 32 = (u + n - 1) / 32 then (if n < 32 then 1 else 0)
         else (if u % 32 = 0 then 0 else 1) + (if (u + n) % 32 = 0 then 0 else 1))
    | _ => s) s

/-- The bytes of a run. -/
def State.runBytes (s : State) (a len : Nat) : List Byte :=
  (List.range len).map fun i => match s.locOf (a + i) with | some l => s.locByte l | none => 0

/-- The bytes of a run put in place. -/
def State.putRun (s : State) (a : Nat) : List Byte → State
  | [] => s
  | b :: bs => State.putRun (match s.locOf a with | some l => s.putLoc l b | none => s) (a + 1) bs

/-- A request ended at a unit: the tag counters, LAST_ERR. -/
def State.unitFailed (s : State) (a st : Nat) : State :=
  match s.locOf a with
  | some l =>
    let s := if st = stAuth then s.authFailed l else s
    s.tierEnded (a / 4096 * 4096) l.tier st
  | none => s

/-- A read of the device range: refused, ended by a unit, or its bytes (R260, R267, R270 to R272). -/
def State.devRead (s : State) (who : Agent) (a len : Nat) : State × Except Nat (List Byte) :=
  match s.rangeCheck who false a len with
  | some st => (s, .error st)
  | none => match s.badUnit (unitStarts a len) with
    | some (u, st) => (s.unitFailed u st, .error st)
    | none => (s.meterRun false a len, .ok (s.runBytes a len))

/-- The units of a write that it covers only in part: those whose tags are checked before it (R268). -/
def partUnits (a len : Nat) : List Nat :=
  (unitStarts a len).filter fun u => u % 256 ≠ 0 || a + len < u + 256

/-- A write of the device range (R260, R268): refused, ended by a unit (those before it written), or done, with its tags. -/
def State.devWrite (s : State) (who : Agent) (a : Nat) (bs : List Byte) : State × Except Nat Unit :=
  match s.rangeCheck who true a bs.length with
  | some st => (s.noteRefused true a, .error st)
  | none =>
    let dead := (unitStarts a bs.length).findSome? fun u => match s.locOf u with
      | some l => if s.unreachable l then some (u, stTierFail) else none
      | none => some (u, stAddrRange)
    match dead.orElse fun _ => s.badUnit (partUnits a bs.length) with
    | some (u, st) => (s.unitFailed u st, .error st)
    | none =>
      let s1 := (s.meterRun true a bs.length).putRun a bs
      ((unitStarts a bs.length).foldl (fun s u => match s.locOf u with | some l => s.retag (s.objOf u) l | none => s) s1, .ok ())

/-- `n` bytes nobody can name: what the destination of an ended request holds (R272). -/
def State.junk (s : State) (n : Nat) : List Byte × State :=
  let (v, s) := s.draw
  (leBytes n v, s)

end Sys2Proof.Machine
end

