-- ==== Sys2Proof/Machine/Tiers.lean ====
section
/-! DEFINITION. The tier manager (R263 to R285): its two command rings and their completions, objects, migrations and refills, MOVE
descriptors, deadlines, and reads and writes of the tiers. -/

namespace Sys2Proof.Machine

def pgMq : Page := ⟨.mq, 0⟩

/-! ### Ring entries (R273) -/

namespace QE
def op (d : Nat) : Nat := fieldAt d 0 8 8
def tenant (d : Nat) : Nat := fieldAt d 0 16 4
def cls (d : Nat) : Nat := fieldAt d 0 20 2
def initZero (d : Nat) : Bool := fieldAt d 0 22 1 == 1
def protect (d : Nat) : Bool := fieldAt d 0 23 1 == 1
def handle (d : Nat) : Nat := fieldAt d 4 0 16
def size (d : Nat) : Nat := fieldAt d 8 0 34
def tier (d : Nat) : Nat := fieldAt d 0x10 0 3
def mask (d : Nat) : Nat := fieldAt d 0x10 8 8
def place (d : Nat) : Nat := fieldAt d 0x18 0 52
def ctag (d : Nat) : Nat := fieldAt d 0x20 0 32
end QE

/-- The fields an opcode uses (R273); STACK_MASK only with TIER 2. -/
def ringFields (op tier : Nat) : List (Nat × Nat × Nat) :=
  let always := [(0, 0, 4), (0, 8, 8), (0, 16, 4), (4, 0, 16), (0x20, 0, 32), (0x3C, 0, 10)]
  let placing := [(0x10, 0, 3), (0x18, 0, 52)] ++ (if tier = 2 then [(0x10, 8, 8)] else [])
  always ++ match op with
    | 1 => [(0, 20, 4), (8, 0, 34)] ++ placing
    | 2 => []
    | 3 => placing
    | 4 => []
    | 5 => [(8, 0, 34), (0x18, 0, 52)]
    | _ => [(0, 20, 4), (8, 0, 34), (0x10, 0, 3), (0x10, 8, 8), (0x18, 0, 52)]

/-- Bytes an object takes in a SEALED aperture, its tags included (R271). -/
def sealedLen (size : Nat) (prot : Bool) : Nat :=
  if prot then roundUp size 256 + (size + 255) / 256 * 8 else size

/-- The pieces a placement occupies, as (space, first, end): spaces 0 to 7 the stacks, 8 the Shelves, 9 host memory. -/
def extents (tier mask place size : Nat) (prot : Bool) : List (Nat × Nat × Nat) :=
  match tier with
  | 1 => [(8, place, place + size)]
  | 2 => (bitList 8 mask).map fun c => (c, place, place + extentLen size (popCount 8 mask))
  | 4 => [(9, place, place + sealedLen size prot)]
  | _ => []

/-- Two lists of pieces share a byte. -/
def piecesMeet (xs ys : List (Nat × Nat × Nat)) : Bool :=
  xs.any fun x => ys.any fun y => x.1 == y.1 && x.2.1 < y.2.2 && y.2.1 < x.2.2

/-- The pieces of an object. -/
def Obj.extents (o : Obj) : List (Nat × Nat × Nat) := Machine.extents o.tier o.mask o.place o.size o.protect

/-- Every piece taken: the objects' and the destinations of running migrations. -/
def State.taken (s : State) : List (Nat × Nat × Nat) :=
  s.tiers.objects.flatMap (fun e => match e.2 with | some o => o.extents | none => [])
  ++ s.tiers.migs.flatMap (fun m => if m.refill then [] else match s.obj m.handle with
      | some o => extents m.tier m.mask m.place o.size o.protect
      | none => [])

/-- The placement's pieces run past their Shelf, bank, aperture or stack (R274, LEN_RANGE). -/
def State.placeLong (s : State) (tier mask place size : Nat) (prot : Bool) : Bool :=
  match tier with
  | 1 => match winOf place with
    | .shelf _ off => off < 0x180000 && 0x180000 < off + size
    | _ => false
  | 2 => 0xC00000000 < place + extentLen size (max 1 (popCount 8 mask))
  | 3 => match winOf place with
    | .attic b off => s.bankLen b < off + size
    | _ => false
  | _ => match winOf place with
    | .boxroom a => match s.apertureAt a with
      | some k => s.fon pgTir (F.tir.AP_CFG_SEALED k) && !s.apertureHas k a (a + sealedLen size prot)
      | none => false
    | _ => false

/-- The placement is misaligned, in no window of its tier, outside every SEALED aperture, on no stack, or taken (R274, ADDR_RANGE). -/
def State.placeWrong (s : State) (tier mask place size : Nat) (prot : Bool) : Bool :=
  (match tier with
   | 1 => place % 64 != 0 || (match winOf place with | .shelf _ off => 0x180000 ≤ off | _ => true)
   | 2 => place % 0x10000 != 0 || mask == 0
   | 3 => (match winOf place with | .attic _ _ => false | _ => true)
   | _ => place % 4096 != 0 || (match winOf place with
      | .boxroom a => (match s.apertureAt a with | some k => !s.fon pgTir (F.tir.AP_CFG_SEALED k) | none => true)
      | _ => true))
  || piecesMeet (extents tier mask place size prot) s.taken

/-- The placement lies where its owner may not put it: a stack region of another key or protection (R266), a bank whose key is not
released or that is being programmed, a Shelf while a run is RUNNING (R276), another tenant's aperture (R274, ACCESS). -/
def State.placeBarred (s : State) (tier mask place size sel tenant : Nat) (prot : Bool) : Bool :=
  match tier with
  | 1 => s.agtState 0 == 3 || s.agtState 1 == 3
  | 2 => !(bitList 8 mask).all fun c => (List.range 64).any fun j =>
      s.regionHas c j place (place + extentLen size (popCount 8 mask)) && s.fget (pgRgn c) (F.rgn.RG_CFG_KEY j) == sel
        && s.fon (pgRgn c) (F.rgn.RG_CFG_PROTECT j) == prot && place + extentLen size (popCount 8 mask) ≤ s.regionDataEnd c j
  | 3 => match winOf place with
    | .attic b _ => !s.bankKey b || s.bankProgramming b
    | _ => false
  | _ => match winOf place with
    | .boxroom a => match s.apertureAt a with
      | some k => s.fget pgTir (F.tir.AP_CFG_TENANT k) != tenant
      | none => false
    | _ => false

/-- A tenant slot is ACTIVE (R408). -/
def State.tenantActive (s : State) (t : Nat) : Bool := s.fget (pgKs t) F.ks.KS_STAT_STATE == 2

/-- The first failing check of a ring entry after its CHECK (R274). -/
def State.ringCheck (s : State) (fw : Bool) (d : Nat) : Option Nat :=
  let op := QE.op d
  let h := QE.handle d
  let ob := s.obj h
  let cls := match ob with | some o => o.cls | none => QE.cls d
  let size := match ob with | some o => if op = 1 then QE.size d else o.size | none => QE.size d
  let prot := match ob with | some o => if op = 1 then QE.protect d else o.protect | none => QE.protect d
  let places := op == 1 || op == 3
  let resident := match ob with | some o => o.st == .resident | none => false
  let sel := if op = 1 then (if QE.cls d = 2 then 16 else if QE.cls d = 3 then 17 else QE.tenant d)
    else match ob with | some o => o.selector | none => 0
  let bank := match winOf (QE.place d) with | .attic b _ => some b | _ => none
  firstFailure [
    (!s.versionOk pgMq (fieldAt d 0 0 4), stVersion),
    (reservedSet 64 d (ringFields op (QE.tier d)) || (op == 1 && 2 ≤ QE.cls d && QE.tenant d != 0), stReservedSet),
    (op == 0 || 5 < op || (places && (QE.tier d == 0 || 4 < QE.tier d)) || (op == 1 && QE.tier d == 3 && QE.cls d != 2)
      || (op == 3 && QE.tier d == 3 && (match ob with | some o => o.cls != 2 | none => false))
      || (places && QE.tier d == 1 && prot), stFormat),
    ((places && s.placeLong (QE.tier d) (QE.mask d) (QE.place d) size prot)
      || (op == 5 && ((match ob with | some o => o.size != QE.size d | none => false)
        || (match winOf (QE.place d) with | .attic b off => s.bankLen b < off + QE.size d | _ => false))), stLenRange),
    (h == 0xFFFF || (places && s.placeWrong (QE.tier d) (QE.mask d) (QE.place d) size prot)
      || (op == 5 && (QE.place d % 64 != 0 || bank.isNone)), stAddrRange),
    ((op == 1 && ob.isSome) || ((op == 2 || op == 3 || op == 5) && !resident)
      || (op != 1 && (match ob with | some o => (if o.cls < 2 then o.owner else 0) != QE.tenant d | none => false))
      || (places && s.placeBarred (QE.tier d) (QE.mask d) (QE.place d) size sel (QE.tenant d) prot)
      || (op == 1 && QE.cls d < 2 && !s.tenantActive (QE.tenant d))
      || (op != 1 && cls < 2 && ob.isSome && !s.tenantActive (QE.tenant d))
      || (op == 1 && QE.protect d && !QE.initZero d)
      || (op == 3 && (match ob with | some o => o.tier == 1 && (s.agtState 0 == 3 || s.agtState 1 == 3) | none => false))
      || (op == 3 && QE.tier d == 3 && (match ob with | some o => o.home != some (QE.place d) | none => true))
      || (op == 5 && (!fw || cls != 2 || (match bank with | some b => !s.bankKey b || s.bankProgramming b | none => true))),
     stAccess)]

/-! ### Completions (R273, R275) -/

/-- HEAD, TAIL, LOG2 and BASE of a ring's completion ring. -/
def State.cqHead (s : State) (fw : Bool) : Nat := s.fget pgMq (if fw then F.mq.FCQ_HEAD_HEAD else F.mq.CQ_HEAD_HEAD)
def State.cqSize (s : State) (fw : Bool) : Nat := 2 ^ s.fget pgMq (if fw then F.mq.FCQ_CFG_LOG2 else F.mq.CQ_CFG_LOG2)
def State.tirCqFull (s : State) (fw : Bool) : Bool :=
  (s.cqHead fw + 1) % s.cqSize fw == s.fget pgMq (if fw then F.mq.FCQ_TAIL_TAIL else F.mq.CQ_TAIL_TAIL) % s.cqSize fw

/-- A completion record (R273); the handle's tier, state and mask as they stand. -/
def State.tirRecord (s : State) (ctag h st op : Nat) : Nat :=
  let o := s.obj h
  let code := match o with
    | none => 0
    | some o => match o.st with | .creating => 1 | .resident => 2 | .moving => 3 | .destroying => 4
  placeAt 0 0 32 ctag + placeAt 4 0 16 h + placeAt 4 16 8 st + placeAt 4 24 8 op
    + placeAt 8 0 3 (match o with | some o => o.tier | none => 0) + placeAt 8 4 3 code
    + placeAt 8 8 8 (match o with | some o => if o.tier = 2 then o.mask else 0 | none => 0)

/-- STALLED or FSTALLED shows that the ring's completion ring is full. -/
def State.showStall (s : State) (fw : Bool) : State :=
  s.fset pgMq (if fw then F.mq.MQ_STAT_FSTALLED else F.mq.MQ_STAT_STALLED) (s.tirCqFull fw)

/-- LAST_ERR of a ring's entry or record that could not be read or written: its own address, its status and tier (R275, R282). -/
def State.ringErr (s : State) (a st : Nat) : State :=
  ((s.fput pgTir F.tir.LAST_ERR_ADDR a).fput pgTir F.tir.LAST_ERR_STATUS st).fput pgTir F.tir.LAST_ERR_TIER
    (match s.locOf a with | some l => l.tier | none => 0)

/-- A completion record written to its ring, with event COMPLETION, and CQ_FULL where it takes the last room (log 23); a record that
cannot be written is lost, its address in LAST_ERR, EVT_STAT bit 9 set (R275). -/
def State.tirWrite (s : State) (fw : Bool) (r : Nat) : State :=
  let base := s.fget pgMq (if fw then F.mq.FCQ_BASE_ADDR else F.mq.CQ_BASE_ADDR)
  let h := s.cqHead fw % s.cqSize fw
  let seq := if fw then s.tiers.fwSeq else s.tiers.drvSeq
  let s1 := if fw then { s with tiers.fwSeq := (seq + 1) % 2 ^ 32 } else { s with tiers.drvSeq := (seq + 1) % 2 ^ 32 }
  let a := base + 16 * h
  match s1.devWrite .firmware a (leBytes 16 (r + placeAt 0xC 0 32 seq)) with
  | (s2, .ok _) =>
    let s3 := s2.fput pgMq (if fw then F.mq.FCQ_HEAD_HEAD else F.mq.CQ_HEAD_HEAD) ((h + 1) % s.cqSize fw)
    (if s3.tirCqFull fw then s3.events pgMq (2 ^ 8 + 2 ^ 9) else s3.event pgMq 8).showStall fw
  | (s2, .error st) => (s2.ringErr a st).event pgMq 9 st

/-- Waiting records written while the ring has room: at most `n`. -/
def State.tirFlush : Nat → Bool → State → State
  | 0, _, s => s
  | n + 1, fw, s =>
    match if fw then s.tiers.fwOut else s.tiers.drvOut with
    | [] => s.showStall fw
    | r :: rest =>
      if s.tirCqFull fw then s.showStall fw
      else State.tirFlush n fw (State.tirWrite (if fw then { s with tiers.fwOut := rest } else { s with tiers.drvOut := rest }) fw r)

/-- A completion of a ring: written, or kept while the completion ring is full. -/
def State.tirComplete (s : State) (fw : Bool) (ctag h st op : Nat) : State :=
  let r := s.tirRecord ctag h st op
  let s := if fw then { s with tiers.fwOut := s.tiers.fwOut ++ [r] } else { s with tiers.drvOut := s.tiers.drvOut ++ [r] }
  State.tirFlush (if fw then s.tiers.fwOut.length else s.tiers.drvOut.length) fw s

/-- The object commands of a ring that wait to complete. -/
def State.ringCmds (s : State) (fw : Bool) : List ObjCmd := if fw then s.tiers.fwr else s.tiers.drv
def State.putCmds (s : State) (fw : Bool) (l : List ObjCmd) : State :=
  if fw then { s with tiers.fwr := l } else { s with tiers.drv := l }

/-- CREATE, DESTROY and QUERY complete in their ring's order (R275). -/
def State.drainCmds : Nat → Bool → State → State
  | 0, _, s => s
  | n + 1, fw, s =>
    match s.ringCmds fw with
    | [] => s
    | c :: rest => match c.ready with
      | none => s
      | some st => State.drainCmds n fw ((s.putCmds fw rest).tirComplete fw c.ctag c.handle st c.op)

/-- An object command appended to its ring's order, and what may complete completed. -/
def State.addCmd (s : State) (fw : Bool) (c : ObjCmd) : State :=
  let l := s.ringCmds fw ++ [c]
  State.drainCmds l.length fw (s.putCmds fw l)

/-- The status of the first waiting command that satisfies `which` is known; what may complete completes. -/
def State.readyCmd (s : State) (fw : Bool) (which : ObjCmd → Bool) (st : Nat) : State :=
  let l := s.ringCmds fw
  match l.findIdx? which with
  | none => s
  | some i => State.drainCmds l.length fw (s.putCmds fw (l.modify i fun c => { c with ready := some st }))

/-! ### Taking entries (R275) -/

/-- The next entry's address, where the ring holds one. -/
def State.ringHead (s : State) (fw : Bool) : Option Nat :=
  let n := 2 ^ s.fget pgMq (if fw then F.mq.FQ_CFG_LOG2 else F.mq.MQ_CFG_LOG2)
  let h := s.fget pgMq (if fw then F.mq.FQ_HEAD_HEAD else F.mq.MQ_HEAD_HEAD) % n
  if h = s.fget pgMq (if fw then F.mq.FQ_TAIL_TAIL else F.mq.MQ_TAIL_TAIL) % n then none
  else some (s.fget pgMq (if fw then F.mq.FQ_BASE_ADDR else F.mq.MQ_BASE_ADDR) + 64 * h)

/-- HEAD moves past the entry taken; the other ring is next (R275). -/
def State.ringPass (s : State) (fw : Bool) : State :=
  let f := if fw then F.mq.FQ_HEAD_HEAD else F.mq.MQ_HEAD_HEAD
  let n := 2 ^ s.fget pgMq (if fw then F.mq.FQ_CFG_LOG2 else F.mq.MQ_CFG_LOG2)
  { s.fput pgMq f ((s.fget pgMq f + 1) % n) with tiers.lastFw := fw }

/-- It is the ring's turn: enabled, its completion ring not full, and either it is not the ring the last command came from or the
other ring has nothing (R275). -/
def State.ringTurn (s : State) (fw : Bool) : Bool :=
  s.enabled pgMq && !s.isolated pgMq && !s.tirCqFull fw && (s.tiers.lastFw != fw || (s.ringHead (!fw)).isNone)

/-- What the next entry of a ring is. -/
inductive Taken where
  | none                            -- nothing to take for this opcode
  | bad (addr status : Nat)         -- an entry that cannot be read
  | refused (d status : Nat)        -- an entry that fails a check
  | entry (d : Nat)
deriving DecidableEq, Repr

/-- The next entry of a ring, for the row of opcode `op`; an entry that cannot be read, fails its CHECK or names no opcode is taken
by whichever row comes (log 29). -/
def State.ringNext (s : State) (fw : Bool) (op : Nat) : State × Taken :=
  match s.ringHead fw with
  | none => (s, .none)
  | some a =>
    if !s.ringTurn fw then (s, .none) else
    match s.devRead .firmware a 64 with
    | (s1, .error st) => (s1, .bad a st)
    | (s1, .ok bs) => match checkStruct 64 (leNat bs) with
      | .failed => (s1, .refused (leNat bs) stCheckFailed)
      | .clean d | .corrected d =>
        if 1 ≤ QE.op d ∧ QE.op d ≤ 5 ∧ QE.op d ≠ op then (s, .none)
        else match s1.ringCheck fw d with
          | some st => (s1, .refused d st)
          | none => (s1, .entry d)

/-- An entry that cannot be read: a completion of zeros with the status, LAST_ERR, the next entry (R275). -/
def State.ringBad (s : State) (fw : Bool) (a st : Nat) : State :=
  ((s.ringPass fw).ringErr a st).tirComplete fw 0 0 st 0

/-- A refused command completes with its status: CREATE, DESTROY and QUERY in their ring's order. -/
def State.ringRefuse (s : State) (fw : Bool) (d st : Nat) : State :=
  let s := s.ringPass fw
  if QE.op d = 3 ∨ QE.op d = 5 then s.tirComplete fw (QE.ctag d) (QE.handle d) st (QE.op d)
  else s.addCmd fw ⟨QE.op d, QE.ctag d, QE.handle d, false, some st⟩

/-- The row of an opcode: the next entry of a ring taken, with `act` on one that passes its checks. -/
def State.ringRow (s : State) (fw : Bool) (op : Nat) (act : State → Nat → State) : State :=
  match s.ringNext fw op with
  | (_, .none) => s
  | (s1, .bad a st) => s1.ringBad fw a st
  | (s1, .refused d st) => s1.ringRefuse fw d st
  | (s1, .entry d) => act s1 d

/-- MQ_DOORBELL (R283): a write of MQ_TAIL, or of FQ_TAIL by a control core. -/
def execMqDoorbell (r : Requester) (fw : Bool) (tail : BitVec 12) (s : State) : Host.Outcome State Fault Refusal :=
  .next (s.hubAdmit r pgMq (if fw then 0x07C else 0x04C) fun s =>
    s.fput pgMq (if fw then F.mq.FQ_TAIL_TAIL else F.mq.MQ_TAIL_TAIL) tail.toNat)

/-! ### Objects -/

/-- OBJECTS of the regions a placement's extents lie in, changed by `f` (R285). -/
def State.regionUse (s : State) (tier mask place : Nat) (f : Nat → Nat) : State :=
  if tier ≠ 2 then s else
  (bitList 8 mask).foldl (fun s c => match s.regionAt c place with
    | some j => s.fput (pgRgn c) (F.rgn.RG_USE_OBJECTS j) (f (s.fget (pgRgn c) (F.rgn.RG_USE_OBJECTS j)))
    | none => s) s

/-- A handle's object set. -/
def State.putObj (s : State) (h : Nat) (o : Option Obj) : State :=
  { s with tiers.objects := Store.set none s.tiers.objects h o }

/-- A handle goes to FREE, its placement given back. -/
def State.freeObj (s : State) (h : Nat) : State :=
  match s.obj h with
  | none => s
  | some o => ((s.regionUse o.tier o.mask o.place (· - 1)).putObj h none).fput pgTir F.tir.OBJ_LIVE_COUNT
      (s.fget pgTir F.tir.OBJ_LIVE_COUNT - 1)

/-- Bytes put at an object's start with their tags, the handle's state not asked. -/
def State.fillObj (s : State) (h : Nat) (bs : List Byte) : State :=
  let a := 0x4000000000000 + h * 2 ^ 34
  let s := (s.meterRun true a bs.length).putRun a bs
  (unitStarts a bs.length).foldl (fun s u => match s.locOf u with | some l => s.retag (s.objOf u) l | none => s) s

/-- CREATE (R263): the placement reserved, the handle CREATING. -/
def execCreate (fw : Bool) (s : State) : Host.Outcome State Fault Refusal :=
  .next (s.ringRow fw 1 fun s d =>
    let o : Obj := ⟨QE.tenant d, QE.cls d, QE.size d, QE.protect d, QE.tier d, QE.mask d, QE.place d, .creating,
      if QE.tier d = 3 then some (QE.place d) else none⟩
    let s := ((s.ringPass fw).putObj (QE.handle d) (some o)).regionUse o.tier o.mask o.place (· + 1)
    (s.fput pgTir F.tir.OBJ_LIVE_COUNT (s.fget pgTir F.tir.OBJ_LIVE_COUNT + 1)).addCmd fw
      ⟨1, QE.ctag d, QE.handle d, QE.initZero d && QE.tier d != 3, none⟩)

/-- CREATE_COMPLETE (R263): the zero-fill of the oldest CREATE of a ring ends, or it had none: the object is RESIDENT. -/
def execCreateComplete (fw : Bool) (s : State) : Host.Outcome State Fault Refusal :=
  match (s.ringCmds fw).find? fun c => c.op == 1 && c.ready.isNone with
  | none => .next s
  | some c =>
    let which (x : ObjCmd) : Bool := x.op == 1 && x.ready.isNone
    match s.obj c.handle with
    | none => .next (s.readyCmd fw which stAborted)
    | some o =>
      let s := if c.zero then s.fillObj c.handle (List.replicate o.size 0) else s
      .next ((s.putObj c.handle (some { o with st := .resident })).readyCmd fw which stDone)

/-- DESTROY (R263): later accesses to the object fail. -/
def execDestroy (fw : Bool) (s : State) : Host.Outcome State Fault Refusal :=
  .next (s.ringRow fw 2 fun s d => match s.obj (QE.handle d) with
    | none => s
    | some o => ((s.ringPass fw).putObj (QE.handle d) (some { o with st := .destroying })).addCmd fw
        ⟨2, QE.ctag d, QE.handle d, false, none⟩)

/-- The handle an address lies in. -/
def handleOf (a : Nat) : Option Nat := match winOf a with | .object h _ => some h | _ => none

/-- Source and destination of a MOVE. -/
def moveLen (d : Nat) : Nat := fieldAt d 8 0 26
def moveSrc (d : Nat) : Nat := fieldAt d 0x10 0 52
def moveDst (d : Nat) : Nat := fieldAt d 0x18 0 52

/-- A running MOVE or fill still reads or writes the object. -/
def State.objInUse (s : State) (h : Nat) : Bool :=
  s.tiers.moves.any (fun m => handleOf (moveSrc m.desc) == some h || handleOf (moveDst m.desc) == some h)
  || s.agate.fills.any (fun f => handleOf f.src == some h)

/-- DESTROY_COMPLETE (R263): outstanding accesses have ended; the handle is FREE. -/
def execDestroyComplete (fw : Bool) (s : State) : Host.Outcome State Fault Refusal :=
  match (s.ringCmds fw).find? fun c => c.op == 2 && c.ready.isNone with
  | none => .next s
  | some c =>
    if s.objInUse c.handle then .next s
    else .next ((s.freeObj c.handle).readyCmd fw (fun x => x.op == 2 && x.ready.isNone) stDone)

/-- QUERY (R273): the object's current tier, state and mask, in its ring's order. -/
def execQuery (fw : Bool) (s : State) : Host.Outcome State Fault Refusal :=
  .next (s.ringRow fw 4 fun s d => (s.ringPass fw).addCmd fw ⟨4, QE.ctag d, QE.handle d, false, some stDone⟩)

/-! ### Migrations and refills (R263, R270, R275, R278) -/

/-- The migrations that run, and their count in MQ_STAT. -/
def State.putMigs (s : State) (l : List Migration) : State :=
  { s with tiers.migs := l }.fput pgMq F.mq.MQ_STAT_MIGRATING l.length

/-- MIGRATE (R263): later writes refused, the destination reserved, the copy begins; a fifth waits and holds up its ring (R275). -/
def execMigrate (fw : Bool) (s : State) : Host.Outcome State Fault Refusal :=
  .next (s.ringRow fw 3 fun s' d =>
    if 4 ≤ s'.tiers.migs.length then s else
    match s'.obj (QE.handle d) with
    | none => s'
    | some o =>
      let s' := ((s'.ringPass fw).putObj (QE.handle d) (some { o with st := .moving })).regionUse (QE.tier d) (QE.mask d) (QE.place d)
        (· + 1)
      s'.putMigs (s'.tiers.migs ++ [⟨fw, false, QE.ctag d, QE.handle d, QE.tier d, QE.mask d, QE.place d⟩]))

/-- REFILL (R278): an object resident in the Attic switches at once; another's contents are to be rewritten. -/
def execRefill (fw : Bool) (s : State) : Host.Outcome State Fault Refusal :=
  .next (s.ringRow fw 5 fun s' d =>
    match s'.obj (QE.handle d) with
    | none => s'
    | some o =>
      if o.tier = 3 then
        ((s'.ringPass fw).putObj (QE.handle d) (some { o with place := QE.place d, home := some (QE.place d) })).tirComplete fw
          (QE.ctag d) (QE.handle d) stDone 5
      else if 4 ≤ s'.tiers.migs.length then s
      else
        let s' := (s'.ringPass fw).putObj (QE.handle d) (some { o with st := .moving })
        s'.putMigs (s'.tiers.migs ++ [⟨fw, true, QE.ctag d, QE.handle d, 3, 0, QE.place d⟩]))

/-- The opcode of a migration's completion. -/
def Migration.op (m : Migration) : Nat := if m.refill then 5 else 3

/-- A migration ended without success: the destination freed, the source kept, the object RESIDENT again (R263); a REFILL leaves the
contents unspecified (R278). -/
def State.migFailed (s : State) (m : Migration) (st : Nat) : State :=
  match s.obj m.handle with
  | none => s
  | some o =>
    let s := if m.refill then
        let (bs, s) := s.junk o.size
        s.fillObj m.handle bs
      else s.regionUse m.tier m.mask m.place (· - 1)
    (s.putObj m.handle (some { o with st := .resident })).tirComplete m.fw m.ctag m.handle st m.op

/-- What the copy of a migration reads: the object itself, or the REFILL's bank range. -/
def Migration.source (m : Migration) : Nat := if m.refill then m.place else 0x4000000000000 + m.handle * 2 ^ 34

/-- The status a copy ends with and the address: a granule that failed, a unit that fails its tag or cannot be reached. -/
def State.copyFault (s : State) (a len : Nat) (f : TierFault) : Option (Nat × Nat) :=
  match f with
  | .failed g => if 4096 * g < max 1 len then some (a + 4096 * g, stTierFail) else none
  | .none => s.badUnit (unitStarts a len)

/-- The copy of a migration done (R263, R278): the bytes in their new place under the object's own key and tweaks, the translation
switched. -/
def State.migDone (s : State) (m : Migration) (o : Obj) : State :=
  let bs := s.runBytes m.source o.size
  let s := (s.meterRun false m.source o.size).bump pgTir F.tir.MOVE_BYTES_COUNT o.size
  if m.refill then
    ((s.fillObj m.handle bs).putObj m.handle (some { o with st := .resident, home := some m.place })).tirComplete m.fw m.ctag
      m.handle stDone 5
  else
    let s := (s.regionUse o.tier o.mask o.place (· - 1)).putObj m.handle
      (some { o with st := .resident, tier := m.tier, mask := m.mask, place := m.place })
    (if m.tier = 3 then s else s.fillObj m.handle bs).tirComplete m.fw m.ctag m.handle stDone 3

/-- The host address of a placement cannot be reached. -/
def State.placeDead (s : State) (m : Migration) : Bool :=
  !m.refill && m.tier == 4 && (s.moduleOf (m.place % 2 ^ 51)).isNone

/-- Migration or refill `k` ends: its copy is complete, or a granule of it ended otherwise. -/
def State.migEnds (s : State) (k : Nat) (refill : Bool) (f : TierFault) : State :=
  match s.tiers.migs[k]? with
  | none => s
  | some m =>
    if m.refill ≠ refill ∨ s.tiers.moves.any (fun v => handleOf (moveDst v.desc) == some m.handle) then s else
    match s.obj m.handle with
    | none => s.putMigs (s.tiers.migs.eraseIdx k)
    | some o =>
      let s := s.putMigs (s.tiers.migs.eraseIdx k)
      if s.placeDead m then (s.tierEnded m.place 4 stTierFail).migFailed m stTierFail else
      match s.copyFault m.source o.size f with
      | some (a, st) => (s.unitFailed a st).migFailed m st
      | none => s.migDone m o

/-- MIGRATE_COMPLETE (R263). -/
def execMigrateComplete (k : Nat) (f : TierFault) (s : State) : Host.Outcome State Fault Refusal := .next (s.migEnds k false f)

/-- A REFILL of a replacement's object that failed: tried again twice, then the slot's service has failed (R302). -/
def State.noteRefill (s : State) (h : Nat) : State :=
  match s.attic.repl.findSome? (fun e => match e.2 with
      | some r => if r.layers.any (fun l => l.objs.contains h) then some (e.1, r) else none
      | none => none) with
  | none => s
  | some (slot, r) =>
    if r.fails < 2 then { s with attic.repl := Store.set none s.attic.repl slot (some { r with fails := r.fails + 1 }) }
    else ({ s with attic.repl := Store.set none s.attic.repl slot none }.fset pgSlot (F.slot.SL_SVC_SVC_FAILED slot) true).fset
      pgSlot (F.slot.SL_SVC_REPLACING slot) false

/-- REFILL_COMPLETE (R278). -/
def execRefillComplete (k : Nat) (f : TierFault) (s : State) : Host.Outcome State Fault Refusal :=
  match s.tiers.migs[k]? with
  | none => .next s
  | some m =>
    let s1 := s.migEnds k true f
    let failed := m.refill && (match s1.obj m.handle with | some o => o.st == .resident && o.home != some m.place | none => false)
    .next (if failed then s1.noteRefill m.handle else s1)

/-- A tenant's running migrations end with ABORTED (R277). -/
def State.abortMigs (s : State) (t : Nat) : State :=
  let mine (m : Migration) : Bool := match s.obj m.handle with | some o => o.cls < 2 && o.owner == t | none => false
  let ended : List Migration := s.tiers.migs.filter mine
  ended.foldl (fun s m => s.migFailed m stAborted) (s.putMigs (s.tiers.migs.filter fun m => !mine m))

/-- A zeroised tenant's objects go to FREE without further writes (R263, R277). -/
def State.freeTenant (s : State) (t : Nat) : State :=
  s.tiers.objects.foldl (fun s e => match e.2 with
    | some o => if o.cls < 2 && o.owner == t then s.freeObj e.1 else s
    | none => s) s

/-! ### Descriptors (R279, R280) -/

/-- The fields of a tier-manager descriptor's opcode. -/
def moveFields (op : Nat) : List (Nat × Nat × Nat) :=
  let always := [(0, 0, 4), (0, 8, 8), (0, 16, 4), (4, 0, 32), (0x3C, 0, 10), (0x3C, 16, 12), (0x3C, 28, 1)]
  if op = 1 then always else always ++ [(8, 0, 26), (0x10, 0, 52), (0x18, 0, 52)]

/-- Two runs of one length share an address. -/
def runsMeet (a b n : Nat) : Bool := 0 < n && a < b + n && b < a + n

/-- The object at an address is a TRAIN_STATE object. -/
def State.trainState (s : State) (a : Nat) : Bool :=
  match s.objOf a with | some (o, _) => o.cls == 1 | none => false

/-- A transfer out of a TRAIN_STATE object goes to memory of another tenant or a shared region (R228): a destination object that is
no TENSOR or TRAIN_STATE. -/
def State.trainLeak (s : State) (src dst : Nat) : Bool :=
  s.trainState src && (match s.objOf dst with | some (o, _) => 2 ≤ o.cls | none => false)

/-- The first failing check of a tier-manager descriptor after its CHECK (R280). -/
def State.moveCheck (s : State) (d : Nat) : Option Nat :=
  let op := descOpcode d
  let n := moveLen d
  let who : Agent := .tenant (Fin.ofNat 16 s.agate.tenant)
  let rs := s.rangeCheck who false (moveSrc d) n
  let rd := s.rangeCheck who true (moveDst d) n
  firstFailure [
    (!s.versionOk pgTir (fieldAt d 0 0 4), stVersion),
    (reservedSet 64 d (moveFields op), stReservedSet),
    (op != 1 && op != 2, stFormat),
    (op == 2 && (n % 64 != 0 || rs == some stLenRange || rd == some stLenRange), stLenRange),
    (op == 2 && (moveSrc d % 64 != 0 || moveDst d % 64 != 0 || rs == some stAddrRange || rd == some stAddrRange
      || runsMeet (moveSrc d) (moveDst d) n), stAddrRange),
    (!s.enabled pgTir || s.isolated pgTir || fieldAt d 0 16 4 != s.agate.tenant
      || (op == 2 && (rs.isSome || rd.isSome || s.trainLeak (moveSrc d) (moveDst d))), stAccess)]

/-- A descriptor at the tier manager: queued, or refused, which ends its run (R194, R280). -/
def State.tirArrive (s : State) (die desc : Nat) (held : Bool) : State :=
  match checkStruct 64 desc with
  | .failed => s.noteRun stCheckFailed
  | .clean d | .corrected d =>
    match s.moveCheck d with
    | some st => (s.noteRefused true (moveDst d)).noteRun st
    | none => { s with tiers.queue := s.tiers.queue ++ [⟨die, d, held⟩] }

/-- The oldest descriptor, if its opcode is `op` and it is not held. -/
def State.tirHead (s : State) (op : Nat) : Option (DieOp × List DieOp) :=
  match s.tiers.queue with
  | o :: rest => if !o.held && descOpcode o.desc = op && s.enabled pgTir then some (o, rest) else none
  | [] => none

/-- The completion tally of a die unit's descriptor, source class 5 for the tier manager (R176, R280). -/
def State.dieTally (s : State) (die d cls : Nat) : State :=
  if descTallyEn d then s.notify die (descTally d) 1 (srcCode cls die) else s

/-- TIR_SIGNAL (R279): a SIGNAL at the head of the tier manager's queue completes DONE. -/
def execTirSignal (s : State) : Host.Outcome State Fault Refusal :=
  match s.tirHead 1 with
  | none => .next s
  | some (o, rest) => .next (({ s with tiers.queue := rest }.dieTally o.die o.desc 5).noteRun stDone)

/-- MOVE (R280): a MOVE at the head of the queue starts, up to eight at a time. -/
def execMove (s : State) : Host.Outcome State Fault Refusal :=
  match s.tirHead 2 with
  | none => .next s
  | some (o, rest) =>
    if 8 ≤ s.tiers.moves.length then .next s
    else .next { s with tiers.queue := rest, tiers.moves := s.tiers.moves ++ [⟨o.die, o.desc⟩] }

/-- A MOVE ended without success: its destination holds unspecified bytes from the failing granule on (R272). -/
def State.moveFailed (s : State) (m : Move) (a st : Nat) : State :=
  let n := moveLen m.desc
  let g := min n ((a - moveSrc m.desc) / 4096 * 4096)
  let s := s.unitFailed a st
  let done := s.runBytes (moveSrc m.desc) g
  let (bs, s) := s.junk (n - g)
  ((s.devWrite .firmware (moveDst m.desc) (done ++ bs)).1).noteRun st

/-- MOVE_COMPLETE (R280): every byte of the `k`-th running MOVE is visible; or a granule of it failed. -/
def execMoveComplete (k : Nat) (f : TierFault) (s : State) : Host.Outcome State Fault Refusal :=
  match s.tiers.moves[k]? with
  | none => .next s
  | some m =>
    let s := { s with tiers.moves := s.tiers.moves.eraseIdx k }
    let n := moveLen m.desc
    match s.copyFault (moveSrc m.desc) n f with
    | some (a, st) => .next (s.moveFailed m a st)
    | none =>
      let bs := s.runBytes (moveSrc m.desc) n
      let s := s.meterRun false (moveSrc m.desc) n
      match s.devWrite .firmware (moveDst m.desc) bs with
      | (s, .error st) => .next (s.noteRun st)
      | (s, .ok _) => .next (((s.bump pgTir F.tir.MOVE_BYTES_COUNT n).dieTally m.die m.desc 5).noteRun stDone)

/-! ### Deadlines (R272) -/

/-- The deadline of a tier in ns; 0: none (R282). -/
def State.deadline (s : State) (tier : Nat) : Nat :=
  s.fget pgTir (if tier = 2 then F.tir.DL_CEL_NS else if tier = 3 then F.tir.DL_ATC_NS else F.tir.DL_BOX_NS)

/-- The tier of the granule at an address, when it has a deadline. -/
def State.lateTier (s : State) (a : Nat) : Option Nat :=
  match s.locOf a with
  | some l => if l.tier ≠ 1 ∧ s.deadline l.tier ≠ 0 then some l.tier else none
  | none => none

/-- TIER_DEADLINE (R272): granule `g` of the `k`-th running request misses its tier's deadline (kind 0 a MOVE, 1 a migration or
refill, 2 a fill): the request ends with TIER_LATE, and a run with it. -/
def execTierDeadline (kind : Fin 3) (k g : Nat) (s : State) : Host.Outcome State Fault Refusal :=
  match kind with
  | 0 => match s.tiers.moves[k]? with
    | none => .next s
    | some m =>
      if moveLen m.desc ≤ 4096 * g then .next s else
      match s.lateTier (moveSrc m.desc + 4096 * g) with
      | none => .next s
      | some _ => .next ({ s with tiers.moves := s.tiers.moves.eraseIdx k }.moveFailed m (moveSrc m.desc + 4096 * g) stTierLate)
  | 1 => match s.tiers.migs[k]? with
    | none => .next s
    | some m => match s.lateTier (m.source + 4096 * g) with
      | none => .next s
      | some _ =>
        let s1 := (s.putMigs (s.tiers.migs.eraseIdx k)).unitFailed (m.source + 4096 * g) stTierLate
        let s2 := s1.migFailed m stTierLate
        .next (if m.refill then s2.noteRefill m.handle else s2)
  | 2 => match s.agate.fills[k]? with
    | none => .next s
    | some f =>
      if f.len ≤ f.pos + 4096 * g then .next s else
      match s.lateTier (f.src + f.pos + 4096 * g) with
      | none => .next s
      | some _ =>
        .next (({ s with agate.fills := s.agate.fills.eraseIdx k }.unitFailed (f.src + f.pos + 4096 * g) stTierLate).noteRun stTierLate)

/-! ### Accesses to a tier -/

/-- What a requester sees of an access: its bytes, or the status it ended with. -/
def State.answer (s : State) (a : Nat) (r : Except Nat (List Byte)) : State :=
  { s with out := s.out ++ [match r with | .ok bs => .read a bs | .error st => .ended a st] }

/-- Errors a Cellar controller's ECC meets (R269): none, one corrected, or an uncorrectable one in the unit of the run's first byte. -/
def State.eccCorrected (s : State) (a : Nat) : State :=
  match s.locOf a with
  | some (.cellar c _ _) => (s.bump (pgCel c) F.cel.ECC_CORR_COUNT 1).event (pgCel c) 8
  | _ => s
def State.eccFailed (s : State) (a : Nat) : State :=
  match s.locOf a with
  | some (.cellar c off _) =>
    let s := s.bump (pgCel c) F.cel.ECC_FAIL_COUNT 1
    let s := if s.fon (pgCel c) F.cel.FAIL_ADDR_VALID then s
      else (s.fput (pgCel c) F.cel.FAIL_ADDR_OFFSET off).fset (pgCel c) F.cel.FAIL_ADDR_VALID true
    (s.event (pgCel c) 9 stTierFail).tierEnded (a / 4096 * 4096) 2 stTierFail
  | _ => s

/-- The address lies in a Cellar stack: directly or through an object. -/
def State.inCellar (s : State) (a : Nat) : Bool := match s.locOf a with | some (.cellar _ _ _) => true | _ => false

/-- CELLAR_READ (R267, R269): bytes of a Cellar run, corrected, tag-checked and decrypted; `ecc` is what the stack's code met:
0 nothing, 1 a correctable error, 2 an uncorrectable one. -/
def execCellarRead (who : Agent) (a : BitVec 52) (len : Nat) (ecc : Fin 3) (s : State) : Host.Outcome State Fault Refusal :=
  if !s.inCellar a.toNat then .next (s.answer a.toNat (.error ((s.rangeCheck who false a.toNat len).getD stAddrRange)))
  else if ecc = 2 ∧ s.rangeCheck who false a.toNat len = none then
    .next ((s.eccFailed a.toNat).answer a.toNat (.error stTierFail))
  else
    let (s1, r) := s.devRead who a.toNat len
    .next ((if ecc = 1 then s1.eccCorrected a.toNat else s1).answer a.toNat r)

/-- CELLAR_WRITE (R268): bytes encrypted and applied, by a read-modify-write where they cover a unit in part, with their tags. -/
def execCellarWrite (who : Agent) (a : BitVec 52) (bytes : List Byte) (s : State) : Host.Outcome State Fault Refusal :=
  if !s.inCellar a.toNat then .next (s.answer a.toNat (.error ((s.rangeCheck who true a.toNat bytes.length).getD stAddrRange)))
  else
    let (s1, r) := s.devWrite who a.toNat bytes
    .next (s1.answer a.toNat (match r with | .ok _ => .ok [] | .error st => .error st))

/-- ATTIC_READ (R270): a read of the Attic window, decrypted with the slot's key; `bad`: the stack met an uncorrectable error. -/
def execAtticRead (who : Agent) (a : BitVec 52) (len : Nat) (bad : Bool) (s : State) : Host.Outcome State Fault Refusal :=
  match winOf a.toNat with
  | .attic _ _ =>
    if bad && (s.rangeCheck who false a.toNat len).isNone then
      .next ((((s.bump pgAtc F.atc.ATC_READ_FAIL_COUNT 1).event pgAtc 10 stTierFail).tierEnded (a.toNat / 4096 * 4096) 3 stTierFail).answer
        a.toNat (.error stTierFail))
    else
      let (s1, r) := s.devRead who a.toNat len
      .next (s1.answer a.toNat r)
  | _ => .next (s.answer a.toNat (.error stAddrRange))

/-- The address is served by the Boxroom: its window, or an object in a SEALED aperture. -/
def State.inBoxroom (s : State) (a : Nat) : Bool :=
  match winOf a with
  | .boxroom _ => true
  | .object h _ => match s.obj h with | some o => o.tier == 4 | none => false
  | _ => false

/-- BOXROOM_ACCESS (R271): a read of `len` bytes, or a write of the bytes given, through the module of each page; `poison`: a completion
carried poison or an error status. -/
def execBoxroomAccess (who : Agent) (a : BitVec 52) (len : Nat) (write : Option (List Byte)) (poison : Bool) (s : State) :
    Host.Outcome State Fault Refusal :=
  let n := match write with | some bs => bs.length | none => len
  if !s.inBoxroom a.toNat then .next (s.answer a.toNat (.error stAddrRange))
  else if poison && (s.rangeCheck who write.isSome a.toNat n).isNone then
    .next ((s.tierEnded (a.toNat / 4096 * 4096) 4 stTierFail).answer a.toNat (.error stTierFail))
  else match write with
    | none =>
      let (s1, r) := s.devRead who a.toNat len
      .next (s1.answer a.toNat r)
    | some bs =>
      let (s1, r) := s.devWrite who a.toNat bs
      .next (s1.answer a.toNat (match r with | .ok _ => .ok [] | .error st => .error st))

end Sys2Proof.Machine
end

