-- ==== Sys2Proof/Machine/Attic.lean ====
section
/-! DEFINITION. The Attic controller (R286 to R306): install packages, selector records, the selector commands, and replacement under
load. -/

namespace Sys2Proof.Machine

/-! ### Selector records (R293 to R295) -/

/-- A selector record: SLOT, ACTIVE, VALID bits, SEQ, SET_A, SET_B, LEN_A, LEN_B, FLOOR, with its CRC and CHECK (R293). -/
def selRecord (slot active valid seq setA setB lenA lenB floor : Nat) : Nat :=
  let d := placeAt 0 0 4 1 + placeAt 0 8 8 0x61 + placeAt 0 16 5 slot + placeAt 0 24 1 active + placeAt 0 25 2 valid
    + placeAt 4 0 32 seq + placeAt 8 0 32 setA + placeAt 0xC 0 32 setB + placeAt 0x10 0 21 lenA + placeAt 0x14 0 21 lenB
    + placeAt 0x18 0 16 floor
  withCheck 64 (d + placeAt 0x34 0 32 (crc32 (leBytes 0x34 d)))

/-- A selector copy is good: CHECK, then CRC, the header fields, and position SEQ mod 2 (R293). -/
def selGood (slot copy r : Nat) : Bool :=
  match checkStruct 64 r with
  | .failed => false
  | .clean d | .corrected d =>
    crc32 (leBytes 0x34 d) == fieldAt d 0x34 0 32 && fieldAt d 0 0 4 == 1 && fieldAt d 0 8 8 == 0x61 && fieldAt d 0 16 5 == slot
      && fieldAt d 4 0 32 % 2 == copy

/-- The ACTIVE bank of a slot. -/
def State.activeBank (s : State) (slot : Nat) : Nat := s.fget pgSlot (F.slot.SL_STAT_ACTIVE slot)

/-- The current selector of a slot with ACTIVE, VALID, one bank's set and length, and FLOOR changed, under SEQ + 1 (R294). -/
def State.nextSelector (s : State) (slot active valid floor : Nat) (bank : Option (Nat × Nat × Nat)) : Nat :=
  let set (b : Nat) (f : Fld) : Nat := match bank with | some (k, v, _) => if k = b then v else s.fget pgSlot f | none => s.fget pgSlot f
  let len (b : Nat) (f : Fld) : Nat := match bank with | some (k, _, n) => if k = b then n else s.fget pgSlot f | none => s.fget pgSlot f
  selRecord slot active valid ((s.fget pgSlot (F.slot.SL_SEQ_SEQ slot) + 1) % 2 ^ 32) (set 0 (F.slot.SL_SET_A_SET slot))
    (set 1 (F.slot.SL_SET_B_SET slot)) (len 0 (F.slot.SL_LEN_A_UNITS slot)) (len 1 (F.slot.SL_LEN_B_UNITS slot)) floor

/-- The slots page shows a selector record as the current one of its slot (R295, R306). -/
def State.showSelector (s : State) (slot r : Nat) : State :=
  let s := s.fput pgSlot (F.slot.SL_STAT_ACTIVE slot) (fieldAt r 0 24 1)
  let s := s.fput pgSlot (F.slot.SL_STAT_VALID slot) (fieldAt r 0 25 2)
  let s := s.fput pgSlot (F.slot.SL_STAT_EMPTY slot) 0
  let s := s.fput pgSlot (F.slot.SL_STAT_FLOOR slot) (fieldAt r 0x18 0 16)
  let s := s.fput pgSlot (F.slot.SL_SEQ_SEQ slot) (fieldAt r 4 0 32)
  let s := s.fput pgSlot (F.slot.SL_SET_A_SET slot) (fieldAt r 8 0 32)
  let s := s.fput pgSlot (F.slot.SL_SET_B_SET slot) (fieldAt r 0xC 0 32)
  let s := s.fput pgSlot (F.slot.SL_LEN_A_UNITS slot) (fieldAt r 0x10 0 21)
  let s := s.fput pgSlot (F.slot.SL_LEN_B_UNITS slot) (fieldAt r 0x14 0 21)
  s.fset pgSlot (F.slot.SL_STAT_KEY_READY slot) (s.bankKey (2 * slot + fieldAt r 0 24 1))

/-- A selector copy programmed and read back good (R294): it sits in position SEQ mod 2 and is the current record. -/
def State.putSelector (s : State) (slot r : Nat) : State :=
  { s with attic.selectors := Store.set none s.attic.selectors (2 * slot + fieldAt r 4 0 32 % 2) (some r) }.showSelector slot r

/-- The record the controller chooses at boot from two copies (R295): the good one, the later SEQ of two, none. -/
def chooseSelector (slot r0 r1 : Nat) : Option Nat :=
  match selGood slot 0 r0, selGood slot 1 r1 with
  | true, true => if (fieldAt r0 4 0 32 - fieldAt r1 4 0 32 : Int) % 2 ^ 32 < 2 ^ 31 then some r0 else some r1
  | true, false => some r0
  | false, true => some r1
  | false, false => none

/-! ### Packages (R288, R289) -/

namespace PK
def member (d : Nat) : Nat := fieldAt d 4 0 32
def set (d : Nat) : Nat := fieldAt d 8 0 32
def version (d : Nat) : Nat := fieldAt d 8 16 16
def slot (d : Nat) : Nat := fieldAt d 0xC 0 5
def signer (d : Nat) : Nat := fieldAt d 0xC 8 1
def units (d : Nat) : Nat := fieldAt d 0x10 0 21
def tensors (d : Nat) : Nat := fieldAt d 0x14 0 13
def layers (d : Nat) : Nat := fieldAt d 0x18 0 13
def fields : List (Nat × Nat × Nat) :=
  [(0, 0, 4), (0, 8, 8), (4, 0, 32), (8, 0, 32), (0xC, 0, 5), (0xC, 8, 1), (0x10, 0, 21), (0x14, 0, 13), (0x18, 0, 13), (0x3C, 0, 10)]
end PK

/-- A run of a byte list. -/
def slice (bs : List Byte) (a n : Nat) : List Byte := (bs.drop a).take n

/-- The modulus a package's signer signs under (R404). -/
def State.signerKey (s : State) (signer : Nat) : Nat :=
  if signer = 1 then Config.part 8 else s.onyx.ivk.getD (Config.part 1)

/-- The private key a package's bank key is wrapped to: the DEK for a Knatrum set, the SUK for a customer's (R403). -/
def State.wrapKey (s : State) (signer : Nat) : Nat :=
  if signer = 1 then Config.part 16 else s.onyx.suk.getD (Config.part 2)

/-- An IVK is enrolled. -/
def State.enrolled (s : State) : Bool := s.fon ⟨.mbx, 0⟩ F.mbx.BOOT_STAT_ENROLLED

/-- The bank key of a package, as Onyx unwraps it. -/
def State.bankKeyOf (s : State) (hd : List Byte) : Option Nat :=
  Config.oaepOpen (s.wrapKey (PK.signer (leNat (hd.take 64)))) (hd.take 64) (slice hd 0x80 512)

/-- An object in any state but FREE has its home in a bank (R292). -/
def State.homed (s : State) (bank : Nat) : Bool :=
  s.tiers.objects.any fun e => match e.2 with
    | some o => match o.home with
      | some a => (match winOf a with | .attic b _ => b == bank | _ => false)
      | none => false
    | none => false

/-- The wear count of block `k` of a bank. -/
def State.wearOf (s : State) (bank k : Nat) : Nat :=
  let key := 248 * bank + k
  (Store.get none s.attic.wear key).getD (Config.wear key)

/-- Blocks of 32 MiB an image of some 4 KiB units erases (R287). -/
def wearBlocks (units : Nat) : Nat := (units * 4096 + 0x1FFFFFF) / 0x2000000

/-- The package lies in one CLEAR aperture or in one object (R260, R290). -/
def State.oneSource (s : State) (a n : Nat) : Bool :=
  match winOf a with
  | .object h o => (match s.obj h with | some ob => o + n ≤ ob.size | none => false)
  | .boxroom x => (match s.apertureAt x with | some k => s.apertureHas k x (x + n) | none => false)
  | _ => false

/-- The first pass over a package's header (R290): the first failing check in its order. -/
def State.headerCheck (s : State) (hd : List Byte) (slot a len : Nat) : Option Nat :=
  match checkStruct 64 (leNat (hd.take 64)) with
  | .failed => some stCheckFailed
  | .clean d | .corrected d =>
    let bank := 2 * slot + (1 - s.activeBank slot)
    firstFailure [
      (!s.versionOk pgAtc (fieldAt d 0 0 4), stVersion),
      (reservedSet 64 d PK.fields || (slice hd 0x480 0xB80).any (· != 0), stReservedSet),
      (fieldAt d 0 8 8 != 0x50
        || PK.member d != s.fget ⟨.vst, 0⟩ F.vst.VSTORE_FAMILY_MEMBER + 2 ^ 16 * s.fget ⟨.vst, 0⟩ F.vst.VSTORE_FAMILY_PARAM_SET
        || (PK.signer d == 0 && !s.enrolled), stFormat),
      (len != 4096 + PK.units d * 4096 || 8321499136 < PK.units d * 4096 || PK.tensors d == 0 || PK.layers d == 0
        || 4096 < PK.tensors d || 4096 < PK.layers d, stLenRange),
      (PK.slot d != slot || !s.oneSource a len, stAddrRange),
      (s.attic.install.isSome || s.attic.selWrite.isSome || s.homed bank || (s.rangeCheck .firmware false a len).isSome, stAccess),
      (!Config.pssVerify (s.signerKey (PK.signer d)) (hd.take 0x280) (slice hd 0x280 512) || (s.bankKeyOf hd).isNone, stAuth),
      (PK.version d < s.fget pgSlot (F.slot.SL_STAT_FLOOR slot), 0x82),
      ((List.range (wearBlocks (PK.units d))).any fun k => 10000 ≤ s.wearOf bank k, 0x81)]

/-- Bytes of the image decrypted with the bank key (R288). -/
def imagePlain (slot key version : Nat) (img : List Byte) (off n : Nat) : List Byte :=
  (List.range n).map fun i =>
    let o := off + i
    blockByte (Config.xtsOpen (bankProv (2 * slot) key version o) (o / 16 % 16) (leNat (slice img (o / 16 * 16) 16))) (o % 16)

/-- A directory entry and the header of its record agree and are well formed (R289). -/
def entryFormat (layers e r : Nat) : Bool :=
  match checkStruct 64 e, checkStruct 64 r with
  | .failed, _ => false
  | _, .failed => false
  | _, _ =>
    !reservedSet 64 e [(0, 0, 32), (4, 0, 5), (4, 16, 12), (8, 0, 64), (0x10, 0, 21), (0x14, 0, 32), (0x3C, 0, 10)]
    && (fieldAt e 4 0 4 == 6 || fieldAt e 4 0 4 == 7) && fieldAt e 4 16 12 < layers
    && fieldAt r 0 0 4 == 1 && fieldAt r 0 8 8 == 0x42 && fieldAt r 0 16 4 == 1
    && fieldAt r 4 0 32 == fieldAt e 0 0 32 && fieldAt r 0 20 4 == fieldAt e 4 0 4 && fieldAt r 0 26 1 == fieldAt e 4 4 1
    && fieldAt r 0xC 0 32 == fieldAt e 8 0 32 && fieldAt r 0x10 0 32 == fieldAt e 0xC 0 32
    && fieldAt r 0x2C 0 32 + 64 == fieldAt e 0x14 0 32

/-- No two of a list of (first, length) runs share an offset. -/
def apart : List (Nat × Nat) → Bool
  | [] => true
  | x :: rest => rest.all (fun y => !(x.1 < y.1 + y.2 && y.1 < x.1 + x.2)) && apart rest

/-- The second pass over the bank image (R289, R290): directory and record headers, then the digest. -/
def imageCheck (d key : Nat) (digest : Nat) (img : List Byte) : Option Nat :=
  let slot := PK.slot d
  let n := PK.tensors d
  let dir := imagePlain slot key (PK.version d) img 0 (roundUp (64 * n) 4096)
  let entries := (List.range n).map fun i => leNat (slice dir (64 * i) 64)
  let recs := entries.map fun e => (4096 * fieldAt e 0x10 0 21, fieldAt e 0x14 0 32)
  let inside := recs.all fun r => r.1 + r.2 ≤ img.length && 64 ≤ r.2
  let heads := entries.map fun e => leNat (imagePlain slot key (PK.version d) img (4096 * fieldAt e 0x10 0 21) 64)
  firstFailure [
    (inside && !((entries.zip heads).all fun p => entryFormat (PK.layers d) p.1 p.2)
      || (slice dir (64 * n) (dir.length - 64 * n)).any (· != 0), stFormat),
    (!inside || !apart ((0, dir.length) :: recs), stAddrRange),
    (Config.sha512 img != digest, stAuth)]

/-! ### Commands (R290, R291, R296) -/

/-- The report of a command that ended (R305); one that ended DONE is logged (R463). -/
def State.atcDone (s : State) (op slot st : Nat) : State :=
  let s := ((s.fput pgAtc F.atc.ATC_RESULT_STATUS st).fput pgAtc F.atc.ATC_RESULT_OP op).fput pgAtc F.atc.ATC_RESULT_SLOT slot
  let s := s.fset pgAtc F.atc.ATC_RESULT_BUSY (s.attic.install.isSome || s.attic.selWrite.isSome)
  let s := s.event pgAtc 8 st
  if st = stDone then s.logEvent pgAtc lcAtticChange st (op % 8 + 2 ^ 8 * slot) else s

/-- A selector write begun (R294). -/
def State.beginSelector (s : State) (slot op : Nat) (raise : Bool) (r : Nat) : State :=
  { s with attic.selWrite := some ⟨slot, op, raise, r⟩ }.fset pgAtc F.atc.ATC_RESULT_BUSY true

/-- VALID with one bank's bit cleared, or set. -/
def validClear (v bank : Nat) : Nat := if bitAt v bank then v - 2 ^ bank else v
def validSet (v bank : Nat) : Nat := if bitAt v bank then v else v + 2 ^ bank

/-- An INSTALL's checks, and the first selector write where they pass (R290, R291). -/
def State.install (s : State) (slot : Nat) : State :=
  let a := s.fget pgAtc F.atc.ATC_SRC_ADDR
  let len := s.fget pgAtc F.atc.ATC_SRC_LEN_LENGTH
  match s.devRead .firmware a 4096 with
  | (s1, .error st) => s1.atcDone 1 slot st
  | (s1, .ok hd) =>
    match s1.headerCheck hd slot a len with
    | some st => s1.atcDone 1 slot st
    | none => match s1.devRead .firmware (a + 4096) (len - 4096) with
      | (s2, .error st) => s2.atcDone 1 slot st
      | (s2, .ok img) =>
        let d := leNat (hd.take 64)
        match imageCheck d ((s2.bankKeyOf hd).getD 0) (leNat (slice hd 0x40 64)) img with
        | some st => s2.atcDone 1 slot st
        | none =>
          let act := s2.activeBank slot
          let bank := 1 - act
          let valid := validClear (s2.fget pgSlot (F.slot.SL_STAT_VALID slot)) bank
          let r := s2.nextSelector slot act valid (s2.fget pgSlot (F.slot.SL_STAT_FLOOR slot)) none
          ({ s2 with attic.install := some ⟨slot, bank, a, len, false⟩,
                     attic.keys := Store.set none s2.attic.keys (2 * slot + bank) none }.fput pgAtc F.atc.ATC_PROGRESS_BYTES
            img.length).beginSelector slot 1 false r

/-- INSTALL (R290): a write of ATC_CMD with OP 1. -/
def execInstall (r : Requester) (slot : Fin 32) (s : State) : Host.Outcome State Fault Refusal :=
  .next (s.hubAdmit r pgAtc 0x040 fun s => if s.enabled pgAtc && !s.log.pwrFail then s.install slot else s.atcDone 1 slot stAccess)

/-- The other selector commands: from control cores only; another requester's write is discarded (R296). -/
def State.selCommand (s : State) (r : Requester) (op slot : Nat) (act : State → State) : State :=
  s.hubAdmit r pgAtc 0x040 fun s =>
    if !r.isCore then s.hostReject
    else if !s.enabled pgAtc || s.log.pwrFail || s.attic.install.isSome || s.attic.selWrite.isSome then s.atcDone op slot stAccess
    else act s

/-- ACTIVATE (R296). -/
def execActivate (r : Requester) (slot : Fin 32) (raise : Bool) (s : State) : Host.Outcome State Fault Refusal :=
  .next (s.selCommand r 2 slot fun s =>
    let bank := 1 - s.activeBank slot
    if !bitAt (s.fget pgSlot (F.slot.SL_STAT_VALID slot)) bank || s.fon pgSlot (F.slot.SL_SVC_REPLACING slot) then s.atcDone 2 slot stAccess
    else
      let floor := if raise then s.bankSet (2 * slot + bank) / 2 ^ 16 else s.fget pgSlot (F.slot.SL_STAT_FLOOR slot)
      s.beginSelector slot 2 raise (s.nextSelector slot bank (s.fget pgSlot (F.slot.SL_STAT_VALID slot)) floor none))

/-- Keys of a slot's banks withdrawn from the controller before its selector is written (R405). -/
def State.dropKeys (s : State) (banks : List Nat) : State :=
  banks.foldl (fun s b => { s with attic.keys := Store.set none s.attic.keys b none }) s

/-- RETIRE of a slot's inactive bank (R296). -/
def execAtticRetire (r : Requester) (slot : Fin 32) (s : State) : Host.Outcome State Fault Refusal :=
  .next (s.selCommand r 3 slot fun s =>
    let act := s.activeBank slot
    let bank := 1 - act
    if s.homed (2 * slot + bank) then s.atcDone 3 slot stAccess
    else
      let s := s.dropKeys [2 * slot + bank]
      s.beginSelector slot 3 false (s.nextSelector slot act (validClear (s.fget pgSlot (F.slot.SL_STAT_VALID slot)) bank)
        (s.fget pgSlot (F.slot.SL_STAT_FLOOR slot)) none))

/-- EMPTY (R296): both banks of the slot. -/
def execEmpty (r : Requester) (slot : Fin 32) (s : State) : Host.Outcome State Fault Refusal :=
  .next (s.selCommand r 4 slot fun s =>
    if s.homed (2 * slot) || s.homed (2 * slot + 1) then s.atcDone 4 slot stAccess
    else
      let s := (s.dropKeys [2 * slot, 2 * slot + 1]).fset pgSlot (F.slot.SL_STAT_KEY_READY slot) false
      s.beginSelector slot 4 false (s.nextSelector slot (s.activeBank slot) 0 (s.fget pgSlot (F.slot.SL_STAT_FLOOR slot)) none))

/-- One block's wear count raised, with the highest count shown (R287, R305). -/
def State.wearBlock (s : State) (bank k : Nat) : State :=
  let n := s.wearOf bank k + 1
  let s := { s with attic.wear := Store.set none s.attic.wear (248 * bank + k) (some n) }
  if s.fget pgAtc F.atc.ATC_WEAR_MAX_CYCLES < n then
    (s.fput pgAtc F.atc.ATC_WEAR_MAX_CYCLES n).fput pgAtc F.atc.ATC_WEAR_BLOCK (248 * bank + k)
  else s

/-- What follows a completed selector write of a command (R291, R296, R301). -/
def State.afterSelector (s : State) (w : SelWrite) : State :=
  match w.op with
  | 1 => match s.attic.install with
    | none => s
    | some i =>
      let s := (List.range (wearBlocks ((i.len - 4096) / 4096))).foldl (fun s k => s.wearBlock (2 * i.slot + i.bank) k) s
      ({ s with attic.install := some { i with programming := true } }.fset pgSlot (F.slot.SL_STAT_PROGRAMMING i.slot) true).fset pgAtc
        F.atc.ATC_RESULT_BUSY true
  | 2 => ((s.atcDone 2 w.slot stDone).fset pgSlot (F.slot.SL_SVC_REPLACING w.slot) true).fput pgSlot (F.slot.SL_SVC_FRONT w.slot) 0
  | 3 => s.atcDone 3 w.slot stDone
  | 4 => s.atcDone 4 w.slot stDone
  | _ => s.fset pgAtc F.atc.ATC_RESULT_BUSY s.attic.install.isSome

/-- A record with SEQ one greater (R295). -/
def refreshed (r : Nat) : Nat :=
  selRecord (fieldAt r 0 16 5) (fieldAt r 0 24 1) (fieldAt r 0 25 2) ((fieldAt r 4 0 32 + 1) % 2 ^ 32) (fieldAt r 8 0 32)
    (fieldAt r 0xC 0 32) (fieldAt r 0x10 0 21) (fieldAt r 0x14 0 21) (fieldAt r 0x18 0 16)

/-- SELECTOR_WRITE_DONE (R294): the copy is programmed and read back good; where it decoded with a corrected error, its contents are
rewritten under SEQ + 1 (R295). -/
def execSelectorWriteDone (corrected : Bool) (s : State) : Host.Outcome State Fault Refusal :=
  match s.attic.selWrite with
  | none => .next s
  | some w =>
    let s := ({ s with attic.selWrite := none }.putSelector w.slot w.rcd).afterSelector w
    .next (if corrected then (s.beginSelector w.slot 0 false (refreshed w.rcd)).event pgAtc 9 else s)

/-- An install ended: PROGRAMMING falls, the result is reported, completed installs are counted. -/
def State.installEnds (s : State) (i : Install) (st : Nat) : State :=
  let s := { s with attic.install := none }.fset pgSlot (F.slot.SL_STAT_PROGRAMMING i.slot) false
  (if st = stDone then s.bump pgAtc F.atc.ATC_INSTALLS_COUNT 1 else s).atcDone 1 i.slot st

/-- The bank programmed, its record and the selector that marks it VALID written (R291, steps 3 to 5). -/
def State.installDone (s : State) (i : Install) (hd img : List Byte) : State :=
  let bank := 2 * i.slot + i.bank
  let d := leNat (hd.take 64)
  let s := { s with attic.cells := Store.write none s.attic.cells (bank * 2 ^ 33) (img.map some),
                    attic.records := Store.set [] s.attic.records bank (hd.take 0x480 ++ leBytes 4 (PK.units d)) }
  let r := s.nextSelector i.slot (s.activeBank i.slot) (validSet (s.fget pgSlot (F.slot.SL_STAT_VALID i.slot)) i.bank)
    (s.fget pgSlot (F.slot.SL_STAT_FLOOR i.slot)) (some (i.bank, PK.set d, PK.units d))
  (s.putSelector i.slot r).installEnds i stDone

/-- INSTALL_COMPLETE (R291): the programming ends; `bad`: an uncorrectable program or read-back error. -/
def execInstallComplete (bad : Bool) (s : State) : Host.Outcome State Fault Refusal :=
  match s.attic.install with
  | none => .next s
  | some i =>
    if !i.programming || s.attic.selWrite.isSome || s.log.pwrFail then .next s
    else match s.devRead .firmware i.src i.len with
      | (s, .error st) => .next (s.installEnds i st)
      | (s, .ok bs) =>
        if bad then .next (s.installEnds i stTierFail)
        else if Config.sha512 (bs.drop 4096) ≠ leNat (slice bs 0x40 64) then .next (s.installEnds i stAuth)
        else .next (s.installDone i (bs.take 4096) (bs.drop 4096))

/-! ### Replacement under load (R301 to R303) -/

/-- Live requests that read a slot: ADMITs of a service whose run names it. -/
def State.liveRequests (s : State) (slot : Nat) : Nat :=
  (s.host.admitted.filter fun a => a.pins.any fun p => p.1.val == slot).length

/-- REPLACE_IN_PLACE (R302): Oneisor fixes the old requests and stands the front at the first layer; with no layer to replace the
replacement is over. -/
def execReplaceInPlace (slot : Fin 32) (layers : List LayerSpec) (s : State) : Host.Outcome State Fault Refusal :=
  if !s.fon pgSlot (F.slot.SL_SVC_REPLACING slot) || s.fon pgSlot (F.slot.SL_CFG_REPL_MODE slot)
    || (Store.get none s.attic.repl slot).isSome then .next s
  else
    let ls := layers.map fun l => (⟨l.pass.map fun p => (p.1, p.2, s.tally p.1 p.2), l.opens, l.objs⟩ : ReplLayer)
    let s := s.fput pgSlot (F.slot.SL_SVC_FRONT slot) 0
    if layers.isEmpty then .next (s.fset pgSlot (F.slot.SL_SVC_REPLACING slot) false)
    else .next { s with attic.repl := Store.set none s.attic.repl slot (some ⟨ls, 0, s.liveRequests slot, 0, 0⟩) }

/-- Every old request has passed a layer: each PASS has advanced that often, or no run is left (R302, R304). -/
def State.passed (s : State) (l : ReplLayer) (old : Nat) : Bool :=
  !s.running || l.pass.all fun p => old ≤ (s.tally p.1 p.2.1 + 2 ^ 32 - p.2.2) % 2 ^ 32

/-- Every object of a layer is RESIDENT with its home in the slot's active bank: its REFILLs have completed. -/
def State.refilled (s : State) (slot : Nat) (l : ReplLayer) : Bool :=
  l.objs.all fun h => match s.obj h with
    | some o => o.st == .resident && (match o.home with
      | some a => (match winOf a with | .attic b _ => b == 2 * slot + s.activeBank slot | _ => false)
      | none => false)
    | none => false

/-- FRONT_ADVANCE (R302): the layer at the front has been passed by every old request and refilled: OPEN advances once for every new
request, the front moves on. -/
def execFrontAdvance (slot : Fin 32) (s : State) : Host.Outcome State Fault Refusal :=
  match Store.get none s.attic.repl slot with
  | none => .next s
  | some r => match r.layers with
    | [] => .next s
    | l :: rest =>
      if !s.passed l r.old || !s.refilled slot l then .next s
      else
        let (src, s) := s.oneisorSrc
        let s := l.opens.foldl (fun s p => s.advanceTally p.1 p.2 r.new src) s
        let s := s.bump pgSlot (F.slot.SL_SVC_FRONT slot) 1
        if rest.isEmpty then
          .next ({ s with attic.repl := Store.set none s.attic.repl slot none }.fset pgSlot (F.slot.SL_SVC_REPLACING slot) false)
        else .next { s with attic.repl := Store.set none s.attic.repl slot (some { r with layers := rest, front := r.front + 1, fails := 0 }) }

/-- GEN_SWITCH (R303): the new generation staged, Oneisor writes GEN between two admissions. -/
def execGenSwitch (slot : Fin 32) (s : State) : Host.Outcome State Fault Refusal :=
  if s.fon pgSlot (F.slot.SL_SVC_REPLACING slot) && s.fon pgSlot (F.slot.SL_CFG_REPL_MODE slot)
  then .next (s.fput pgSlot (F.slot.SL_SVC_GEN slot) (1 - s.fget pgSlot (F.slot.SL_SVC_GEN slot)))
  else .next s

/-- The pins of a generation of a slot. -/
def State.pins (s : State) (slot gen : Nat) : Nat :=
  s.fget pgSlot (if gen = 0 then F.slot.SL_SVC_PIN0 slot else F.slot.SL_SVC_PIN1 slot)

/-- OLD_GEN_DESTROY (R303): the pins of the generation GEN no longer names have fallen to 0: its objects, those homed in the inactive
bank, are destroyed and the replacement is over. -/
def execOldGenDestroy (slot : Fin 32) (s : State) : Host.Outcome State Fault Refusal :=
  let old := 1 - s.fget pgSlot (F.slot.SL_SVC_GEN slot)
  let bank := 2 * slot.val + (1 - s.activeBank slot)
  if !s.fon pgSlot (F.slot.SL_SVC_REPLACING slot) || !s.fon pgSlot (F.slot.SL_CFG_REPL_MODE slot) || s.pins slot old ≠ 0 then .next s
  else
    let mine (o : Obj) : Bool := match o.home with
      | some a => (match winOf a with | .attic b _ => b == bank | _ => false)
      | none => false
    let s := s.tiers.objects.foldl (fun s e => match e.2 with | some o => if mine o then s.freeObj e.1 else s | none => s) s
    .next (s.fset pgSlot (F.slot.SL_SVC_REPLACING slot) false)

end Sys2Proof.Machine
end

