-- ==== Sys2Proof/Machine/Onyx.lean ====
section
/-! DEFINITION. Onyx (R393 to R416), but for the tenant slots: measurements, the SPDM responder, key packages, the mailbox commands,
firmware images, and the release of bank keys. -/

namespace Sys2Proof.Machine

def pgMbx : Page := ⟨.mbx, 0⟩

/-! ### Measurements (R399) -/

/-- Measurement register `i`, as bytes. -/
def State.measBytes (s : State) (i : Nat) : List Byte := leBytes 64 (Store.get 0 s.onyx.meas i)

/-- MEAS_DATA and MEAS_COUNT show the register MEAS_SEL names (R415). -/
def State.showMeas (s : State) : State :=
  let i := s.fget pgMbx F.mbx.MEAS_SEL_INDEX
  let v := Store.get 0 s.onyx.meas i
  ((List.range 16).foldl (fun s k => s.fput pgMbx (F.mbx.MEAS_DATA_DIGEST k) (bitsOf v (32 * k) 32)) s).fput pgMbx
    F.mbx.MEAS_COUNT_COUNT (Store.get 0 s.onyx.measCnt i)

/-- Register `i` extended with a 64-byte digest (R399). -/
def State.extendMeas (s : State) (i : Nat) (d : List Byte) : State :=
  { s with onyx.meas := Store.set 0 s.onyx.meas i (Config.sha512 (s.measBytes i ++ d) % 2 ^ 512),
           onyx.measCnt := Store.set 0 s.onyx.measCnt i (Store.get 0 s.onyx.measCnt i + 1) }.showMeas

/-- A digest as 64 bytes. -/
def digestOf (bs : List Byte) : List Byte := leBytes 64 (Config.sha512 bs)

/-! ### SPDM (R400) -/

/-- An SPDM response through function `fn`. -/
def State.spdmSay (s : State) (fn : Nat) (msg : String) (data : List Byte) : State := { s with out := s.out ++ [.spdm fn msg data] }

/-- The connection state of a function. -/
def State.spdmPut (s : State) (fn v : Nat) : State := { s with onyx.spdm := Store.set 0 s.onyx.spdm fn v }

/-- GET_VERSION: 1.2 and 1.3. -/
def execGetVersion (fn : Fin 4) (s : State) : Host.Outcome State Fault Refusal :=
  .next ((s.spdmPut fn 1).spdmSay fn "VERSION" [0x12#8, 0x13#8])

/-- GET_CAPABILITIES: CERT_CAP, CHAL_CAP, MEAS_CAP = 2 (flag bits 1, 2 and 4:3 of DSP0274, PRESUMED, log 30). -/
def execGetCapabilities (fn : Fin 4) (s : State) : Host.Outcome State Fault Refusal :=
  .next ((s.spdmPut fn 2).spdmSay fn "CAPABILITIES" [0x16#8])

/-- NEGOTIATE_ALGORITHMS: ALGORITHMS, or ERROR with NegotiationFail where the request offers none of R400's. -/
def execNegotiateAlgorithms (fn : Fin 4) (offersRsaPss4096 offersSha512 : Bool) (s : State) : Host.Outcome State Fault Refusal :=
  if offersRsaPss4096 && offersSha512 then .next ((s.spdmPut fn 3).spdmSay fn "ALGORITHMS" [])
  else .next (s.spdmSay fn "ERROR NegotiationFail" [])

/-- The certificate chain of a slot: 0, and after enrolment with a site chain 1. -/
def State.certChain (s : State) (slot : Nat) : Option (List Byte) :=
  if slot = 0 then some (Config.chain 0) else if slot = 1 then s.onyx.siteChain else none

/-- GET_DIGESTS: the digests of the chains held. -/
def execGetDigests (fn : Fin 4) (s : State) : Host.Outcome State Fault Refusal :=
  .next (s.spdmSay fn "DIGESTS" ([0, 1].flatMap fun k => match s.certChain k with | some c => digestOf c | none => []))

/-- GET_CERTIFICATE: a slot's chain; a slot that holds none draws an ERROR. -/
def execGetCertificate (fn : Fin 4) (slot : Fin 8) (s : State) : Host.Outcome State Fault Refusal :=
  match s.certChain slot with
  | some c => .next (s.spdmSay fn "CERTIFICATE" c)
  | none => .next (s.spdmSay fn "ERROR" [])

/-- All measurement registers, as the summary hash takes them. -/
def State.allMeas (s : State) : List Byte := (List.range 16).flatMap s.measBytes

/-- CHALLENGE: CHALLENGE_AUTH with the summary hash over all registers, signed with the DIK over the nonce too. -/
def execChallenge (fn : Fin 4) (nonce : BitVec 256) (s : State) : Host.Outcome State Fault Refusal :=
  let h := digestOf s.allMeas
  .next (s.spdmSay fn "CHALLENGE_AUTH" (h ++ Config.dikSign (h ++ leBytes 32 nonce.toNat)))

/-- The measurement blocks a request names: 1 to 16 are M0 to M15, 0xFE the running bundle's SVN and FLOOR, 0xFF all of them. -/
def State.measBlock (s : State) (i : Nat) : List Byte :=
  let info := leBytes 2 (s.fget pgMbx F.mbx.BOOT_STAT_SVN) ++ leBytes 2 (s.fget pgMbx F.mbx.FW_FLOOR_FLOOR)
  if 1 ≤ i ∧ i ≤ 16 then s.measBytes (i - 1) else if i = 0xFE then info else if i = 0xFF then s.allMeas ++ info else []

/-- GET_MEASUREMENTS: the blocks named, signed when asked. -/
def execGetMeasurements (fn : Fin 4) (block : BitVec 8) (sign : Bool) (nonce : BitVec 256) (s : State) :
    Host.Outcome State Fault Refusal :=
  let m := s.measBlock block.toNat
  .next (s.spdmSay fn "MEASUREMENTS" (if sign then m ++ Config.dikSign (m ++ leBytes 32 nonce.toNat) else m))

/-- Any other request: ERROR with UnsupportedRequest. -/
def execSpdmUnsupported (fn : Fin 4) (s : State) : Host.Outcome State Fault Refusal :=
  .next (s.spdmSay fn "ERROR UnsupportedRequest" [])

/-! ### Key packages (R401) -/

/-- The fields of a package header by type. -/
def pkgFields (ty : Nat) : List (Nat × Nat × Nat) :=
  [(0, 0, 4), (0, 8, 8), (0xC, 0, 16), (0x3C, 0, 10)] ++ match ty with
    | 0x71 => [(4, 24, 1)]
    | 0x72 => [(4, 0, 16), (8, 0, 32)]
    | 0x73 => [(4, 16, 4)]
    | _ => [(4, 0, 20), (4, 24, 1), (8, 0, 32)]

/-- A payload length of a package type. -/
def payloadOk (ty n : Nat) : Bool :=
  match ty with
  | 0x71 => n == 2368 || n == 6464
  | 0x72 => n == 64
  | 0x73 => n == 48
  | _ => false

/-- The checks of a package's header, in order (R401): its data, or the first failing status. -/
def State.pkgHeader (s : State) (p : Page) (ty len hd : Nat) : Except Nat Nat :=
  match checkStruct 64 hd with
  | .failed => .error stCheckFailed
  | .clean d | .corrected d =>
    let n := fieldAt d 0xC 0 16
    let sig := if ty = 0x71 && s.enrolled then 512 else 0
    match firstFailure [
      (!s.versionOk p (fieldAt d 0 0 4), stVersion),
      (reservedSet 64 d (pkgFields (fieldAt d 0 8 8)), stReservedSet),
      (fieldAt d 0 8 8 != ty || !payloadOk ty n || (ty == 0x72 && fieldAt d 4 0 16 == 0), stFormat),
      (len != 0x250 + n + sig, stLenRange)] with
    | some st => .error st
    | none => .ok d

/-- A package read, checked and unwrapped: its header and payload, or the first failing status. -/
def State.package (s : State) (p : Page) (ty a len : Nat) : State × Except Nat (Nat × List Byte) :=
  match s.devRead .firmware a 64 with
  | (s, .error st) => (s, .error st)
  | (s, .ok hb) => match s.pkgHeader p ty len (leNat hb) with
    | .error st => (s, .error st)
    | .ok d => match s.devRead .firmware a len with
      | (s, .error st) => (s, .error st)
      | (s, .ok bs) =>
        let n := fieldAt d 0xC 0 16
        let signed := ty != 0x71 || !s.enrolled
          || Config.pssVerify (s.onyx.ivk.getD (Config.part 1)) (bs.take (0x250 + n)) (bs.drop (0x250 + n))
        match Config.oaepOpen (Config.part 16) (bs.take 64) (slice bs 0x40 512) with
        | none => (s, .error stAuth)
        | some k => match Config.gcmOpen k 0 (bs.take 64) (slice bs 0x250 n) (leNat (slice bs 0x240 16)) with
          | none => (s, .error stAuth)
          | some pl => (s, if signed then .ok (d, pl) else .error stAuth)

/-! ### The mailbox (R415) -/

/-- A mailbox command begun: BUSY, and what it will end with. -/
def State.mbxBegin (s : State) (op status : Nat) (eff : MbxEffect) : State :=
  { s with onyx.mbx := some ⟨op, status, if status = stDone then eff else .none⟩ }.fset pgMbx F.mbx.MBX_RESULT_BUSY true

/-- A write of MBX_CMD: discarded while BUSY; EXTEND from control cores only (R399, R415). -/
def State.mailbox (s : State) (r : Requester) (op : Nat) (act : State → Nat → Nat → State) : State :=
  s.hubAdmit r pgMbx 0x040 fun s =>
    if s.fon pgMbx F.mbx.MBX_RESULT_BUSY then s.bump pgMbx (F.com.EVT_CNT 7) 1
    else if op = 7 && !r.isCore then s.hostReject
    else if !s.enabled pgMbx then s.mbxBegin op stAccess .none
    else act s (s.fget pgMbx F.mbx.MBX_SRC_ADDR) (s.fget pgMbx F.mbx.MBX_LEN_LENGTH)

/-- The device is marked unclaimed: as shipped, by its factory section, and not claimed since, by its site section, which counts as claimed
where it does not verify (R402, R454; log 45). -/
def State.unclaimed (s : State) : Bool :=
  Config.part 5 % 2 == 1 && ((Store.get none s.net.site 4).getD (Config.record 4)) % 2 == 1 && s.boot.recordBad != 2

/-- ENROL (R402). -/
def execEnrol (r : Requester) (s : State) : Host.Outcome State Fault Refusal :=
  .next (s.mailbox r 1 fun s a len =>
    if !s.enrolled && !s.unclaimed then s.mbxBegin 1 stAccess .none
    else match s.package pgMbx 0x71 a len with
      | (s, .error st) => s.mbxBegin 1 st .none
      | (s, .ok (d, pl)) => s.mbxBegin 1 stDone (.enrol pl (fieldAt d 4 24 1 == 1)))

/-- CAK_IMPORT (R411). -/
def execCakImport (r : Requester) (s : State) : Host.Outcome State Fault Refusal :=
  .next (s.mailbox r 5 fun s a len => match s.package pgMbx 0x73 a len with
    | (s, .error st) => s.mbxBegin 5 st .none
    | (s, .ok (d, pl)) => s.mbxBegin 5 stDone (.cakImport (fieldAt d 4 16 4) pl))

/-- CAK_DELETE (R411). -/
def execCakDelete (r : Requester) (k : Fin 16) (s : State) : Host.Outcome State Fault Refusal :=
  .next (s.mailbox r 6 fun s _ _ => s.mbxBegin 6 stDone (.cakDelete k))

/-- EXTEND (R399): M8 to M15 only. -/
def execExtendM (r : Requester) (k : Fin 16) (s : State) : Host.Outcome State Fault Refusal :=
  .next (s.mailbox r 7 fun s a _ =>
    if k.val < 8 then s.mbxBegin 7 stAccess .none
    else match s.devRead .firmware a 64 with
      | (s, .error st) => s.mbxBegin 7 st .none
      | (s, .ok bs) => s.mbxBegin 7 stDone (.extend k bs))

/-! ### Firmware images (R396 to R398) -/

/-- The firmware selector: ACTIVE image and VALID bits, as written or as the running image tells. -/
def State.fwActive (s : State) : Nat :=
  s.attic.fwActive.getD (if s.fon pgMbx F.mbx.BOOT_STAT_FALLBACK then 1 - s.fget pgMbx F.mbx.BOOT_STAT_IMAGE
    else s.fget pgMbx F.mbx.BOOT_STAT_IMAGE)
def State.fwValid (s : State) : Nat := s.attic.fwValid.getD (Config.part 15 % 4)

/-- OFFSET, LENGTH and digest of component `j` of a bundle (R396). -/
def component (bs : List Byte) (j : Nat) : Nat × Nat × Nat :=
  let e := slice bs (0x40 + 80 * j) 80
  (4096 * leNat (e.take 4), leNat (slice e 4 4), leNat (slice e 0x10 64))

/-- Components lie at their offsets, in order, without overlap, inside the bundle. -/
def componentsOk (bs : List Byte) : Bool :=
  let (o0, l0, _) := component bs 0
  let (o1, l1, _) := component bs 1
  let (o2, l2, _) := component bs 2
  0x1000 ≤ o0 && o0 + l0 ≤ o1 && o1 + l1 ≤ o2 && o2 + l2 ≤ bs.length

/-- The verification of a bundle (R397) and of every component digest (R398): the first failing status. -/
def State.bundleCheck (s : State) (bs : List Byte) : Option Nat :=
  match checkStruct 64 (leNat (bs.take 64)) with
  | .failed => some stCheckFailed
  | .clean d | .corrected d =>
    let modulus := slice bs 0x140 512
    firstFailure [
      (!s.versionOk pgMbx (fieldAt d 0 0 4), stVersion),
      (reservedSet 64 d [(0, 0, 4), (0, 8, 8), (4, 0, 32), (8, 0, 32), (0xC, 0, 32), (0x10, 0, 16), (0x3C, 0, 10)], stReservedSet),
      (fieldAt d 0 8 8 != 0x10
        || fieldAt d 4 0 32 != s.fget ⟨.vst, 0⟩ F.vst.VSTORE_FAMILY_MEMBER + 2 ^ 16 * s.fget ⟨.vst, 0⟩ F.vst.VSTORE_FAMILY_PARAM_SET
        || !componentsOk bs, stFormat),
      (fieldAt d 8 0 32 != bs.length, stLenRange),
      ((Config.sha512 modulus != Config.part 6 && Config.sha512 modulus != Config.part 7)
        || !Config.pssVerify (leNat modulus) (bs.take 0x340) (slice bs 0x340 512)
        || fieldAt d 0x10 0 16 < s.fget pgMbx F.mbx.FW_FLOOR_FLOOR
        || (List.range 3).any (fun j => let c := component bs j; Config.sha512 (slice bs c.1 c.2.1) != c.2.2), stAuth)]

/-- FW_UPDATE (R398). -/
def execFwUpdate (r : Requester) (s : State) : Host.Outcome State Fault Refusal :=
  .next (s.mailbox r 2 fun s a len => match s.devRead .firmware a len with
    | (s, .error st) => s.mbxBegin 2 st .none
    | (s, .ok bs) => match s.bundleCheck bs with
      | some st => s.mbxBegin 2 st .none
      | none => s.mbxBegin 2 stDone (.update (1 - s.fwActive) (fieldAt (leNat (bs.take 64)) 0x10 0 16) bs))

/-- FW_ACTIVATE (R398): the other image, if it is VALID. -/
def execFwActivate (r : Requester) (s : State) : Host.Outcome State Fault Refusal :=
  .next (s.mailbox r 3 fun s _ _ =>
    s.mbxBegin 3 (if bitAt s.fwValid (1 - s.fwActive) then stDone else stAccess) .activate)

/-- FW_RAISE_FLOOR (R398): only where the running bundle is the ACTIVE one. -/
def execFwRaiseFloor (r : Requester) (s : State) : Host.Outcome State Fault Refusal :=
  .next (s.mailbox r 4 fun s _ _ =>
    s.mbxBegin 4 (if s.fget pgMbx F.mbx.BOOT_STAT_IMAGE = s.fwActive then stDone else stAccess) .raiseFloor)

/-! ### What a command does when it ends -/

/-- The effect of an ENROL (R402): the IVK, SUK and policy of the payload, a site chain where it carries one, M5 extended. -/
def State.enrolled' (s : State) (pl : List Byte) (policy : Bool) : State :=
  { s with onyx.ivk := some (leNat (pl.take 512)), onyx.suk := some (leNat (slice pl 512 1792)),
           onyx.policy := some (leNat (slice pl 2304 64), policy),
           onyx.siteChain := if pl.length = 6464 then some (pl.drop 2368) else none,
           net.site := Store.set none s.net.site 4 (some 0), net.siteNext := Store.set none s.net.siteNext 4 (some 0) }.fset pgMbx F.mbx.BOOT_STAT_ENROLLED true |>.extendMeas 5 (digestOf (pl.take 512))

/-- CAK_VALID shows the CAKs held. -/
def State.putCak (s : State) (k : Nat) (c : Option (List Byte)) : State :=
  let v := s.fget pgMbx F.mbx.CAK_VALID_VALID
  { s with onyx.caks := Store.set none s.onyx.caks k c }.fput pgMbx F.mbx.CAK_VALID_VALID
    (if c.isSome then v ||| 2 ^ k else v &&& (2 ^ 16 - 1 - 2 ^ k))

/-- No tenant slot stands between ACTIVATING and the end of ZEROISING (R413). -/
def State.tenantsGone (s : State) : Bool :=
  (List.range 16).all fun t => let st := s.fget (pgKs t) F.ks.KS_STAT_STATE; st == 0 || st == 5

/-- The effect of a mailbox command that ends DONE. -/
def State.mbxApply (s : State) : MbxEffect → State
  | .none => s
  | .enrol pl pol => s.enrolled' pl pol
  | .update im svn bs =>
    { s with attic.bundles := Store.set none s.attic.bundles im (some (leNat (slice bs 0xC 4), svn, bs)),
             attic.fwActive := some s.fwActive, attic.fwValid := some (s.fwValid ||| 2 ^ im) }
  | .activate => { s with attic.fwActive := some (1 - s.fwActive), attic.fwValid := some s.fwValid }
  | .raiseFloor =>
    { s with attic.fwFloor := some (s.fget pgMbx F.mbx.BOOT_STAT_SVN) }.fput pgMbx F.mbx.FW_FLOOR_FLOOR
      (s.fget pgMbx F.mbx.BOOT_STAT_SVN)
  | .cakImport k c => s.putCak k (some c)
  | .cakDelete k => s.putCak k none
  | .extend i d => s.extendMeas i d
  | .debug tok =>
    ({ s with onyx.debugLevel := fieldAt (leNat (tok.take 64)) 4 0 8 }.extendMeas 6 (digestOf tok)).fset pgMbx F.mbx.BOOT_STAT_DEBUG true

/-- A command's report: MBX_RESULT, BUSY clear, CMD_DONE, and AUTH_FAIL counted (R415). -/
def State.mbxReport (s : State) (op st : Nat) : State :=
  let s := ((s.fput pgMbx F.mbx.MBX_RESULT_STATUS st).fput pgMbx F.mbx.MBX_RESULT_OP op).fset pgMbx F.mbx.MBX_RESULT_BUSY false
  let s := if st = stAuth then s.bump pgMbx F.mbx.SIG_FAIL_COUNT 1 else s
  let s := if st = stDone ∧ 2 ≤ op ∧ op ≤ 4 then s.logEvent pgMbx lcAtticChange st op
    else if st = stDone ∧ op = 8 then s.logEvent pgMbx lcDebugGrant st (s.onyx.debugLevel % 4) else s
  s.events pgMbx (2 ^ 8 + (if st = stAuth then 2 ^ 9 else 0) + (if st = stDone ∧ op = 8 then 2 ^ 10 else 0)) st

/-- MAILBOX_CMD_DONE (R415): the running command ends; a DEBUG_GRANT waits for every tenant slot to leave ZEROISING (R413). -/
def execMailboxCmdDone (s : State) : Host.Outcome State Fault Refusal :=
  match s.onyx.mbx with
  | none => .next s
  | some c =>
    if c.op = 8 ∧ c.status = stDone ∧ !s.tenantsGone then .next s
    else .next (({ s with onyx.mbx := none }.mbxApply c.effect).mbxReport c.op c.status)

/-- ENTROPY_FAIL (R393): the DRBG stops, and the failure is logged (R463 lists no code for it: a free one, log 94). -/
def execEntropyFail (s : State) : Host.Outcome State Fault Refusal :=
  let (v, s) := { s with onyx.drbgStopped := true }.draw
  .next (s.logEvent pgMbx (0x8000 + v % 2 ^ 15) (v / 2 ^ 15 % 2 ^ 8) (v / 2 ^ 23 % 2 ^ 32))

/-! ### Bank keys (R403 to R405) -/

/-- The bank record of a bank. -/
def State.bankRecord (s : State) (bank : Nat) : List Byte :=
  let r := Store.get [] s.attic.records bank
  if r.isEmpty then Config.bankRecord bank else r

/-- The policy that a customer bank key's release depends on (R405). -/
def State.policyMet (s : State) : Bool :=
  match s.onyx.policy with
  | some (dig, req) => !req || Config.sha512 (s.measBytes 1 ++ s.measBytes 2 ++ s.measBytes 3) == dig
  | none => Config.part 4 % 2 != 1 || Config.sha512 (s.measBytes 1 ++ s.measBytes 2 ++ s.measBytes 3) == Config.part 3

/-- KEY_READY of a slot: its ACTIVE bank's key is released (R306). -/
def State.showKeyReady (s : State) (slot : Nat) : State :=
  s.fset pgSlot (F.slot.SL_STAT_KEY_READY slot) (s.bankKey (2 * slot + s.activeBank slot))

/-- BANK_KEY_RELEASE (R405): a VALID bank's record verifies and its key unwraps: the key goes to the Attic controller, M7 is extended;
where the policy is not met, or the record does not verify, nothing is released. -/
def execBankKeyRelease (bank : Fin 64) (s : State) : Host.Outcome State Fault Refusal :=
  let rec' := s.bankRecord bank
  let signer := PK.signer (leNat (rec'.take 64))
  if !bitAt (s.fget pgSlot (F.slot.SL_STAT_VALID (bank / 2))) (bank % 2) then .next s
  else if signer = 0 && !s.policyMet then
    .next ((s.fset pgMbx F.mbx.BOOT_STAT_POLICY_MET false).showKeyReady (bank / 2))
  else if !Config.pssVerify (s.signerKey signer) (rec'.take 0x280) (slice rec' 0x280 512) then .next (s.showKeyReady (bank / 2))
  else match s.bankKeyOf rec' with
    | none => .next (s.showKeyReady (bank / 2))
    | some k =>
      .next (({ s with attic.keys := Store.set none s.attic.keys bank (some k) }.extendMeas 7 (digestOf rec')).showKeyReady (bank / 2))

end Sys2Proof.Machine
end

