-- ==== Sys2Proof/Machine/Ports.lean ====
section
/-! DEFINITION. The fabric ports (R307 to R340): frames and class queues, gate lists, control frames, lane shedding, low-power idle, the
twin link, the firmware rings and the management port. What a received frame is sorted to stands in Frames.lean. -/

namespace Sys2Proof.Machine

def pgEth (n : Nat) : Page := ⟨.eth, n⟩
def pgGl (n : Nat) : Page := ⟨.gl, n⟩
def pgMs (n : Nat) : Page := ⟨.ms, n⟩
def pgMgt : Page := ⟨.mgt, 0⟩
/-- The twin registers have one home, whichever ETH page maps them (R337). -/
def pgTwin : Page := ⟨.eth, 0⟩

/-! ### The configuration record (R454) -/

/-- A field of the configuration record, by the numbers of `Config.record`. -/
def State.record (s : State) (k : Nat) : Nat :=
  if (s.boot.recordBad = 1 ∨ s.boot.recordBad = 3) ∧ 100 ≤ k ∧ k < 168 then 0
  else if s.boot.recordBad = 2 ∧ k < 16 then 0
  else (Store.get none s.net.site k).getD (Config.record k)

/-- A field of the record as the next boot will find it. -/
def State.recordNext (s : State) (k : Nat) : Nat := (Store.get none s.net.siteNext k).getD (s.record k)

/-- A field of the record's site section written, for the next boot. -/
def State.putRecordNext (s : State) (k v : Nat) : State := { s with net.siteNext := Store.set none s.net.siteNext k (some v) }
def State.macBase (s : State) : Nat := s.record 17 % 2 ^ 48
def State.twinMac (s : State) : Nat := s.record 7 % 2 ^ 48

/-! ### Ports and frames -/

def State.port (s : State) (n : Nat) : Port := Store.get {} s.net.ports n
def State.putPort (s : State) (n : Nat) (p : Port) : State := { s with net.ports := Store.set {} s.net.ports n p }
def State.linkUp (s : State) (n : Nat) : Bool := s.fon (pgEth n) F.eth.PORT_STAT_LINK_UP

/-- Bytes of a frame from the destination address through the FCS. -/
def frameLen (f : Frame) : Nat := 18 + (if f.tag.isSome then 4 else 0) + f.data.length

/-- Big-endian bytes, as addresses and EtherTypes stand on the wire. -/
def beBytes (n v : Nat) : List Byte := (leBytes n v).reverse
def beNat (bs : List Byte) : Nat := leNat bs.reverse

/-- A frame's bytes from the destination address up to but not including the FCS. -/
def frameBytes (f : Frame) : List Byte :=
  beBytes 6 f.dst ++ beBytes 6 f.src ++ (match f.tag with | some t => beBytes 2 0x8100 ++ beBytes 2 t | none => []) ++ beBytes 2 f.ety
    ++ f.data

/-- The frame of a byte list of at least 14 bytes. -/
def frameOfBytes (bs : List Byte) : Frame :=
  let dst := beNat (bs.take 6)
  let src := beNat (slice bs 6 6)
  if beNat (slice bs 12 2) = 0x8100 ∧ 18 ≤ bs.length then ⟨dst, src, some (beNat (slice bs 14 2)), beNat (slice bs 16 2), bs.drop 18⟩
  else ⟨dst, src, none, beNat (slice bs 12 2), bs.drop 14⟩

/-- MACsec is enabled on a port. -/
def State.msOn (s : State) (n : Nat) : Bool := s.fon (pgMs n) F.ms.MS_CTRL_ENABLE

/-- A frame goes out, or may come in, without protection: PTP with PTP_CLEAR (R321). -/
def State.ptpClear (s : State) (n : Nat) (f : Frame) : Bool := f.ety == 0x88F7 && s.fon (pgMs n) F.ms.MS_CTRL_PTP_CLEAR

/-- The wire time of a frame at the port's width, in 1/100 ns (R318). -/
def State.wireTime (s : State) (n : Nat) (f : Frame) : Nat :=
  (frameLen f + 20 + (if s.msOn n then 32 else 0)) * 2 ^ s.fget (pgEth n) F.eth.PORT_STAT_CUR_WIDTH

/-! ### Gates (R314 to R319) -/

/-- Every gate open, as while no list is in effect. -/
def Gate.open : Gate := ⟨0, 0x7F, true, true⟩

/-- Where offset `o` of a cycle falls in its entries from index `j`, begun at `sum`: the entry's index, the entry, its end. The last
entry that lasts holds to the end of the cycle (R316). -/
def gateWalk (cycle o : Nat) : List Gate → Nat → Nat → Option (Nat × Gate × Nat)
  | [], _, _ => none
  | g :: rest, j, sum =>
    if g.interval = 0 then gateWalk cycle o rest (j + 1) sum
    else if o < sum + g.interval then
      some (j, g, if (rest.all fun x => x.interval == 0) then cycle else min cycle (sum + g.interval))
    else match gateWalk cycle o rest (j + 1) (sum + g.interval) with
      | some r => some r
      | none => some (j, g, cycle)

/-- The entry of a list at TIME `t`, and the instant it ends. -/
def GateList.entryAt (l : GateList) (t : Nat) : Nat × Gate × Nat :=
  let o := (((t : Int) - l.start) % (max 1 l.cycle : Nat)).toNat
  match gateWalk l.cycle o l.entries 0 0 with
  | some (j, g, e) => (j, g, t - o + e)
  | none => (0, Gate.open, t - o + max 1 l.cycle)

/-- The list in force on a port at TIME `t`: a pending one from its C on, else the operating one. -/
def Port.listAt (p : Port) (t : Nat) : Option GateList :=
  match p.pend with
  | some l => if l.start ≤ t then some l else p.oper
  | none => p.oper

/-- The gates of port `n` at TIME `t`: entry, gate states, the instant they may change (none: never) (R316). -/
def State.gatesAt (s : State) (n t : Nat) : Nat × Gate × Option Nat :=
  let p := s.port n
  if !s.fon (pgGl n) F.gl.GL_CTRL_GATE_EN then (0, Gate.open, none) else
  let c := match p.pend with | some l => if t < l.start then some l.start else none | none => none
  match p.listAt t with
  | none => (0, Gate.open, c)
  | some l =>
    let (j, g, e) := l.entryAt t
    (j, g, some (match c with | some x => min e x | none => e))

/-- The gate of class `c` stays open from TIME `t` to `stop`, in 1/100 ns (R318). -/
def State.openThrough (s : State) (n c : Nat) : Nat → Nat → Nat → Bool
  | 0, _, _ => false
  | fuel + 1, t, stop =>
    let (_, g, e) := s.gatesAt n t
    if !bitAt g.gates c then false
    else match e with
      | none => true
      | some e => if stop ≤ 100 * e then true else State.openThrough s n c fuel (max (t + 1) e) stop

/-- An agreed lane change forbids a frame that would still be on the wire at its instant (R324). -/
def State.shedBlocks (s : State) (n : Nat) (f : Frame) : Bool :=
  match (s.port n).shed with
  | some x => x.agreed && 100 * x.at_ < 100 * s.time.toNat + s.wireTime n f
  | none => false

/-- A frame of class `c` may start now (R312, R313, R318, R324). -/
def State.mayStart (s : State) (n c : Nat) (f : Frame) : Bool :=
  let w := s.wireTime n f
  !s.shedBlocks n f && (c == 7 || s.openThrough n c (w / 100 + 2) s.time.toNat (100 * s.time.toNat + w))

/-! ### Sending -/

/-- A class queue of a port. -/
def Port.queue (p : Port) (c : Nat) : List QFrame := Store.get [] p.queues c
def Port.putQueue (p : Port) (c : Nat) (q : List QFrame) : Port := { p with queues := Store.set [] p.queues c q }

/-- Every class queue is empty. -/
def Port.idle (p : Port) : Bool := (List.range 8).all fun c => (p.queue c).isEmpty

/-- A frame handed to a port (R309, R312, R43): oversize frames and frames for a port that is down or disabled are not sent. -/
def State.sendFrame (s : State) (n c : Nat) (f : Frame) (src : Nat) : State :=
  if s.fget (pgEth n) F.eth.PORT_CFG_MAX_PAYLOAD < f.data.length then s.bump (pgEth n) F.eth.TX_OVERSIZE_COUNT 1
  else if !s.linkUp n || !s.enabled (pgEth n) then s.bump (pgEth n) F.eth.TX_DISCARD_LINKDOWN_COUNT 1
  else let p := s.port n; s.putPort n (p.putQueue c (p.queue c ++ [⟨f, src, none⟩]))

/-- The next frame of a class: sources in turn after the one served last, one frame at a time (R312). -/
def Port.next (p : Port) (c : Nat) : Option (Nat × QFrame) :=
  let q := p.queue c
  let last := Store.get 4 p.served c
  (List.range 5).findSome? fun i =>
    let src := (last + 1 + i) % 5
    match q.findIdx? (fun x => x.src == src) with
    | some k => q[k]?.map fun f => (k, f)
    | none => none

/-- A timestamp in 1/256 ns: TIME with its fraction, and the port's latency (R320). -/
def State.stamp (s : State) (n : Nat) (f : Fld) : Nat :=
  256 * s.time.toNat + s.tbase.frac / 10 ^ 9 + s.fget (pgEth n) f

/-- Registers of the rings of port `n`; 8 is the management port (R336, R340). -/
def ringPage (n : Nat) : Page := if n < 8 then pgEth n else pgMgt

/-- The ring address of transmit entry `k`. -/
def State.txEntry (s : State) (n k : Nat) : Nat := s.fget (ringPage n) F.eth.TXQ_BASE_ADDR + 32 * k

/-- The completion of a firmware transmit entry: timestamp, STATUS, DONE and a new CHECK, TXQ_HEAD advanced (R333). -/
def State.txDone (s : State) (n k ts st : Nat) : State :=
  let p := ringPage n
  let a := s.txEntry n k
  let (s1, r) := s.devRead .firmware a 32
  let d := match r with | .ok bs => leNat bs | .error _ => 0
  let kept := d % 2 ^ 128
  let v := withCheck 32 (kept + placeAt 0x10 0 64 (ts / 256) + placeAt 0x18 0 8 ts + placeAt 0x18 8 8 st + placeAt 0x1C 31 1 1)
  let s2 := (s1.devWrite .firmware a (leBytes 32 v)).1
  let s3 := s2.fput p F.eth.TXQ_HEAD_HEAD ((k + 1) % 2 ^ s.fget p F.eth.TXQ_CFG_LOG2)
  if n < 8 then s3.putPort n { s3.port n with fwBusy := false } else s3

/-- A frame put on the wire: counters, the MACsec packet number, its completion (R312, R327, R333). -/
def State.transmit (s : State) (n c : Nat) (q : QFrame) : State :=
  let sec := s.msOn n && !s.ptpClear n q.frame
  let s := { s with out := s.out ++ [Out.frame n c q.frame sec] }
  let s := ((s.bump (pgEth n) F.eth.TX_FRAMES_COUNT 1).bump (pgEth n) F.eth.TX_BYTES_COUNT (frameLen q.frame + if sec then 32 else 0)).bump
    (pgEth n) (F.eth.TXC_COUNT c) 1
  let an := s.fget (pgMs n) F.ms.MS_CTRL_TX_AN
  let s := if !sec then s else
    let pn := s.fget (pgMs n) (F.ms.MS_TX_PN_PN an) + 1
    let s := (s.fput (pgMs n) (F.ms.MS_TX_PN_PN an) pn).bump (pgMs n) F.ms.MS_OUT_PROT_COUNT 1
    if pn = 2 ^ 62 + 1 then s.event (pgMs n) 9 else s
  match q.entry with
  | none => s
  | some (k, ts) => s.txDone n k (if ts then s.stamp n F.eth.TS_LAT_TX_LAT else 0) stDone

/-- A head that does not fit is counted once (R318). -/
def State.countHeld (s : State) (n c : Nat) : State :=
  let p := s.port n
  if Store.get false p.heldCounted c then s
  else (s.putPort n { p with heldCounted := Store.set false p.heldCounted c true }).bump (pgGl n) F.gl.GL_HELD_COUNT 1

/-- The port starts a frame: class 7 first, then the highest class whose head may start; heads that do not fit stay (R312). -/
def State.startFrame (s : State) (n : Nat) : List Nat → State
  | [] => s
  | c :: rest =>
    let p := s.port n
    match p.next c with
    | none => State.startFrame s n rest
    | some (k, q) =>
      if s.mayStart n c q.frame then
        (s.putPort n { p.putQueue c ((p.queue c).eraseIdx k) with
          served := Store.set 4 p.served c q.src, heldCounted := Store.set false p.heldCounted c false }).transmit n c q
      else if c = 7 then s
      else State.startFrame (s.countHeld n c) n rest

/-! ### The management port (R334, R335) -/

/-- A frame of the management port ended: sent or discarded, its entry completed. -/
def State.mgtEnds (s : State) (m : MgtFrame) (rest : List MgtFrame) (st : Nat) : State :=
  let s := { s with net.mgt := rest }
  match m.entry with
  | some k => s.txDone 8 k 0 st
  | none => s

/-- The management port sends its oldest frame; in half duplex it defers while carrier is sensed (R335). -/
def State.mgtSend (s : State) (carrier : Bool) : State :=
  match s.net.mgt with
  | [] => s
  | m :: rest =>
    if m.backoff.isSome then s
    else if carrier && !s.fon pgMgt F.mgt.MGT_CFG_FULL_DUPLEX then s.bump pgMgt F.mgt.DEFERRED_COUNT 1
    else ({ s with out := s.out ++ [Out.mgtFrame m.bytes] }.bump pgMgt F.mgt.TX_FRAMES_COUNT 1).mgtEnds m rest stDone

/-- FRAME_TRANSMIT (R312): the frame boundary of port `n` (8: the management port, where `carrier` is sensed). -/
def execFrameTransmit (n : Fin 9) (carrier : Bool) (s : State) : Host.Outcome State Fault Refusal :=
  if n.val = 8 then .next (s.mgtSend carrier)
  else if !s.linkUp n || s.fon (pgEth n) F.eth.PORT_STAT_LPI then .next s
  else if s.msOn n && !s.fon (pgMs n) (F.ms.MS_SA_TX_VALID (s.fget (pgMs n) F.ms.MS_CTRL_TX_AN)) then .next s
  else .next (s.startFrame n [7, 6, 5, 4, 3, 2, 1, 0])

/-- COLLISION (R335): a collision of the frame the management port sends in half duplex. -/
def execCollision (late : Bool) (s : State) : Host.Outcome State Fault Refusal :=
  match s.net.mgt with
  | [] => .next s
  | m :: rest =>
    if s.fon pgMgt F.mgt.MGT_CFG_FULL_DUPLEX then .next s
    else
      let s := { s with out := s.out ++ [Out.jam] }.bump pgMgt F.mgt.COLLISIONS_COUNT 1
      if late then .next ((s.bump pgMgt F.mgt.LATE_COLL_COUNT 1).mgtEnds m rest stTimeout)
      else if 16 ≤ m.attempts + 1 then .next ((s.bump pgMgt F.mgt.EXCESS_COLL_COUNT 1).mgtEnds m rest stTimeout)
      else
        let (v, s) := s.draw
        .next { s with net.mgt := { m with attempts := m.attempts + 1, backoff := some (v % 2 ^ min (m.attempts + 1) 10) } :: rest }

/-- BACKOFF_EXPIRY (R335): the slots of the backoff have passed; the port may try again. -/
def execBackoffExpiry (s : State) : Host.Outcome State Fault Refusal :=
  match s.net.mgt with
  | [] => .next s
  | m :: rest => .next { s with net.mgt := { m with backoff := none } :: rest }

/-- MDIO_CMD (R334): a Clause 22 frame to the external PHY; `answer` is what the PHY returns on a read. -/
def execMdioCmd (r : Requester) (reg phy : Fin 32) (write : Bool) (answer : BitVec 16) (s : State) : Host.Outcome State Fault Refusal :=
  .next (s.hubAdmit r pgMgt 0x050 fun s =>
    if write then { s with out := s.out ++ [Out.mdio phy reg (s.fget pgMgt F.mgt.MDIO_DATA_DATA)] }
    else s.fput pgMgt F.mgt.MDIO_DATA_DATA answer.toNat)

/-! ### Firmware transmit entries (R333) -/

/-- TXQ_DOORBELL (R333): a write of TXQ_TAIL. -/
def execTxqDoorbell (r : Requester) (n : Fin 9) (tail : BitVec 12) (s : State) : Host.Outcome State Fault Refusal :=
  .next (s.hubAdmit r (ringPage n) 0x0A4 fun s => s.fput (ringPage n) F.eth.TXQ_TAIL_TAIL tail.toNat)

/-- The status with which an entry fails before its frame is read, in the order of R49. -/
def txCheck (n d : Nat) : Option Nat :=
  firstFailure [
    (reservedSet 32 d [(0, 0, 52), (8, 0, 14), (8, 16, 4), (0x10, 0, 64), (0x18, 0, 16), (0x1C, 0, 9), (0x1C, 31, 1)]
      || (n == 8 && fieldAt d 8 16 4 != 0), stReservedSet),
    (fieldAt d 8 0 14 < 14, stLenRange)]

/-- The taken entry's frame queued, or its completion where it cannot be sent. -/
def State.txQueue (s : State) (n k d : Nat) (f : Frame) (bs : List Byte) : State :=
  if n = 8 then
    if 1500 < f.data.length then s.txDone 8 k 0 stLenRange else { s with net.mgt := s.net.mgt ++ [⟨bs, some k, 0, none⟩] }
  else if s.fget (pgEth n) F.eth.PORT_CFG_MAX_PAYLOAD < f.data.length then
    (s.bump (pgEth n) F.eth.TX_OVERSIZE_COUNT 1).txDone n k 0 stLenRange
  else if !s.linkUp n then (s.bump (pgEth n) F.eth.TX_DISCARD_LINKDOWN_COUNT 1).txDone n k 0 0x81
  else
    let p := s.port n
    let c := fieldAt d 8 16 3
    s.putPort n { p.putQueue c (p.queue c ++ [⟨f, 3, some (k, fieldAt d 8 19 1 == 1)⟩]) with fwBusy := true }

/-- FW_TX_ENTRY (R333): the port takes its next transmit entry, checks it and queues the frame. -/
def execFwTxEntry (n : Fin 9) (s : State) : Host.Outcome State Fault Refusal :=
  let p := ringPage n
  let k := s.fget p F.eth.TXQ_HEAD_HEAD % 2 ^ s.fget p F.eth.TXQ_CFG_LOG2
  if !s.enabled p || k = s.fget p F.eth.TXQ_TAIL_TAIL % 2 ^ s.fget p F.eth.TXQ_CFG_LOG2
    || (n.val < 8 && (s.port n).fwBusy) || (n.val == 8 && !s.net.mgt.isEmpty) then .next s
  else match s.devRead .firmware (s.txEntry n k) 32 with
    | (s, .error st) => .next (s.txDone n k 0 st)
    | (s, .ok eb) => match checkStruct 32 (leNat eb) with
      | .failed => .next (s.txDone n k 0 stCheckFailed)
      | .clean d | .corrected d => match txCheck n d with
        | some st => .next (s.txDone n k 0 st)
        | none => match s.devRead .firmware (fieldAt d 0 0 52) (fieldAt d 8 0 14) with
          | (s, .error st) => .next (s.txDone n k 0 st)
          | (s, .ok bs) => .next (s.txQueue n k d (frameOfBytes bs) bs)

/-! ### Exception rings (R333) -/

/-- A frame put into a port's receive ring with its entry; a full ring discards it (R310, R333). -/
def State.toRing (s : State) (n : Nat) (f : Frame) (trunc fcs secure : Bool) (reason wire cut : Nat) : State :=
  let p := ringPage n
  let size := 2 ^ s.fget p F.eth.RXQ_CFG_LOG2
  let k := s.fget p F.eth.RXQ_HEAD_HEAD % size
  if (k + 1) % size = s.fget p F.eth.RXQ_TAIL_TAIL % size then
    if n < 8 then (s.bump p F.eth.RX_NO_ENTRY_COUNT 1).event p 13 else s.bump p F.mgt.RX_NO_ENTRY_COUNT 1
  else
    let base := s.fget p F.eth.RXQ_BASE_ADDR
    let bytes := (frameBytes f).take cut
    let ts := if n < 8 then s.stamp n F.eth.TS_LAT_RX_LAT else 0
    let e := withCheck 32 (placeAt 0 0 14 bytes.length + placeAt 0 16 1 trunc.toNat + placeAt 0 17 1 fcs.toNat
      + placeAt 0 18 1 secure.toNat + placeAt 0 19 3 (match f.tag with | some t => t / 2 ^ 13 | none => 0)
      + placeAt 0 22 1 f.tag.isSome.toNat + placeAt 0 24 4 reason + placeAt 4 0 16 (min 0xFFFF wire)
      + placeAt 8 0 64 (ts / 256) + placeAt 0x10 0 8 ts)
    let s := (s.devWrite .firmware (base + size * 32 + k * 10240) bytes).1
    let s := (s.devWrite .firmware (base + 32 * k) (leBytes 32 e)).1
    s.fput p F.eth.RXQ_HEAD_HEAD ((k + 1) % size)

/-! ### Control frames (R322) -/

/-- The address switches do not forward. -/
def lldpMac : Nat := 0x0180C200000E

/-- A control frame of a subtype with its payload (32 bytes, CHECK not yet computed), and the sender's next sequence number. -/
def State.ctlFrame (s : State) (n subtype dst pcp payload : Nat) : Frame × State :=
  let key := 16 * n + subtype
  let seq := Store.get 0 s.net.seqs key
  let hd := withCheck 16 (placeAt 0 0 4 1 + placeAt 0 8 8 subtype + placeAt 4 0 32 seq + placeAt 8 0 32 s.macBase
    + placeAt 0xC 8 3 n + placeAt 0xC 16 16 (s.macBase / 2 ^ 32))
  (⟨dst, s.macBase + n, some (pcp * 2 ^ 13), s.fget (pgEth n) F.eth.CTL_ETHERTYPE_TYPE, leBytes 16 hd ++ leBytes 32 (withCheck 32 payload)⟩,
   { s with net.seqs := Store.set 0 s.net.seqs key ((seq + 1) % 2 ^ 32) })

/-- A control frame queued in class 7. -/
def State.sendCtl (s : State) (n subtype dst payload : Nat) : State :=
  let (f, s) := s.ctlFrame n subtype dst 7 payload
  s.sendFrame n 7 f 4

/-- A HELLO sent (R323): the family member code and the widths this end can shed to. -/
def State.sendHello (s : State) (n : Nat) : State :=
  s.sendCtl n 1 lldpMac (placeAt 0 0 16 (s.fget ⟨.vst, 0⟩ F.vst.VSTORE_FAMILY_MEMBER) + placeAt 0 16 3 7)

/-- LINK_UP (R323): the port's link comes up at PORT_CFG.WIDTH; `lpi`: the partner advertised low-power idle. A HELLO follows. -/
def execLinkUp (n : Fin 8) (lpi : Bool) (s : State) : Host.Outcome State Fault Refusal :=
  if s.linkUp n || s.fget (pgEth n) F.eth.PORT_CFG_MODE = 0 || !s.enabled (pgEth n) then .next s
  else
    let s := (s.fset (pgEth n) F.eth.PORT_STAT_LINK_UP true).fput (pgEth n) F.eth.PORT_STAT_CUR_WIDTH
      (s.fget (pgEth n) F.eth.PORT_CFG_WIDTH)
    .next (((s.putPort n { s.port n with lpiPartner := lpi }).event (pgEth n) 8).sendHello n)

/-- Queued frames discarded, firmware entries among them completed with LINK_DOWN (R312). -/
def State.flushQueues (s : State) (n : Nat) : State :=
  let all := (List.range 8).flatMap (s.port n).queue
  let s := s.putPort n { s.port n with queues := [], heldCounted := [] }
  all.foldl (fun s q => match q.entry with
    | some (k, _) => (s.bump (pgEth n) F.eth.TX_DISCARD_LINKDOWN_COUNT 1).txDone n k 0 0x81
    | none => s.bump (pgEth n) F.eth.TX_DISCARD_LINKDOWN_COUNT 1) s

/-- ns of low-power idle added as it ends. -/
def State.endLpi (s : State) (n : Nat) : State :=
  if !s.fon (pgEth n) F.eth.PORT_STAT_LPI then s else
  let s := (s.bump (pgEth n) F.eth.LPI_NS_COUNT (s.time.toNat - (s.port n).lpiSince)).fset (pgEth n) F.eth.PORT_STAT_LPI false
  s.putPort n { s.port n with waking := false }

/-- A link goes down: queues discarded, the width back to PORT_CFG.WIDTH, a lane change dropped (R312, R323, R325). -/
def State.linkFalls (s : State) (n : Nat) : State :=
  let s := (s.fset (pgEth n) F.eth.PORT_STAT_LINK_UP false).fset (pgEth n) F.eth.PORT_STAT_PARTNER_KNQ false
  let s := s.fput (pgEth n) F.eth.PORT_STAT_CUR_WIDTH (s.fget (pgEth n) F.eth.PORT_CFG_WIDTH)
  let s := (s.putPort n { s.port n with shed := none }).fset (pgEth n) F.eth.PORT_STAT_SHED_PENDING false
  (((s.endLpi n).flushQueues n).bump (pgEth n) F.eth.LINK_DOWNS_COUNT 1).event (pgEth n) 9

/-- LINK_DOWN (R312, R325). -/
def execLinkDown (n : Fin 8) (s : State) : Host.Outcome State Fault Refusal :=
  if s.linkUp n then .next (s.linkFalls n) else .next s

/-- HELLO (R323): a valid HELLO arrives with a member code. -/
def State.hello (s : State) (n member : Nat) : State :=
  if s.linkUp n && member == 0x00A2 then s.fset (pgEth n) F.eth.PORT_STAT_PARTNER_KNQ true else s
def execHello (n : Fin 8) (member : BitVec 16) (s : State) : Host.Outcome State Fault Refusal := .next (s.hello n member.toNat)

/-- HELLO_TIMER (R323). -/
def execHelloTimer (n : Fin 8) (s : State) : Host.Outcome State Fault Refusal :=
  if s.linkUp n then .next (s.sendHello n) else .next s

/-! ### The twin link (R329 to R331) -/

def twState (s : State) : Nat := s.fget pgTwin F.eth.TWIN_STAT_STATE
def State.twinPort (s : State) (n : Nat) : Bool := bitAt (s.fget pgTwin F.eth.TWIN_CFG_PORTS) n
def State.ownFailed (s : State) : Bool := s.fon pgTwin F.eth.TWIN_HEALTH_FAILED
def State.secondary (s : State) : Bool := s.fon pgTwin F.eth.TWIN_CFG_SECONDARY

/-- The role becomes `st`, which is logged (R463). -/
def State.setTwin (s : State) (st : Nat) : State :=
  (s.fput pgTwin F.eth.TWIN_STAT_STATE st).logEvent pgTwin lcTwinState 0
    (st + 2 ^ 8 * (s.fget pgTwin F.eth.TWIN_EPOCH_EPOCH % 2 ^ 24))

/-- Promotion begins under an epoch (R330). -/
def State.promote (s : State) (epoch : Nat) : State := (s.fput pgTwin F.eth.TWIN_EPOCH_EPOCH epoch).setTwin 3

/-- Fencing (R331): no more requests are admitted, the running batches end with ABORTED, TWIN_FENCED. -/
def State.fence (s : State) (st : Nat) : State :=
  let s := (s.setTwin st).event pgTwin 15
  if s.running && !s.host.services.isEmpty then s.endRun stAborted else s

/-- A promotion declined for the package's own health (R330). -/
def State.declined (s : State) : State := s.bump pgTwin F.eth.DECLINED_COUNT 1

/-- The role's answer to a valid heartbeat (R330). -/
def State.twinBeat (s : State) (h : Heartbeat) : State :=
  let own := s.fget pgTwin F.eth.TWIN_EPOCH_EPOCH
  match twState s with
  | 2 =>
    if h.state = 1 ∨ h.state = 3 then (s.fput pgTwin F.eth.TWIN_EPOCH_EPOCH h.epoch).setTwin 0
    else if h.state = 2 ∧ !s.secondary then s.promote (max own h.epoch + 1)
    else s
  | 0 =>
    if h.state = 2 ∨ h.failed then (if s.ownFailed then s.declined else s.promote (h.epoch + 1)) else s
  | 1 =>
    if own < h.epoch then s.fence 0
    else if h.state = 1 ∧ h.epoch = own ∧ s.secondary then s.fence 2
    else s
  | _ => if own < h.epoch then s.fence 0 else s

/-- A heartbeat from a sender on a port: valid on a twin port from the twin's MAC_BASE (R329). -/
def State.heartbeat (s : State) (n sender : Nat) (h : Heartbeat) : State :=
  if !s.twinPort n || sender != s.twinMac then s
  else
    let s := s.fput pgTwin F.eth.LAST_HB_TIME s.time.toNat
    ((s.fset pgTwin F.eth.TWIN_STAT_SILENT false).fset pgTwin F.eth.TWIN_STAT_LINK_LOST false).twinBeat h

/-- HEARTBEAT (R330). -/
def execHeartbeat (n : Fin 8) (sender : BitVec 48) (h : Heartbeat) (s : State) : Host.Outcome State Fault Refusal :=
  .next (s.heartbeat n sender.toNat h)

/-- The payload this package sends in heartbeats and probes. -/
def State.beatPayload (s : State) : Nat :=
  placeAt 0 0 64 s.time.toNat + placeAt 8 0 32 (s.fget pgTwin F.eth.TWIN_EPOCH_EPOCH) + placeAt 0xC 0 2 (twState s)
    + placeAt 0xC 2 1 s.ownFailed.toNat + placeAt 0xC 3 1 s.secondary.toNat

/-- HEARTBEAT_SEND (R329): a twin port's heartbeat. -/
def execHeartbeatSend (n : Fin 8) (s : State) : Host.Outcome State Fault Refusal :=
  if s.twinPort n then .next (s.sendCtl n 2 lldpMac s.beatPayload) else .next s

/-- A twin is configured. -/
def State.hasTwin (s : State) : Bool := s.fget pgTwin F.eth.TWIN_CFG_PORTS != 0
def State.silent (s : State) : Bool := s.fon pgTwin F.eth.TWIN_STAT_SILENT
def State.linkLost (s : State) : Bool := s.fon pgTwin F.eth.TWIN_STAT_LINK_LOST

/-- LINK_SILENT (R330): LOSS_TIME has passed without a valid heartbeat. -/
def execLinkSilent (s : State) : Host.Outcome State Fault Refusal :=
  if s.hasTwin then .next (s.fset pgTwin F.eth.TWIN_STAT_SILENT true) else .next s

/-- A probe or reply through the management port, as its payload bytes. -/
def State.mgtProbe (s : State) (subtype : Nat) : State :=
  if s.record 8 = 0 ∨ s.record 9 = 0 then s
  else
    let (f, s) := s.ctlFrame 0 subtype (s.record 9) 7 s.beatPayload
    { s with net.mgt := s.net.mgt ++ [⟨f.data, none, 0, none⟩] }

/-- PROBE_SEND (R330): while the link is silent, a PROBE on every non-twin port whose link is up, and through the management port. -/
def execProbeSend (s : State) : Host.Outcome State Fault Refusal :=
  if !s.silent then .next s
  else .next (((List.range 8).foldl (fun s n =>
    if s.twinPort n || !s.linkUp n then s else s.sendCtl n 3 (s.twinMac + n) s.beatPayload) s).mgtProbe 3)

/-- A PROBE received: answered on the path it came by. -/
def State.probed (s : State) (n sender : Nat) : State :=
  if sender != s.twinMac then s else if n = 8 then s.mgtProbe 4 else s.sendCtl n 4 (s.twinMac + n) s.beatPayload

/-- PROBE (R330). -/
def execProbe (n : Fin 9) (sender : BitVec 48) (s : State) : Host.Outcome State Fault Refusal := .next (s.probed n sender.toNat)

/-- A PROBE_REPLY received: the twin is alive. -/
def State.probeReplied (s : State) (sender : Nat) : State :=
  if s.silent && sender == s.twinMac then s.fset pgTwin F.eth.TWIN_STAT_LINK_LOST true else s

/-- PROBE_REPLY (R330). -/
def execProbeReply (sender : BitVec 48) (s : State) : Host.Outcome State Fault Refusal := .next (s.probeReplied sender.toNat)

/-- PROMOTE_TIMEOUT (R330): silent for PROMOTE_AFTER with no reply to any probe. -/
def execPromoteTimeout (s : State) : Host.Outcome State Fault Refusal :=
  if !s.silent || s.linkLost then .next s
  else
    let e := s.fget pgTwin F.eth.TWIN_EPOCH_EPOCH + 1
    match twState s with
    | 2 => .next (if s.secondary then s else s.promote e)
    | 0 => .next (if s.ownFailed then s.declined else s.promote e)
    | _ => .next s

/-- FENCE_TIMEOUT (R330): silent for FENCE_AFTER with no reply to any probe. -/
def execFenceTimeout (s : State) : Host.Outcome State Fault Refusal :=
  if s.silent && !s.linkLost && twState s == 1 then .next (s.fence 2) else .next s

/-- PROMOTION_COMPLETE (R331). -/
def execPromotionComplete (s : State) : Host.Outcome State Fault Refusal :=
  if twState s = 3 then .next ((s.setTwin 1).event pgTwin 14) else .next s

/-- SWITCHOVER (R330): a write of TWIN_CMD. -/
def execSwitchover (r : Requester) (s : State) : Host.Outcome State Fault Refusal :=
  .next (s.hubAdmit r pgTwin 0x204 fun s => if twState s = 1 then s.fence 2 else s)

/-- RESUME (R330). -/
def execResume (r : Requester) (s : State) : Host.Outcome State Fault Refusal :=
  .next (s.hubAdmit r pgTwin 0x204 fun s => if twState s = 2 then s.promote (s.fget pgTwin F.eth.TWIN_EPOCH_EPOCH + 1) else s)

/-- HEALTH_FAILED (R330, R337): Oneisor writes TWIN_HEALTH.FAILED. -/
def execHealthFailed (r : Requester) (failed : Bool) (s : State) : Host.Outcome State Fault Refusal :=
  .next (s.hubAdmit r pgTwin 0x208 fun s =>
    let s := s.fset pgTwin F.eth.TWIN_HEALTH_FAILED failed
    if failed && twState s == 1 then s.fence 2 else s)

/-! ### Gate lists (R314 to R317) -/

/-- A gate entry as a gate. -/
def gateOf (d : Nat) : Gate := ⟨fieldAt d 0 0 32, fieldAt d 4 8 7, fieldAt d 4 16 1 == 1, fieldAt d 4 17 1 == 1⟩

/-- The change time of a load at TIME `t` (R315). -/
def changeTime (base cycle t : Nat) : Nat :=
  if t + 2000 ≤ base then base else base + (t + 2000 - base + cycle - 1) / cycle * cycle

/-- The outcome of a load's report (R315, R338). -/
def State.glFail (s : State) (n st item : Nat) : State :=
  ((s.fput (pgGl n) F.gl.GL_STAT_LOAD_STATUS st).fput (pgGl n) F.gl.GL_STAT_ITEM item).event (pgGl n) 10 st

/-- The entries lie in a FIRMWARE object. -/
def State.inFirmware (s : State) (a n : Nat) : Bool :=
  match s.objOf a with | some (o, off) => o.cls == 3 && off + n ≤ o.size | none => false

/-- The load of a gate list (R315): CHECK, RESERVED_SET, LEN_RANGE, ADDR_RANGE; a list that passes is pending with its change time. -/
def State.glLoad (s : State) (n : Nat) : State :=
  let p := pgGl n
  let a := s.fget p F.gl.GL_ADDR_ADDR
  let k := s.fget p F.gl.GL_LEN_ENTRIES
  let cycle := s.fget p F.gl.GL_CYCLE_NS
  if s.fon p F.gl.GL_STAT_PENDING || !s.enabled p then s.glFail n stAccess 0 else
  match s.devRead .firmware a (8 * k) with
  | (s, .error st) => s.glFail n (if k < 1 ∨ 1024 < k then stLenRange else st) 0
  | (s, .ok bs) =>
    let raw := (List.range k).map fun i => leNat (slice bs (8 * i) 8)
    let bad (d : Nat) : Bool := checkStruct 8 d == .failed
    let res (d : Nat) : Bool := reservedSet 8 d [(0, 0, 32), (4, 0, 7), (4, 8, 7), (4, 16, 2)]
    match raw.findIdx? bad with
    | some i => s.glFail n stCheckFailed i
    | none => match raw.findIdx? (fun d => match checkStruct 8 d with | .corrected x => res x | _ => res d) with
      | some i => s.glFail n stReservedSet i
      | none =>
        if k < 1 ∨ 1024 < k ∨ cycle < 1000 ∨ 1000000000 < cycle then s.glFail n stLenRange 0
        else if a % 8 ≠ 0 ∨ !s.inFirmware a (8 * k) then s.glFail n stAddrRange 0
        else
          let c := changeTime (s.fget p F.gl.GL_BASE_TIME_TIME) cycle s.time.toNat
          let gates := raw.map fun d => gateOf (match checkStruct 8 d with | .corrected x => x | _ => d)
          let s := s.putPort n { s.port n with pend := some ⟨gates, cycle, c⟩ }
          (((s.fput p F.gl.GL_STAT_LOAD_STATUS stDone).fset p F.gl.GL_STAT_PENDING true).fput p F.gl.GL_CHANGE_TIME c).event p 8

/-- GL_LOAD (R315): a write of GL_CMD.LOAD. -/
def execGlLoad (r : Requester) (n : Fin 8) (s : State) : Host.Outcome State Fault Refusal :=
  .next (s.hubAdmit r (pgGl n) 0x044 fun s => s.glLoad n)

/-- GL_CANCEL (R315): drops a pending list before its change time. -/
def execGlCancel (r : Requester) (n : Fin 8) (s : State) : Host.Outcome State Fault Refusal :=
  .next (s.hubAdmit r (pgGl n) 0x044 fun s =>
    match (s.port n).pend with
    | some l => if s.time.toNat < l.start then
        (s.putPort n { s.port n with pend := none }).fset (pgGl n) F.gl.GL_STAT_PENDING false else s
    | none => s)

/-- The classes whose gates were closed until now, or are closed now, under a list in force (R367). -/
def State.noteClosed (s : State) (n old now : Nat) : State :=
  if !s.fon (pgGl n) F.gl.GL_CTRL_GATE_EN || (s.port n).oper.isNone then s else
  let p := s.port n
  let at_ := (List.range 7).foldl (fun m c => if bitAt old c && bitAt now c then m else Store.set none m c (some s.time.toNat)) p.closedAt
  s.putPort n { p with closedAt := at_ }

/-- GL_POS and GL_CYCLES show where the port stands in its operating list (R338). -/
def State.showGates (s : State) (n : Nat) : State :=
  let t := s.time.toNat
  let (j, g, _) := s.gatesAt n t
  let s := s.noteClosed n (s.fget (pgGl n) F.gl.GL_POS_GATES) g.gates
  let s := (s.fput (pgGl n) F.gl.GL_POS_ENTRY j).fput (pgGl n) F.gl.GL_POS_GATES g.gates
  match (s.port n).oper with
  | none => s
  | some l =>
    if t < l.start ∨ !s.fon (pgGl n) F.gl.GL_CTRL_GATE_EN then s else
    let c := (t - l.start) / max 1 l.cycle + 1
    let s1 := s.bump (pgGl n) F.gl.GL_CYCLES_COUNT (c - (s.port n).cycles)
    s1.putPort n { s1.port n with cycles := max c (s.port n).cycles }

/-- A pending list whose change time has come takes effect (R316). -/
def State.gateChange (s : State) (n : Nat) : State :=
  match (s.port n).pend with
  | none => s
  | some l =>
    if s.time.toNat < l.start then s
    else
      let s := s.putPort n { s.port n with oper := some l, pend := none, cycles := 0 }
      (((s.fset (pgGl n) F.gl.GL_STAT_PENDING false).fset (pgGl n) F.gl.GL_STAT_OPER_VALID true).event (pgGl n) 9).showGates n

/-- GATE_CHANGE (R316). -/
def execGateChange (n : Fin 8) (s : State) : Host.Outcome State Fault Refusal := .next (s.gateChange n)

/-- GATE_ENTRY_BOUNDARY (R317): the gates open and close as the entry that TIME has reached says. -/
def execGateEntryBoundary (n : Fin 8) (s : State) : Host.Outcome State Fault Refusal := .next (s.showGates n)

/-! ### Lane shedding (R324, R325) -/

/-- The quiet time of a change to a width code. -/
def State.quiet (s : State) (n target : Nat) : Nat :=
  if s.fget (pgEth n) F.eth.PORT_STAT_CUR_WIDTH < target then 5000 else 12000

/-- No list governs the port's gates. -/
def State.ungated (s : State) (n : Nat) : Bool := !s.fon (pgGl n) F.gl.GL_CTRL_GATE_EN || (s.port n).oper.isNone

/-- The start of the first SHED_OK entry that begins at or after `lo` and lasts at least `q`, searched from TIME `t` over a bounded
number of entries. -/
def State.shedInstant (s : State) (n q lo : Nat) : Nat → Nat → Option Nat
  | 0, _ => none
  | fuel + 1, t =>
    let (_, g, e) := s.gatesAt n t
    match e with
    | none => none
    | some e => if lo ≤ t ∧ g.shedOk ∧ t + q ≤ e then some t else State.shedInstant s n q lo fuel (max (t + 1) e)

/-- Where the entry in force at TIME `t` ends. -/
def State.entryEnd (s : State) (n t : Nat) : Nat := match (s.gatesAt n t).2.2 with | some e => e | none => t

/-- The switch instant a proposal made at TIME `t` chooses (R324). -/
def State.chooseSwitch (s : State) (n target t : Nat) : Option Nat :=
  if s.ungated n then some ((t + 20000 + 999) / 1000 * 1000)
  else s.shedInstant n (s.quiet n target) (t + 20000) 2050 (s.entryEnd n t)

/-- Both ends may change lanes. -/
def State.mayShed (s : State) (n : Nat) : Bool :=
  s.linkUp n && s.fon (pgEth n) F.eth.PORT_CFG_SHED_EN && s.fon (pgEth n) F.eth.PORT_STAT_PARTNER_KNQ

/-- A proposal made no sooner than TIME `t`: SHED_REQ sent (R324). -/
def State.propose (s : State) (n t : Nat) : State :=
  let target := s.fget (pgEth n) F.eth.SHED_CTRL_TARGET
  if !s.mayShed n || target = s.fget (pgEth n) F.eth.PORT_STAT_CUR_WIDTH || (s.port n).shed.isSome then s
  else match s.chooseSwitch n target t with
    | none => s
    | some x =>
      let s := (s.putPort n { s.port n with shed := some ⟨true, x, target, false⟩ }).fset (pgEth n) F.eth.PORT_STAT_SHED_PENDING true
      s.sendCtl n 5 lldpMac (placeAt 0 0 64 x + placeAt 8 0 3 target)

/-- SHED_TARGET (R324): a write of SHED_CTRL.TARGET. -/
def execShedTarget (r : Requester) (n : Fin 8) (target : Fin 3) (s : State) : Host.Outcome State Fault Refusal :=
  .next (s.hubAdmit r (pgEth n) 0x054 fun s =>
    (s.fput (pgEth n) F.eth.SHED_CTRL_TARGET target).propose n s.time.toNat)

/-- Why a request cannot be met: 2 busy, 3 width unsupported, 1 not SHED_OK; none: it can (R324). -/
def State.shedReason (s : State) (n x target : Nat) : Option Nat :=
  if (s.port n).shed.isSome then some 2
  else if 2 < target ∨ !s.mayShed n then some 3
  else if s.ungated n then none
  else
    let (_, g, e) := s.gatesAt n x
    let opens := x = 0 || (s.gatesAt n (x - 1)).2.2 == some x
    if g.shedOk && opens && (match e with | some e => x + s.quiet n target ≤ e | none => true) then none else some 1

/-- A SHED_REQ received (R324, R325): of crossing requests the one from the lower MAC_BASE stands. -/
def State.shedRequested (s : State) (n sender x target : Nat) : State :=
  let own := match (s.port n).shed with | some y => y.proposer && !y.agreed | none => false
  if own && s.macBase < sender then s
  else
    let s := if own then (s.putPort n { s.port n with shed := none }).fset (pgEth n) F.eth.PORT_STAT_SHED_PENDING false else s
    match s.shedReason n x target with
    | some why => s.sendCtl n 7 lldpMac (placeAt 0 0 64 x + placeAt 8 0 3 target + placeAt 8 8 8 why)
    | none =>
      let s := (s.putPort n { s.port n with shed := some ⟨false, x, target, true⟩ }).fset (pgEth n) F.eth.PORT_STAT_SHED_PENDING true
      s.sendCtl n 6 lldpMac (placeAt 0 0 64 x + placeAt 8 0 3 target)

/-- SHED_REQ (R324). -/
def execShedReq (n : Fin 8) (sender : BitVec 48) (x : BitVec 64) (target : Fin 8) (s : State) : Host.Outcome State Fault Refusal :=
  .next (s.shedRequested n sender.toNat x.toNat target)

/-- A SHED_ACK received: both ends are committed (R324). -/
def State.shedAcked (s : State) (n : Nat) : State :=
  match (s.port n).shed with
  | some x => if x.proposer then s.putPort n { s.port n with shed := some { x with agreed := true } } else s
  | none => s

/-- SHED_ACK (R324). -/
def execShedAck (n : Fin 8) (s : State) : Host.Outcome State Fault Refusal := .next (s.shedAcked n)

/-- A SHED_NAK, or no answer (R325): counted, and proposed again no sooner than 100 µs later. -/
def State.shedRefused (s : State) (n : Nat) : State :=
  match (s.port n).shed with
  | some x =>
    if x.proposer && !x.agreed then
      ((s.bump (pgEth n) F.eth.SHED_NAK_COUNT 1).putPort n { s.port n with shed := none }
        |>.fset (pgEth n) F.eth.PORT_STAT_SHED_PENDING false).propose n (s.time.toNat + 100000)
    else s
  | none => s

/-- SHED_NAK (R325). -/
def execShedNak (n : Fin 8) (s : State) : Host.Outcome State Fault Refusal := .next (s.shedRefused n)
/-- SHED_NO_ANSWER (R325). -/
def execShedNoAnswer (n : Fin 8) (s : State) : Host.Outcome State Fault Refusal := .next (s.shedRefused n)

/-- SHED_SWITCH (R324): at the agreed instant both ends switch width. -/
def execShedSwitch (n : Fin 8) (s : State) : Host.Outcome State Fault Refusal :=
  match (s.port n).shed with
  | some x =>
    if !x.agreed then .next s
    else
      let s := (s.putPort n { s.port n with shed := none }).fset (pgEth n) F.eth.PORT_STAT_SHED_PENDING false
      .next (((s.fput (pgEth n) F.eth.PORT_STAT_CUR_WIDTH x.target).bump (pgEth n) F.eth.SHED_DONE_COUNT 1).event (pgEth n) 11)
  | none => .next s

/-- SHED_RELOCK_FAIL (R325): the lanes have not locked: the link goes down and retrains at PORT_CFG.WIDTH. -/
def execShedRelockFail (n : Fin 8) (s : State) : Host.Outcome State Fault Refusal :=
  if s.linkUp n then .next (((s.bump (pgEth n) F.eth.SHED_FAIL_COUNT 1).event (pgEth n) 12).linkFalls n) else .next s

/-! ### Low-power idle (R326) -/

/-- LPI_ENTER (R326): the queues have been empty for IDLE_NS. -/
def execLpiEnter (n : Fin 8) (s : State) : Host.Outcome State Fault Refusal :=
  let p := s.port n
  let (_, g, e) := s.gatesAt n s.time.toNat
  let room := match e with | some e => decide (s.time.toNat + 20000 ≤ e) | none => true
  if s.linkUp n && s.fon (pgEth n) F.eth.PORT_CFG_LPI_EN && !s.fon (pgEth n) F.eth.PORT_STAT_PARTNER_KNQ && p.lpiPartner && p.idle
    && g.lpiOk && room && !s.fon (pgEth n) F.eth.PORT_STAT_LPI
  then .next ((s.fset (pgEth n) F.eth.PORT_STAT_LPI true).putPort n { p with lpiSince := s.time.toNat, waking := false })
  else .next s

/-- LPI_WAKE (R326): the wake begins. -/
def execLpiWake (n : Fin 8) (s : State) : Host.Outcome State Fault Refusal :=
  if s.fon (pgEth n) F.eth.PORT_STAT_LPI then .next (s.putPort n { s.port n with waking := true }) else .next s

/-- LPI_WAKE_DONE (R326): LPI clears; frames that waited may be sent. -/
def execLpiWakeDone (n : Fin 8) (s : State) : Host.Outcome State Fault Refusal :=
  if (s.port n).waking then .next (s.endLpi n) else .next s

/-! ### MACsec keys (R328, R411) -/

/-- A SAK installed in a port for an association number: the next PN starts at 1. -/
def State.putSak (s : State) (n an k : Nat) (tx rx : Bool) : State :=
  let s := if tx then
      ({ s with net.saks := Store.set none s.net.saks (8 * n + an) (some k) }.fset (pgMs n) (F.ms.MS_SA_TX_VALID an) true).fput
        (pgMs n) (F.ms.MS_TX_PN_PN an) 1
    else s
  if rx then
    { s with net.saks := Store.set none s.net.saks (8 * n + 4 + an) (some k),
             net.rxPn := Store.set 0 s.net.rxPn (4 * n + an) 0 }.fset (pgMs n) (F.ms.MS_SA_RX_VALID an) true
  else s

/-- MKPDU (R411): Onyx checks or computes an ICV under a CAK it holds, or generates or unwraps a SAK and installs it. -/
def execMkpdu (n : Fin 8) (cak : Fin 16) (op : MkaOp) (pdu : List Byte) (s : State) : Host.Outcome State Fault Refusal :=
  match Store.get none s.onyx.caks cak with
  | none => .next { s with out := s.out ++ [Out.mka n 0] }
  | some c => match op with
    | .check icv => .next { s with out := s.out ++ [Out.mka n (Config.mkaIcv c pdu == icv).toNat] }
    | .compute => .next { s with out := s.out ++ [Out.mka n (Config.mkaIcv c pdu)] }
    | .generate an tx rx =>
      if s.onyx.drbgStopped then .next { s with out := s.out ++ [Out.ended 0 stAborted] }
      else let (v, s) := s.draw; .next (s.putSak n an v tx rx)
    | .unwrap an tx rx => .next (s.putSak n an (Config.mkaSak c pdu) tx rx)

end Sys2Proof.Machine
end

