-- ==== Sys2Proof/Machine/Collectives.lean ====
section
/-! DEFINITION. The collective engines (R230 to R258): communicators, descriptors and their checks, operations, frames and flows,
piece slots, the hold area, fences, completion. -/

namespace Sys2Proof.Machine

def pgCol (d : Nat) : Page := ⟨.col, d⟩
def pgComm (d : Nat) : Page := ⟨.comm, d⟩

def State.colEng (s : State) (d : Nat) : ColEngine := Store.get {} s.col d

/-! ### Descriptors (R235) -/

namespace CD
def op (x : Nat) : Nat := fieldAt x 0 8 8
def comm (x : Nat) : Nat := fieldAt x 0 16 5
def redop (x : Nat) : Nat := fieldAt x 0 24 4
def dir (x : Nat) : Nat := fieldAt x 0 28 1
def epoch (x : Nat) : Nat := fieldAt x 8 0 16
def newEpoch (x : Nat) : Nat := fieldAt x 8 16 16
def len (x : Nat) : Nat := fieldAt x 0xC 0 32
def src (x : Nat) : Nat := fieldAt x 0x10 0 52
def dst (x : Nat) : Nat := fieldAt x 0x18 0 52
def dstLen (x : Nat) : Nat := fieldAt x 0x20 0 32
def map (x : Nat) : Nat := fieldAt x 0x24 0 52
def root (x : Nat) : Nat := fieldAt x 0x2C 0 6
def steps (x : Nat) : Nat := fieldAt x 0x2C 8 6
def slots (x : Nat) : Nat := fieldAt x 0x2C 16 3
def arrive (x : Nat) : Nat := fieldAt x 0x30 0 12
def arriveEn (x : Nat) : Bool := fieldAt x 0x30 12 1 == 1
def free (x : Nat) : Nat := fieldAt x 0x30 16 12
/-- The epoch its frames carry: a RESHARD's is the new one (R251). -/
def frameEpoch (x : Nat) : Nat := if op x = 8 then newEpoch x else epoch x
/-- Ratio of output to input element width (R237). -/
def widen (x : Nat) : Nat := if redop x = 1 then 4 else 1
/-- Bytes of an input element. -/
def elem (x : Nat) : Nat := if redop x = 2 ∨ redop x = 4 then 4 else 1
/-- PERMUTE or RESHARD. -/
def mapped (x : Nat) : Bool := op x == 6 || op x == 8
end CD

/-- Fields of a descriptor with opcode `op` (R235, R236); an opcode that does not exist uses every field (log 86). -/
def colFields (op : Nat) : List (Nat × Nat × Nat) :=
  let any := op = 0 ∨ 9 < op
  [(0, 0, 4), (0, 8, 13), (0, 24, 4), (4, 0, 32), (8, 0, 16), (0x3C, 0, 10), (0x3C, 16, 13)]
  ++ (if any ∨ (2 ≤ op ∧ op ≤ 8) then [(0xC, 0, 32), (0x10, 0, 52), (0x18, 0, 52)] else [])
  ++ (if any ∨ op = 5 then [(0x2C, 0, 6)] else [])
  ++ (if any ∨ op = 6 ∨ op = 8 then [(0x20, 0, 32), (0x24, 0, 52)] else [])
  ++ (if any ∨ op = 8 then [(8, 16, 16)] else [])
  ++ (if any ∨ op = 7 then [(0, 28, 1), (0x2C, 8, 6), (0x2C, 16, 3), (0x30, 0, 13), (0x30, 16, 12)] else [])

/-! ### Communicators (R231 to R234) -/

/-- Members' peer indices in rank order. -/
def State.members (s : State) (d k : Nat) : List Nat := bitList 64 (s.fget (pgComm d) (F.comm.CM_MASK_MASK k))
def State.commState (s : State) (d k : Nat) : Nat := s.fget (pgComm d) (F.comm.CM_STAT_STATE k)
def State.commRank (s : State) (d k : Nat) : Nat := s.fget (pgComm d) (F.comm.CM_STAT_RANK k)
def State.commSize (s : State) (d k : Nat) : Nat := s.fget (pgComm d) (F.comm.CM_STAT_SIZE k)
def State.commEpoch (s : State) (d k : Nat) : Nat := s.fget (pgComm d) (F.comm.CM_EPOCH_CUR_EPOCH k)
def State.commTenant (s : State) (d k : Nat) : Agent := .tenant (Fin.ofNat 16 (s.fget (pgComm d) (F.comm.CM_CFG_TENANT k)))
def State.setComm (s : State) (d k v : Nat) : State := s.fput (pgComm d) (F.comm.CM_STAT_STATE k) v

/-- Ranks other than this chip's. -/
def State.others (s : State) (d k : Nat) : List Nat := (List.range (s.commSize d k)).filter (· ≠ s.commRank d k)

/-- A peer reached only through twin-link ports (R232). -/
def State.twinPeer (s : State) (d p : Nat) : Bool :=
  let l := s.fget (pgComm d) (F.comm.PR_MAC_LOCAL_PORTS p)
  s.fon (pgComm d) (F.comm.PR_CFG_TWIN p) || (l != 0 && l &&& (2 ^ 8 - 1 - s.record 2 % 2 ^ 8) == 0)

/-- Operations of a communicator accepted and not ended, oldest first. -/
def State.outstanding (s : State) (d k : Nat) : List ColOp :=
  let e := s.colEng d
  (e.running ++ e.waiting).filter fun o => CD.comm o.desc % 16 == k

/-- The result of a communicator command. -/
def State.commDone (s : State) (d st : Nat) : State := (s.fput (pgComm d) F.comm.COMM_RESULT_STATUS st).event (pgComm d) 8 st

/-- DEFINE (R232, R233): COMM_CMD with CMD 1. -/
def execDefine (r : Requester) (d : Fin 2) (k : Fin 16) (s : State) : Host.Outcome State Fault Refusal :=
  .next (s.hubAdmit r (pgComm d) 0x040 fun s =>
    let mask := s.fget (pgComm d) (F.comm.CM_MASK_MASK k)
    let self := s.fget (pgComm d) F.comm.SELF_PEER
    if s.commState d k = 0 ∧ bitAt mask self ∧ (bitList 64 mask).all (fun p => s.fon (pgComm d) (F.comm.PR_CFG_VALID p)) then
      let s := s.setComm d k 1
      let s := s.fput (pgComm d) (F.comm.CM_STAT_RANK k) (popCount self mask)
      let s := s.fput (pgComm d) (F.comm.CM_STAT_SIZE k) (popCount 64 mask)
      let s := s.fput (pgComm d) (F.comm.CM_OPSEQ_OPSEQ k) 0
      (s.fput (pgComm d) (F.comm.CM_EPOCH_CUR_EPOCH k) (s.fget (pgComm d) (F.comm.CM_CFG_EPOCH k))).commDone d stDone
    else s.commDone d stAccess)

/-- COMM_RETIRE (R233): COMM_CMD with CMD 2. -/
def execCommRetire (r : Requester) (d : Fin 2) (k : Fin 16) (s : State) : Host.Outcome State Fault Refusal :=
  .next (s.hubAdmit r (pgComm d) 0x040 fun s =>
    if (s.commState d k = 1 ∨ s.commState d k = 4) ∧ (s.outstanding d k).isEmpty then (s.setComm d k 0).commDone d stDone
    else s.commDone d stAccess)

/-! ### Frames (R241, R242) -/

namespace CH
def type (h : Nat) : Nat := fieldAt h 0 4 4
def op (h : Nat) : Nat := fieldAt h 0 8 8
def comm (h : Nat) : Nat := fieldAt h 0 16 5
def redop (h : Nat) : Nat := fieldAt h 0 24 4
def epoch (h : Nat) : Nat := fieldAt h 4 0 16
def src (h : Nat) : Nat := fieldAt h 4 16 6
def dst (h : Nat) : Nat := fieldAt h 4 24 6
def opseq (h : Nat) : Nat := fieldAt h 8 0 32
def psn (h : Nat) : Nat := fieldAt h 0xC 0 32
def off (h : Nat) : Nat := fieldAt h 0x10 0 48
def len (h : Nat) : Nat := fieldAt h 0x14 16 14
def piece (h : Nat) : Nat := fieldAt h 0x18 0 32
end CH

/-- The pairs (local port, remote port) towards a peer whose ports are up (R231). -/
def State.pairs (s : State) (d p : Nat) : List (Nat × Nat) :=
  ((bitList 8 (s.fget (pgComm d) (F.comm.PR_MAC_LOCAL_PORTS p))).zip (bitList 8 (s.fget (pgComm d) (F.comm.PR_MAC_REMOTE_PORTS p)))).filter
    fun x => s.linkUp x.1

/-- A collective frame of a type to a rank (R241): `op`, REDOP, EPOCH and OPSEQ of the operation; frames of a flow take the pairs in
turn. With no pair up nothing is sent. -/
def State.colTx (s : State) (d k rank type op redop epoch opseq psn off piece : Nat) (data : List Byte) : State :=
  let p := (s.members d k).getD rank 0
  let ps := s.pairs d p
  match ps[psn % ps.length]? with
  | none => s
  | some (a, b) =>
    let h := withCheck 32 (placeAt 0 0 4 1 + placeAt 0 4 4 type + placeAt 0 8 8 op + placeAt 0 16 5 (16 * d + k) + placeAt 0 24 4 redop
      + placeAt 4 0 16 epoch + placeAt 4 16 6 (s.commRank d k) + placeAt 4 24 6 rank + placeAt 8 0 32 opseq + placeAt 0xC 0 32 psn
      + placeAt 0x10 0 48 off + placeAt 0x14 16 14 data.length + placeAt 0x18 0 32 piece)
    s.sendFrame a 6 ⟨s.fget (pgComm d) (F.comm.PR_MAC_MAC_BASE p) + b, s.macBase + a,
      some (6 * 2 ^ 13 + s.fget (pgComm d) (F.comm.PR_CFG_VLAN p)), s.fget (pgCol d) F.col.COL_CFG_ETHERTYPE, leBytes 32 h ++ data⟩ 0

/-- A frame of a running operation. -/
def State.opTx (s : State) (d : Nat) (o : ColOp) (rank type psn off piece : Nat) (data : List Byte) : State :=
  s.colTx d (CD.comm o.desc % 16) rank type (CD.op o.desc) (CD.redop o.desc) (CD.frameEpoch o.desc) o.opseq psn off piece data

/-- An ACK of everything a flow has received (R242, R243). -/
def State.sendAck (s : State) (d : Nat) (o : ColOp) (f : RecvFlow) : State :=
  let map := (List.range 64).foldl (fun m i => if f.marks.contains (f.base + 1 + i) then m + 2 ^ i else m) 0
  s.opTx d o f.rank 2 f.base 0 0 (leBytes 8 map)

/-- A NACK with a status (R242, R246), answering header `h`. -/
def State.sendNack (s : State) (d h st : Nat) : State :=
  (s.colTx d (CH.comm h % 16) (CH.src h) 3 (CH.op h) (CH.redop h) (CH.epoch h) (CH.opseq h) (CH.psn h) 0 0 (leBytes 1 st)).bump (pgCol d)
    F.col.NACK_SENT_COUNT 1

/-- A DATA frame sent on its flow, kept until it is acknowledged (R243). -/
def State.sendData (s : State) (d : Nat) (o : ColOp) (rank off piece : Nat) (data : List Byte) : State × ColOp :=
  let f : SendFlow := (o.send.find? (·.rank == rank)).getD { rank := rank }
  let s := (s.opTx d o rank 1 f.next off piece data).bump (pgCol d) F.col.TX_BYTES_COUNT data.length
  let f' := { f with next := f.next + 1, unacked := f.unacked ++ [⟨f.next, piece, off, data, 0⟩] }
  (s, { o with send := f' :: o.send.filter (·.rank != rank), lastSend := some s.time.toNat })

/-- A byte run in frames of at most 8,192 bytes, at rising offsets. -/
def State.sendRun (d : Nat) (rank piece : Nat) : Nat → State → ColOp → Nat → List Byte → State × ColOp
  | 0, s, o, _, _ => (s, o)
  | fuel + 1, s, o, off, bs =>
    if bs.isEmpty then (s, o) else
    let (s, o) := s.sendData d o rank off piece (bs.take 8192)
    State.sendRun d rank piece fuel s o (off + 8192) (bs.drop 8192)

/-- The same run to several ranks. -/
def State.sendRuns (d : Nat) (ranks : List Nat) (s : State) (o : ColOp) (off piece : Nat) (bs : List Byte) : State × ColOp :=
  ranks.foldl (fun (x : State × ColOp) j => State.sendRun d j piece (bs.length / 8192 + 1) x.1 x.2 off bs) (s, o)

/-! ### Memory -/

/-- Bytes read with the rights of the operation's communicator; a failed read ends the operation with its status. -/
def State.colRead (s : State) (d : Nat) (o : ColOp) (a n : Nat) : State × ColOp × List Byte :=
  if n = 0 ∨ o.fail.isSome then (s, o, []) else
  match s.devRead (s.commTenant d (CD.comm o.desc % 16)) a n with
  | (s, .ok bs) => (s, o, bs)
  | (s, .error st) => (s, { o with fail := some st }, [])

def State.colWrite (s : State) (d : Nat) (o : ColOp) (a : Nat) (bs : List Byte) : State × ColOp :=
  if bs.isEmpty ∨ o.fail.isSome then (s, o) else
  match s.devWrite (s.commTenant d (CD.comm o.desc % 16)) a bs with
  | (s, .ok _) => (s, o)
  | (s, .error st) => (s, { o with fail := some st })

/-! ### Reductions (R237, R240, R244) -/

/-- Input elements of a run. -/
def colElems (redop : Nat) : Nat → List Byte → List Int
  | 0, _ => []
  | n + 1, bs =>
    let w := if redop = 2 ∨ redop = 4 then 4 else 1
    (if redop = 3 then (leNat (bs.take 1) : Int) else signedOf (8 * w) (leNat (bs.take w))) :: colElems redop n (bs.drop w)

/-- A contribution joined to the sums. -/
def colJoin (redop : Nat) (a b : List Int) : List Int :=
  (List.range (max a.length b.length)).map fun i =>
    match a[i]?, b[i]? with
    | some x, some y => if redop = 1 ∨ redop = 2 then x + y else max x y
    | some x, none => x
    | none, some y => y
    | none, none => 0

def clampInt32 (x : Int) : Int := max (-(2 ^ 31)) (min (2 ^ 31 - 1) x)

/-- Output bytes of the sums. -/
def colOut (redop : Nat) (xs : List Int) : List Byte :=
  xs.flatMap fun x => if redop = 3 then leBytes 1 x.toNat else leBytes 4 (unsignedOf 32 (clampInt32 x))

/-- Pieces of a reduction (R236, R244). -/
def pieces (x : Nat) : Nat := (CD.len x + 8191) / 8192
/-- Bytes of piece `q`. -/
def pieceLen (x q : Nat) : Nat := min 8192 (CD.len x - 8192 * q)

/-- How many pieces this chip reduces, and the `i`-th of them. -/
def State.ownPieces (s : State) (d : Nat) (x : Nat) : Nat :=
  let k := CD.comm x % 16
  if CD.op x = 3 then pieces x
  else if CD.op x = 2 then ((List.range (pieces x)).filter fun q => q % s.commSize d k == s.commRank d k).length else 0
def State.ownPiece (s : State) (d : Nat) (x i : Nat) : Nat :=
  let k := CD.comm x % 16
  if CD.op x = 2 then s.commRank d k + s.commSize d k * i else i

/-- A finished piece: clamped once, written, and in an ALL_REDUCE sent to every member (R236, R240, R244). -/
def State.finishPiece (s : State) (d : Nat) (o : ColOp) (sl : PieceSlot) : State × ColOp :=
  let x := o.desc
  let k := CD.comm x % 16
  let q := s.ownPiece d x sl.idx
  let per := 8192 / CD.elem x
  let bad := if CD.redop x ≤ 2 then sl.sums.findIdx? (fun v => clampInt32 v != v) else none
  let (s, o) := match bad with
    | none => (s, o)
    | some i =>
      let s := if s.fon (pgCol d) F.col.SAT_POS_VALID then s else s.fput (pgCol d) F.col.SAT_ELEM_INDEX (per * q + i)
      (s.flagSaturated (pgCol d) (CD.comm x) (descOpId x) ⟨0, 6, 2⟩, { o with sat := true })
  let bs := colOut (CD.redop x) sl.sums
  let (s, o) := s.colWrite d o (CD.dst x + 8192 * CD.widen x * q) bs
  let o := { o with slots := o.slots.filter (·.idx != sl.idx), finished := sl.idx :: o.finished }
  if CD.op x = 2 then State.sendRuns d (s.others d k) s o (8192 * CD.widen x * q) q bs else (s, o)

/-- The lowest unfinished piece passed over every finished piece at the window's base (R244). -/
def ColOp.advance : Nat → ColOp → ColOp
  | 0, o => o
  | n + 1, o =>
    if o.finished.contains o.floor
    then ColOp.advance n { o with floor := o.floor + 1, finished := o.finished.filter (· ≠ o.floor) } else o

/-- The window of at most 48 pieces filled: each piece it reaches takes a slot with this chip's own contribution (R244). -/
def State.fillWindow (d : Nat) : Nat → State → ColOp → State × ColOp
  | 0, s, o => (s, o)
  | fuel + 1, s, o =>
    let x := o.desc
    let k := CD.comm x % 16
    let own := s.ownPieces d x
    let o := ColOp.advance own o
    if own ≤ o.next ∨ o.floor + 48 ≤ o.next ∨ o.fail.isSome then (s, o) else
    let q := s.ownPiece d x o.next
    let block := if CD.op x = 3 then s.commRank d k * CD.len x else 0
    let (s, o, bs) := s.colRead d o (CD.src x + block + 8192 * q) (pieceLen x q)
    let sl : PieceSlot := ⟨o.next, 2 ^ s.commRank d k, colElems (CD.redop x) (pieceLen x q / CD.elem x) bs⟩
    let o := { o with next := o.next + 1, slots := o.slots ++ [sl] }
    let (s, o) := if s.commSize d k = 1 then s.finishPiece d o sl else (s, o)
    State.fillWindow d fuel s o

/-! ### RING_PASS (R248) -/

/-- The rank a RING_PASS sends to. -/
def State.ringTo (s : State) (d : Nat) (x : Nat) : Nat :=
  let k := CD.comm x % 16
  let n := max 1 (s.commSize d k)
  if CD.dir x = 0 then (s.commRank d k + 1) % n else (s.commRank d k + n - 1) % n

/-- Address of the slot that step `t` fills. -/
def ringSlot (x t : Nat) : Nat := CD.dst x + (t - 1) % max 1 (CD.slots x) * CD.len x

/-- Step `t` has been wholly received. -/
def ColOp.stepIn (o : ColOp) (t : Nat) : Bool := Store.get (CD.len o.desc) o.dueOf t == 0

/-- Bytes of a step received: the step's tally once it is whole (R235, R248). -/
def State.stepArrived (s : State) (d : Nat) (o : ColOp) (t n : Nat) : State × ColOp :=
  let left := Store.get (CD.len o.desc) o.dueOf t - n
  let o := { o with dueOf := Store.set (CD.len o.desc) o.dueOf t left, due := o.due - n }
  (if left = 0 && CD.arriveEn o.desc then s.notify d (CD.arrive o.desc) 1 (srcCode 4 d) else s, o)

/-- The steps that may be sent: step 1 from SRC, step `t + 1` once step `t` is wholly received. A ring of one member receives its own
steps as it admits them. -/
def State.ringForward (d : Nat) : Nat → State → ColOp → State × ColOp
  | 0, s, o => (s, o)
  | fuel + 1, s, o =>
    let x := o.desc
    let t := o.sent + 1
    let alone := s.commSize d (CD.comm x % 16) == 1
    if CD.steps x < t || (t != 1 && !o.stepIn (t - 1)) || (alone && o.admitted < t) || o.fail.isSome then (s, o) else
    let (s, o, bs) := s.colRead d o (if t = 1 then CD.src x else ringSlot x (t - 1)) (CD.len x)
    if o.fail.isSome then (s, o) else
    let o := { o with sent := t }
    let (s, o) := if alone then
        let (s, o) := s.colWrite d o (ringSlot x t) bs
        s.stepArrived d o t (CD.len x)
      else State.sendRun d (s.ringTo d x) t (bs.length / 8192 + 1) s o ((t - 1) % max 1 (CD.slots x) * CD.len x) bs
    State.ringForward d fuel s o

/-- Step `t` may be admitted to its slot (R248). -/
def State.ringMayAdmit (s : State) (d : Nat) (o : ColOp) (t : Nat) : Bool :=
  let x := o.desc
  let n := CD.slots x
  let freed := (s.tally d (CD.free x) + 2 ^ 32 - o.freeBase) % 2 ^ 32
  t ≤ CD.steps x && t - n ≤ freed
    && (t ≤ n || (t - n + 1 ≤ o.sent && o.send.all fun f => f.unacked.all fun y => y.piece != t - n + 1))

/-- Steps admitted from the next on, while they may be. -/
def State.ringAdmit (d : Nat) : Nat → State → ColOp → ColOp
  | 0, _, o => o
  | fuel + 1, s, o =>
    if s.ringMayAdmit d o (o.admitted + 1) then State.ringAdmit d fuel s { o with admitted := o.admitted + 1 } else o

/-! ### Maps (R252) -/

/-- A send entry: source offset, receiving rank, destination offset, length. -/
structure MapSend where
  srcOff : Nat
  rank : Nat
  dstOff : Nat
  len : Nat
deriving DecidableEq, Repr

/-- The send entries of a map: none where a check code fails. -/
def mapSends : Nat → List Byte → Option (List MapSend)
  | 0, _ => some []
  | n + 1, bs => match checkStruct 32 (leNat (bs.take 32)) with
    | .failed => none
    | .clean e | .corrected e =>
      (mapSends n (bs.drop 32)).map fun r => ⟨fieldAt e 0 0 48, fieldAt e 4 16 6, fieldAt e 8 0 48, fieldAt e 0x10 0 32⟩ :: r

/-- The map validated whole before anything moves: the receive table and the send entries, or the status. -/
def State.readMap (s : State) (d : Nat) (x : Nat) : State × Except Nat (List Nat × List MapSend) :=
  let k := CD.comm x % 16
  let who := s.commTenant d k
  match s.devRead who (CD.map x) 0x240 with
  | (s, .error st) => (s, .error st)
  | (s, .ok hd) => match checkStruct 64 (leNat (hd.take 64)) with
    | .failed => (s, .error stCheckFailed)
    | .clean h | .corrected h =>
      if !s.versionOk (pgCol d) (fieldAt h 0 0 4) then (s, .error stVersion)
      else if reservedSet 64 h [(0, 0, 4), (0, 8, 24), (0x3C, 0, 10)] then (s, .error stReservedSet)
      else if fieldAt h 0 8 8 ≠ 0x51 then (s, .error stFormat)
      else
        let n := fieldAt h 0 16 16
        let got := if n = 0 then (s, Except.ok []) else s.devRead who (CD.map x + 0x240) (32 * n)
        match got with
        | (s, .error st) => (s, .error st)
        | (s, .ok es) => match mapSends n es with
          | none => (s, .error stCheckFailed)
          | some sends =>
            if sends.any (fun e => s.commSize d k ≤ e.rank) then (s, .error stFormat)
            else if sends.any (fun e => CD.len x < e.srcOff + e.len) then (s, .error stAddrRange)
            else (s, .ok ((List.range 64).map (fun j => leNat (slice hd (64 + 8 * j) 6)), sends))

/-! ### Operations -/

/-- The sends of an operation begun (R236, R248, R251). -/
def State.colBegin (s : State) (d : Nat) (o : ColOp) : State × ColOp :=
  let x := o.desc
  let k := CD.comm x % 16
  let n := s.commSize d k
  let r := s.commRank d k
  let len := CD.len x
  let o := { o with moving := true, last := r }
  match CD.op x with
  | 2 =>
    let (s, o) := (List.range (pieces x)).foldl (fun (y : State × ColOp) q =>
      if q % n = r then y else
      let (s, o, bs) := y.1.colRead d y.2 (CD.src x + 8192 * q) (pieceLen x q)
      if o.fail.isSome then (s, o) else s.sendData d o (q % n) (8192 * CD.widen x * q) q bs) (s, o)
    let own := ((List.range (s.ownPieces d x)).map fun i => pieceLen x (s.ownPiece d x i)).foldl (· + ·) 0
    State.fillWindow d (pieces x + 1) s { o with due := (len - own) * CD.widen x }
  | 3 =>
    let (s, o) := (s.others d k).foldl (fun (y : State × ColOp) j =>
      (List.range (pieces x)).foldl (fun (y : State × ColOp) q =>
        let (s, o, bs) := y.1.colRead d y.2 (CD.src x + j * len + 8192 * q) (pieceLen x q)
        if o.fail.isSome then (s, o) else s.sendData d o j (8192 * CD.widen x * q) q bs) y) (s, o)
    State.fillWindow d (pieces x + 1) s o
  | 4 =>
    let (s, o, bs) := s.colRead d o (CD.src x) len
    let (s, o) := s.colWrite d o (CD.dst x + r * len) bs
    State.sendRuns d (s.others d k) s { o with due := (n - 1) * len } (r * len) 0 bs
  | 5 =>
    if CD.root x = r then
      let (s, o, bs) := s.colRead d o (CD.src x) len
      let (s, o) := s.colWrite d o (CD.dst x) bs
      State.sendRuns d (s.others d k) s o 0 0 bs
    else (s, { o with due := len })
  | 7 =>
    let o := { o with due := len * CD.steps x, freeBase := s.tally d (CD.free x) }
    let o := State.ringAdmit d (min (CD.slots x) (CD.steps x)) s o
    State.ringForward d (CD.steps x + 1) s o
  | 9 => (s.others d k).foldl (fun (y : State × ColOp) j => y.1.sendData d y.2 j 0 0 []) (s, { o with due := n - 1 })
  | _ =>
    match s.readMap d x with
    | (s, .error st) => (s, { o with fail := some st })
    | (s, .ok (table, sends)) =>
      let wanted := (s.others d k).map fun j => (j, table.getD j 0)
      let o := { o with dueOf := wanted.foldl (fun m e => Store.set 0 m e.1 e.2) [], due := (wanted.map (·.2)).foldl (· + ·) 0 }
      sends.foldl (fun (y : State × ColOp) (e : MapSend) =>
        let (s, o, bs) := y.1.colRead d y.2 (CD.src x + e.srcOff) e.len
        if o.fail.isSome then (s, o)
        else if e.rank = r then
          if CD.dstLen x < e.dstOff + e.len then (s, { o with fail := some stAddrRange }) else s.colWrite d o (CD.dst x + e.dstOff) bs
        else State.sendRun d e.rank 0 (bs.length / 8192 + 1) s o e.dstOff bs) (s, o)

/-- COL_STAT and HOLD_BYTES (R258). -/
def State.colShow (s : State) (d : Nat) : State :=
  let e := s.colEng d
  let sum (f : ColOp → Nat) : Nat := (e.running.map f).foldl (· + ·) 0
  let s := s.fput (pgCol d) F.col.COL_STAT_OPS e.running.length
  let s := s.fput (pgCol d) F.col.COL_STAT_FLOWS (sum (·.recv.length))
  let s := s.fput (pgCol d) F.col.COL_STAT_PIECES (sum (·.slots.length))
  s.fput (pgCol d) F.col.HOLD_BYTES_BYTES ((e.hold.map fun f => 32 + f.data.length).foldl (· + ·) 0)

/-- A die's engine with new contents. -/
def State.putCol (s : State) (d : Nat) (e : ColEngine) : State := State.colShow { s with col := Store.set {} s.col d e } d

/-- A running operation replaced. -/
def State.putOp (s : State) (d : Nat) (o : ColOp) : State :=
  let e := s.colEng d
  s.putCol d { e with running := e.running.map fun y =>
    if y.opseq = o.opseq ∧ CD.comm y.desc = CD.comm o.desc then o else y }

/-- The running operation of a communicator with an OPSEQ. -/
def State.opOf (s : State) (d k opseq : Nat) : Option ColOp :=
  (s.colEng d).running.find? fun o => CD.comm o.desc % 16 == k && o.opseq == opseq

/-- The destination region of an operation. -/
def State.dstRegion (s : State) (d x : Nat) : Nat :=
  match CD.op x with
  | 2 => CD.len x * CD.widen x
  | 3 => CD.len x * CD.widen x
  | 4 => s.commSize d (CD.comm x % 16) * CD.len x
  | 5 => CD.len x
  | 7 => CD.slots x * CD.len x
  | 6 => CD.dstLen x
  | 8 => CD.dstLen x
  | _ => 0

/-- The source region of an operation. -/
def State.srcRegion (s : State) (d x : Nat) : Nat :=
  let k := CD.comm x % 16
  match CD.op x with
  | 3 => s.commSize d k * CD.len x
  | 5 => if CD.root x = s.commRank d k then CD.len x else 0
  | 1 => 0
  | 9 => 0
  | _ => CD.len x

/-- The arrival record of an ended operation and the count of its last rank (R256). -/
def State.arrival (s : State) (d : Nat) (o : ColOp) (st wait : Nat) : State :=
  let p := pgCol d
  let i := s.fget p F.col.ARR_HEAD_HEAD
  let s := (s.fput p (F.col.ARR_OP_ID i) (descOpId o.desc)).fput p (F.col.ARR_OPSEQ i) o.opseq
  let s := ((s.fput p (F.col.ARR_LAST_RANK i) o.last).fput p (F.col.ARR_COMM i) (CD.comm o.desc)).fput p (F.col.ARR_STATUS i) st
  let s := (s.fput p (F.col.ARR_WAIT_NS i) (min (2 ^ 32 - 1) wait)).fput p F.col.ARR_HEAD_HEAD ((i + 1) % 16)
  s.bump p (F.col.LAST_COUNT_COUNT o.last) 1

/-- The tally event of a SATURATED operation (R81, R240); which identifier source class 10 then carries is not stated (log 33). -/
def State.colSaturated (s : State) (d : Nat) : State :=
  let s := s.bump (pgCol d) (F.com.EVT_CNT 1) 1
  if s.fon (pgCol d) F.col.NUM_CTRL_SAT_TALLY_EN then
    let (v, s) := s.draw
    s.notify d (s.fget (pgCol d) F.col.NUM_CTRL_SAT_TALLY) 1 (srcCode 10 v)
  else s

/-- Waiting operations of a communicator ended with ABORTED (R233). -/
def State.abortWaiting (s : State) (d k : Nat) : State :=
  let e := s.colEng d
  let gone : List ColOp := e.waiting.filter fun o => CD.comm o.desc % 16 == k
  let s := s.putCol d { e with waiting := e.waiting.filter fun o => CD.comm o.desc % 16 != k }
  gone.foldl (fun s o => (s.arrival d o stAborted 0).noteRun stAborted) s

/-- A running operation ended with a status (R233, R247, R256, R257). -/
def State.colEnd (s : State) (d : Nat) (o : ColOp) (st : Nat) : State :=
  let x := o.desc
  let k := CD.comm x % 16
  let good := st == stDone || st == stSaturated
  let s := (o.recv.filter (0 < ·.owed)).foldl (fun s f => s.sendAck d o f) s
  let e := s.colEng d
  let s := s.putCol d { e with running := e.running.filter fun y => !(y.opseq == o.opseq && CD.comm y.desc == CD.comm x) }
  let (w, s) := match o.lastSend with | some t => (s.time.toNat - t, s) | none => s.draw
  let s := s.arrival d o st w
  let s := if good then
      let s := if st = stSaturated then s.colSaturated d else s
      let s := s.dieTally d x 4
      if CD.op x = 2 ∨ CD.op x = 3 ∨ CD.op x = 4 ∨ CD.op x = 9
      then { s with slack := s.slack ++ [⟨CD.comm x, o.last, min (2 ^ 32 - 1) w⟩] } else s
    else
      let (bs, s) := s.junk (s.dstRegion d x)
      let s := if s.dstRegion d x = 0 then s else (s.devWrite (s.commTenant d k) (CD.dst x) bs).1
      if st = stTimeout then s.event (pgCol d) 13 st else s
  let s := if CD.op x ≠ 8 then s
    else if !good then (s.setComm d k 4).abortWaiting d k
    else s.setComm d k (if (s.outstanding d k).any fun y => CD.op y.desc == 8 then 2 else 1)
  s.noteRun st

/-- An operation put back, or ended where something failed. -/
def State.settleOp (s : State) (d : Nat) (o : ColOp) : State :=
  match o.fail with
  | some st => s.colEnd d o st
  | none => s.putOp d o

/-! ### Receiving (R243 to R246) -/

/-- OPSEQ `a` comes before `b` (modulo 2³²). -/
def seqBefore (a b : Nat) : Bool := a != b && (b + 2 ^ 32 - a) % 2 ^ 32 < 2 ^ 31

/-- The frame's source address is a port of the member SRC_RANK names (R246). -/
def State.fromMember (s : State) (d k h src : Nat) : Bool :=
  s.commState d k != 0 &&
  match (s.members d k)[CH.src h]? with
  | some p => let b := s.fget (pgComm d) (F.comm.PR_MAC_MAC_BASE p); b ≤ src && src < b + 8
  | none => false

/-- A frame put into the hold area, dropped where it is full, discarded where it is held already (R245). -/
def State.holdFrame (s : State) (d : Nat) (f : HeldFrame) : State :=
  let e := s.colEng d
  let same (g : HeldFrame) : Bool := CH.comm g.hdr == CH.comm f.hdr && CH.src g.hdr == CH.src f.hdr && CH.opseq g.hdr == CH.opseq f.hdr
    && CH.psn g.hdr == CH.psn f.hdr
  if e.hold.any same then s.bump (pgCol d) F.col.DUP_FRAMES_COUNT 1
  else if 2 ^ 20 < s.fget (pgCol d) F.col.HOLD_BYTES_BYTES + 32 + f.data.length then s.bump (pgCol d) F.col.DROP_HOLD_COUNT 1
  else s.putCol d { e with hold := e.hold ++ [f] }

/-- The header disagrees with the local operation of its OPSEQ (R239). -/
def State.disagrees (s : State) (d : Nat) (o : ColOp) (h : Nat) (data : List Byte) : Bool :=
  let x := o.desc
  let k := CD.comm x % 16
  let red := CD.op x == 3 || (CD.op x == 2 && CH.piece h % s.commSize d k == s.commRank d k)
  CH.op h != CD.op x || CH.redop h != CD.redop x || CH.dst h != s.commRank d k || CH.src h == s.commRank d k
    || data.length != CH.len h || 8192 < CH.len h
    || (red && (pieces x ≤ CH.piece h || CH.len h != pieceLen x (CH.piece h)))
    || (CD.op x == 2 && !red && CH.piece h % s.commSize d k != CH.src h)
    || (CD.op x == 5 && CH.src h != CD.root x)
    || (CD.op x == 7 && (CH.piece h == 0 || CD.steps x < CH.piece h))
    || (CD.op x == 9 && CH.len h != 0)

/-- The index, among the pieces reduced here, of the piece a contribution is for; none for other frames. -/
def State.pieceIdx (s : State) (d : Nat) (o : ColOp) (h : Nat) : Option Nat :=
  let k := CD.comm o.desc % 16
  if CD.op o.desc = 3 then some (CH.piece h)
  else if CD.op o.desc = 2 ∧ CH.piece h % s.commSize d k = s.commRank d k then some (CH.piece h / s.commSize d k)
  else none

/-- The frame lies above the window of its operation (R244, R248). -/
def State.aboveWindow (s : State) (d : Nat) (o : ColOp) (h : Nat) : Bool :=
  match s.pieceIdx d o h with
  | some i => o.floor + 48 ≤ i
  | none => CD.op o.desc == 7 && o.admitted < CH.piece h

/-- Bytes a frame may still deliver: PERMUTE and RESHARD receive no more than the table says (R246, R252). -/
def ColOp.overDue (o : ColOp) (h : Nat) : Bool := CD.mapped o.desc && Store.get 0 o.dueOf (CH.src h) < CH.len h

/-- PSN `p` marked as received; the base passes every marked PSN (R243). -/
def RecvFlow.mark (f : RecvFlow) (p : Nat) : RecvFlow :=
  let rec up : Nat → Nat → List Nat → Nat × List Nat
    | 0, b, m => (b, m)
    | n + 1, b, m => if m.contains b then up n (b + 1) (m.filter (· ≠ b)) else (b, m)
  let m := p :: f.marks
  let (b, m) := up m.length f.base m
  { f with base := b, marks := m, owed := f.owed + 1 }

/-- A frame owed an acknowledgement; the 32nd is acknowledged at once (R243). -/
def State.owe (s : State) (d : Nat) (o : ColOp) (f : RecvFlow) : State × ColOp :=
  let put (f : RecvFlow) : ColOp := { o with recv := f :: o.recv.filter (·.rank != f.rank) }
  if 32 ≤ f.owed then (s.sendAck d o f, put { f with owed := 0 }) else (s, put f)

/-- An accepted frame's bytes: joined to its piece, or placed at OFFSET (R244, R246). -/
def State.takeData (s : State) (d : Nat) (o : ColOp) (h : Nat) (data : List Byte) : State × ColOp :=
  let x := o.desc
  let o := { o with last := CH.src h }
  let s := s.bump (pgCol d) F.col.RX_BYTES_COUNT data.length
  match s.pieceIdx d o h with
  | some i =>
    match o.slots.find? (·.idx == i) with
    | none => (s, o)
    | some sl =>
      let sl := { sl with members := sl.members ||| 2 ^ CH.src h,
                          sums := colJoin (CD.redop x) sl.sums (colElems (CD.redop x) (data.length / CD.elem x) data) }
      let o := { o with slots := o.slots.map fun y => if y.idx = i then sl else y }
      if popCount 64 sl.members = s.commSize d (CD.comm x % 16) then
        let (s, o) := s.finishPiece d o sl
        State.fillWindow d (pieces x + 1) s o
      else (s, o)
  | none =>
    if CD.op x = 9 then (s, { o with due := o.due - 1 }) else
    let (s, o) := s.colWrite d o (CD.dst x + CH.off h) data
    if CD.op x = 7 then
      let (s, o) := s.stepArrived d o (CH.piece h) data.length
      State.ringForward d (CD.steps x + 1) s o
    else
      let left := Store.get 0 o.dueOf (CH.src h) - data.length
      let dueOf := if CD.mapped x then Store.set 0 o.dueOf (CH.src h) left else o.dueOf
      (s, { o with due := o.due - data.length, dueOf := dueOf })

/-- A DATA frame of a running operation at the current epoch, in the order of R246. -/
def State.placeFrame (s : State) (d : Nat) (o : ColOp) (h : Nat) (data : List Byte) : State :=
  let flows := s.fget (pgCol d) F.col.COL_STAT_FLOWS
  match (o.recv.find? (·.rank == CH.src h)).orElse fun _ => if flows < 512 then some { rank := CH.src h } else none with
  | none => s.bump (pgCol d) F.col.DROP_WINDOW_COUNT 1
  | some f =>
    if CH.psn h < f.base ∨ f.marks.contains (CH.psn h) then
      let (s, o) := s.owe d o { f with owed := f.owed + 1 }
      (s.bump (pgCol d) F.col.DUP_FRAMES_COUNT 1).putOp d o
    else if f.base + 256 ≤ CH.psn h then s.bump (pgCol d) F.col.DROP_WINDOW_COUNT 1
    else if s.disagrees d o h data then (s.sendNack d h stFormat).colEnd d o stFormat
    else if s.aboveWindow d o h then s.bump (pgCol d) F.col.DROP_WINDOW_COUNT 1
    else if s.dstRegion d o.desc < CH.off h + CH.len h ∨ o.overDue h then (s.sendNack d h stAddrRange).colEnd d o stAddrRange
    else
      let (s, o) := s.takeData d o h data
      let (s, o) := s.owe d o (f.mark (CH.psn h))
      s.settleOp d o

/-- A DATA frame whose header passed its check (R246). -/
def State.colData (s : State) (d : Nat) (f : HeldFrame) : State :=
  let h := f.hdr
  let k := CH.comm h % 16
  let cur := s.commEpoch d k
  let issued := seqBefore (CH.opseq h) (s.fget (pgComm d) (F.comm.CM_OPSEQ_OPSEQ k))
  let pending := (s.outstanding d k).any fun o => o.opseq == CH.opseq h
  if !issued ∨ (CH.epoch h = (cur + 1) % 2 ^ 16 ∧ s.commState d k = 2) then s.holdFrame d f
  else if CH.epoch h = cur then
    match s.opOf d k (CH.opseq h) with
    | some o => if o.moving then s.placeFrame d o h f.data else s.holdFrame d f
    | none =>
      if pending then s.holdFrame d f else
      (s.colTx d k (CH.src h) 2 (CH.op h) (CH.redop h) (CH.epoch h) (CH.opseq h) (CH.psn h + 1) 0 0 (leBytes 8 0)).bump (pgCol d)
        F.col.DUP_FRAMES_COUNT 1
  else if CH.epoch h = (cur + 2 ^ 16 - 1) % 2 ^ 16 ∧ !pending then
    (s.colTx d k (CH.src h) 2 (CH.op h) (CH.redop h) (CH.epoch h) (CH.opseq h) (CH.psn h + 1) 0 0 (leBytes 8 0)).bump (pgCol d)
      F.col.STALE_FRAMES_COUNT 1
  else (s.sendNack d h stFenced).bump (pgCol d) F.col.STALE_FRAMES_COUNT 1

/-- Held frames processed as if they had just arrived (R245). -/
def State.releaseHold (s : State) (d : Nat) : State :=
  let e := s.colEng d
  let held : List HeldFrame := e.hold
  held.foldl (fun s f => s.colData d f) (s.putCol d { e with hold := [] })

/-- The fence of communicator `k` may pass: FENCING, and no operation before the oldest RESHARD is outstanding (R233). -/
def State.fenceReady (s : State) (d k : Nat) : Option ColOp :=
  if s.commState d k ≠ 2 then none else
  match (s.outstanding d k).find? fun o => CD.op o.desc == 8 with
  | none => none
  | some o => if (s.outstanding d k).any fun y => seqBefore y.opseq o.opseq then none else some o

/-- An operation's sends begun and the frames held for it processed. -/
def State.beginOp (s : State) (d : Nat) (o : ColOp) : State :=
  let (s, o) := s.colBegin d o
  (s.settleOp d o).releaseHold d

/-- Fences that may pass do so: the epoch advances, held frames are released, the permute starts (R233, R251). -/
def State.passFences (d : Nat) : Nat → State → State
  | 0, s => s
  | fuel + 1, s =>
    match (List.range 16).findSome? fun k => (s.fenceReady d k).map fun o => (k, o) with
    | none => s
    | some (k, o) =>
      let s := (s.fput (pgComm d) (F.comm.CM_EPOCH_CUR_EPOCH k) (CD.newEpoch o.desc)).setComm d k 3
      let s := match s.opOf d k o.opseq with
        | some o => s.beginOp d o
        | none => s.releaseHold d
      State.passFences d fuel s

/-! ### Descriptors at the engine (R238) -/

/-- The epoch a descriptor of communicator `k` must name now: that of the RESHARD issued last, else CUR_EPOCH (R233). -/
def State.epochNow (s : State) (d k : Nat) : Nat :=
  match ((s.outstanding d k).filter fun o => CD.op o.desc == 8).getLast? with
  | some o => CD.newEpoch o.desc
  | none => s.commEpoch d k

/-- The refusal of a region: none where it is empty or lies in one object the tenant may reach. -/
def State.colRegion (s : State) (d x : Nat) (write : Bool) (a n : Nat) : Option Nat :=
  if n = 0 then none else
  match winOf a with
  | .object _ _ => s.rangeCheck (s.commTenant d (CD.comm x % 16)) write a n
  | _ => some stAddrRange

/-- The first failing check of a descriptor after its CHECK (R238). -/
def State.colCheck (s : State) (d x : Nat) : Option Nat :=
  let op := CD.op x
  let k := CD.comm x % 16
  let red := op == 2 || op == 3
  let rs := s.colRegion d x false (CD.src x) (s.srcRegion d x)
  let rd := s.colRegion d x true (CD.dst x) (s.dstRegion d x)
  let rm := if CD.mapped x then s.colRegion d x false (CD.map x) 0x240 else none
  let any (st : Nat) : Bool := rs == some st || rd == some st || rm == some st
  firstFailure [
    (!s.versionOk (pgCol d) (fieldAt x 0 0 4), stVersion),
    (reservedSet 64 x (colFields op), stReservedSet),
    (op == 0 || 9 < op || (if red then CD.redop x == 0 || 4 < CD.redop x else CD.redop x != 0)
      || (op == 8 && CD.newEpoch x != (CD.epoch x + 1) % 2 ^ 16)
      || (op == 7 && (CD.steps x == 0 || CD.slots x < 2)), stFormat),
    ((red && CD.len x % CD.elem x != 0) || any stLenRange, stLenRange),
    ((CD.mapped x && CD.map x % 64 != 0) || any stAddrRange, stAddrRange),
    (CD.comm x / 16 != d || s.tenantGone (s.fget (pgComm d) (F.comm.CM_CFG_TENANT k)) || s.commState d k == 0 || s.commState d k == 4 || !s.enabled (pgCol d) || rs.isSome || rd.isSome || rm.isSome
      || (op == 5 && s.commSize d k ≤ CD.root x)
      || (s.srcRegion d x != 0 && s.trainState (CD.src x) && (s.trainLeak (CD.src x) (CD.dst x)
          || (s.members d k).any fun p => s.twinPeer d p)), stAccess),
    (CD.epoch x != s.epochNow d k, stFenced)]

/-- The descriptor completes locally (R238). -/
def colLocal (x : Nat) : Bool :=
  CD.op x == 1 || (2 ≤ CD.op x && CD.op x ≤ 5 && CD.len x == 0) || (CD.op x == 7 && CD.len x == 0)
    || (CD.op x == 6 && CD.len x == 0 && CD.dstLen x == 0)

/-- A descriptor accepted: done at once, or given the next OPSEQ of its communicator (R233, R238). -/
def State.colAccept (s : State) (d x : Nat) : State :=
  if colLocal x then (s.dieTally d x 4).noteRun stDone else
  let k := CD.comm x % 16
  let n := s.fget (pgComm d) (F.comm.CM_OPSEQ_OPSEQ k)
  let s := s.fput (pgComm d) (F.comm.CM_OPSEQ_OPSEQ k) (n + 1)
  let e := s.colEng d
  let s := s.putCol d { e with waiting := e.waiting ++ [{ desc := x, opseq := n }] }
  if CD.op x = 8 ∧ s.commState d k = 1 then State.passFences d 16 (s.setComm d k 2) else s

/-- The oldest descriptor of a die's queue taken as an `op`: one whose CHECK fails or whose opcode is unknown is taken by whichever
row comes (log 29). -/
def State.colTake (s : State) (d op : Nat) : State :=
  let e := s.colEng d
  match e.queue with
  | [] => s
  | q :: rest =>
    if q.held then s else
    let s1 := s.putCol d { e with queue := rest }
    match checkStruct 64 q.desc with
    | .failed => (s1.event (pgCol d) 11 stCheckFailed).noteRun stCheckFailed
    | .clean x | .corrected x =>
      if 1 ≤ CD.op x ∧ CD.op x ≤ 9 ∧ CD.op x ≠ op then s else
      let s1 := if (checkStruct 64 q.desc) = .corrected x then s1.event (pgCol d) 10 else s1
      match s1.colCheck d x with
      | some st => (s1.event (pgCol d) 12 st).noteRun st
      | none => s1.colAccept d x

/-- A descriptor at the engine: it queues (R235). -/
def State.colArrive (s : State) (d desc : Nat) (held : Bool) : State :=
  let e := s.colEng d
  s.putCol d { e with queue := e.queue ++ [⟨d, desc, held⟩] }

/-- COL_SIGNAL (R236, R238). -/
def execColSignal (d : Fin 2) (s : State) : Host.Outcome State Fault Refusal := .next (s.colTake d 1)
/-- ALL_REDUCE (R236): accepted, it takes the communicator's next OPSEQ. -/
def execAllReduce (d : Fin 2) (s : State) : Host.Outcome State Fault Refusal := .next (s.colTake d 2)
/-- REDUCE_SCATTER (R236). -/
def execReduceScatter (d : Fin 2) (s : State) : Host.Outcome State Fault Refusal := .next (s.colTake d 3)
/-- ALL_GATHER (R236). -/
def execAllGather (d : Fin 2) (s : State) : Host.Outcome State Fault Refusal := .next (s.colTake d 4)
/-- BROADCAST (R236). -/
def execBroadcast (d : Fin 2) (s : State) : Host.Outcome State Fault Refusal := .next (s.colTake d 5)
/-- PERMUTE (R236, R252). -/
def execPermute (d : Fin 2) (s : State) : Host.Outcome State Fault Refusal := .next (s.colTake d 6)
/-- RING_PASS (R236, R248). -/
def execRingPass (d : Fin 2) (s : State) : Host.Outcome State Fault Refusal := .next (s.colTake d 7)
/-- RESHARD (R233, R251). -/
def execReshard (d : Fin 2) (s : State) : Host.Outcome State Fault Refusal := .next (s.colTake d 8)
/-- BARRIER (R236, R238). -/
def execBarrier (d : Fin 2) (s : State) : Host.Outcome State Fault Refusal := .next (s.colTake d 9)

/-! ### Running (R243, R247, R248) -/

/-- The oldest waiting operation starts where fewer than eight run; one behind its communicator's RESHARD waits (R233, R248). -/
def State.colStart (s : State) (d : Nat) : State :=
  let e := s.colEng d
  match e.waiting with
  | [] => s
  | o :: rest =>
    let k := CD.comm o.desc % 16
    if 8 ≤ e.running.length ∨ (e.running.any fun y => CD.comm y.desc == CD.comm o.desc && CD.op y.desc == 8) then s else
    let s := s.putCol d { e with waiting := rest, running := e.running ++ [o] }
    if CD.op o.desc = 8 ∧ s.commState d k ≠ 3 then s else s.beginOp d o

/-- COL_OP_START (R248). -/
def execColOpStart (d : Fin 2) (s : State) : Host.Outcome State Fault Refusal := .next (State.passFences d 16 (s.colStart d))

/-- RING_STEP_ADMIT (R248): the `i`-th running operation admits its next step where it may. -/
def execRingStepAdmit (d : Fin 2) (i : Fin 8) (s : State) : Host.Outcome State Fault Refusal :=
  match (s.colEng d).running[i.val]? with
  | none => .next s
  | some o =>
    if CD.op o.desc ≠ 7 || !s.ringMayAdmit d o (o.admitted + 1) then .next s else
    let (s, o) := State.ringForward d (CD.steps o.desc + 1) s { o with admitted := o.admitted + 1 }
    .next (State.passFences d 16 (s.settleOp d o))

/-- An ACK of the flow from this chip to `rank`: frames below PSN and those of its bitmap (R242, R243). -/
def ColOp.acked (o : ColOp) (rank psn map : Nat) : ColOp :=
  { o with
    last := rank
    send := o.send.map fun f => if f.rank ≠ rank then f else
      { f with unacked := f.unacked.filter fun y => !(y.psn < psn || (psn < y.psn && y.psn ≤ psn + 64 && bitAt map (y.psn - psn - 1))) } }

/-- A collective frame received through port `n` (R246): its header checked, then treated by its type. -/
def State.colFrame (s : State) (n : Nat) (f : Frame) : State :=
  match checkStruct 32 (leNat (f.data.take 32)) with
  | .failed => (s.bump (pgCol (n / 4)) (F.com.EVT_CNT 3) 1).event (pgCol (n / 4)) 11 stCheckFailed
  | .clean h | .corrected h =>
    let d := CH.comm h / 16
    let k := CH.comm h % 16
    let s := if leNat (f.data.take 32) = h then s else s.event (pgCol d) 10
    let data := slice f.data 32 (CH.len h)
    if !s.enabled (pgCol d) then s.bump (pgCol d) F.col.FOREIGN_COUNT 1
    else if f.data.length < 32 ∨ !s.fromMember d k h f.src then s.bump (pgCol d) F.col.FOREIGN_COUNT 1
    else if !s.versionOk (pgCol d) (fieldAt h 0 0 4) then s.sendNack d h stVersion
    else match CH.type h with
      | 1 => s.colData d ⟨n, h, data⟩
      | 2 => match s.opOf d k (CH.opseq h) with
        | some o => s.putOp d (o.acked (CH.src h) (CH.psn h) (leNat (data.take 8)))
        | none => s
      | 3 =>
        let s := s.event (pgCol d) 14 (leNat (data.take 1))
        match s.opOf d k (CH.opseq h) with
        | some o => s.colEnd d { o with last := CH.src h } (leNat (data.take 1))
        | none => s
      | _ => s

/-- Whether a frame is a collective frame of a type, as its header (put right where one bit is wrong) says. -/
def colTyped (t : Nat) (f : Frame) : Bool :=
  match checkStruct 32 (leNat (f.data.take 32)) with
  | .failed => t == 1
  | .clean h | .corrected h => CH.type h == t

/-- A collective frame of a type arrives through port `n`; a frame of another type is not this event. -/
def State.colTypedFrame (s : State) (n t : Nat) (f : Frame) : State :=
  if colTyped t f then
    let s := s.colFrame n f
    State.passFences 1 16 (State.passFences 0 16 s)
  else s

/-- COL_DATA_FRAME (R246). -/
def execColDataFrame (n : Fin 8) (f : Frame) (s : State) : Host.Outcome State Fault Refusal := .next (s.colTypedFrame n 1 f)
/-- COL_ACK (R243). -/
def execColAck (n : Fin 8) (f : Frame) (s : State) : Host.Outcome State Fault Refusal := .next (s.colTypedFrame n 2 f)
/-- COL_NACK (R243). -/
def execColNack (n : Fin 8) (f : Frame) (s : State) : Host.Outcome State Fault Refusal := .next (s.colTypedFrame n 3 f)

/-- COL_RTO (R243): frame `psn` to `rank` of the `i`-th running operation has gone unacknowledged for RTO. -/
def execColRto (d : Fin 2) (i : Fin 8) (rank : Fin 64) (psn : BitVec 32) (s : State) : Host.Outcome State Fault Refusal :=
  match (s.colEng d).running[i.val]? with
  | none => .next s
  | some o =>
    match (o.send.find? (·.rank == rank.val)).bind fun f => f.unacked.find? (·.psn == psn.toNat) with
    | none => .next s
    | some y =>
      if s.fget (pgCol d) F.col.RETRIES_COUNT ≤ y.tries then .next (State.passFences d 16 (s.colEnd d o stTimeout)) else
      let s := s.opTx d o rank 1 y.psn y.off y.piece y.data
      let s := (s.bump (pgCol d) F.col.RETRANSMITS_COUNT 1).bump (pgCol d) F.col.TX_BYTES_COUNT y.data.length
      .next (s.putOp d { o with
        lastSend := some s.time.toNat
        send := o.send.map fun f => if f.rank ≠ rank.val then f else
          { f with unacked := f.unacked.map fun z => if z.psn = y.psn then { z with tries := z.tries + 1 } else z } })

/-- COL_ACK_DELAY (R243): ACK_DELAY after the first unacknowledged frame of the flow from `rank`, an ACK is sent. -/
def execColAckDelay (d : Fin 2) (i : Fin 8) (rank : Fin 64) (s : State) : Host.Outcome State Fault Refusal :=
  match (s.colEng d).running[i.val]? with
  | none => .next s
  | some o =>
    match o.recv.find? fun f => f.rank == rank.val && 0 < f.owed with
    | none => .next s
    | some f => .next ((s.sendAck d o f).putOp d { o with recv := o.recv.map fun g => if g.rank = rank.val then { g with owed := 0 } else g })

/-- Everything an operation sends is acknowledged and everything it receives is in place (R247). -/
def State.colComplete (s : State) (d : Nat) (o : ColOp) : Bool :=
  o.moving && o.send.all (·.unacked.isEmpty) && o.due == 0 && s.ownPieces d o.desc ≤ o.floor
    && (CD.op o.desc != 7 || CD.steps o.desc ≤ o.sent)

/-- COL_COMPLETE (R247): the `i`-th running operation completes. -/
def execColComplete (d : Fin 2) (i : Fin 8) (s : State) : Host.Outcome State Fault Refusal :=
  match (s.colEng d).running[i.val]? with
  | none => .next s
  | some o =>
    if s.colComplete d o then .next (State.passFences d 16 (s.colEnd d o (if o.sat then stSaturated else stDone))) else .next s

/-- The soft reset of a die's collective engine (R233): its operations end with ABORTED, its communicators are FREE. -/
def State.colReset (s : State) (d : Nat) : State :=
  let ops : List ColOp := (s.colEng d).running
  let s := ops.foldl (fun s o => s.colEnd d o stAborted) s
  let s := (List.range 16).foldl (fun s k => (s.abortWaiting d k).setComm d k 0) s
  s.putCol d {}

end Sys2Proof.Machine
end

