-- ==== Sys2Proof/Machine/Camern.lean ====
section
/-! DEFINITION. Camern remote-memory transport (R341 to R374): contexts and their spilling, packets, windows, work queues, messages,
acknowledgement and congestion control, tenant removal. -/

namespace Sys2Proof.Machine

def pgXpt : Page := ⟨.xpt, 0⟩
def pgCtx : Page := ⟨.ctx, 0⟩
def pgWin : Page := ⟨.win, 0⟩
def pgCong : Page := ⟨.cong, 0⟩

/-! ### Connection contexts (R345) -/

/-- A field of a context: byte offset, low bit, width. -/
abbrev CxField := Nat × Nat × Nat

def cget (c : Nat) (f : CxField) : Nat := fieldAt c f.1 f.2.1 f.2.2
def cput (c : Nat) (f : CxField) (v : Nat) : Nat := c - placeAt f.1 f.2.1 f.2.2 (cget c f) + placeAt f.1 f.2.1 f.2.2 v

namespace CX
def state : CxField := (0, 4, 4)
def cls : CxField := (0, 8, 3)
def profile : CxField := (0, 12, 4)
def tenant : CxField := (0, 16, 4)
def negVersion : CxField := (0, 20, 4)
def initiator : CxField := (0, 24, 1)
def twin : CxField := (0, 25, 1)
def peer : CxField := (0, 26, 6)
def remoteConn : CxField := (4, 0, 20)
def remoteInc : CxField := (4, 20, 8)
def incarnation : CxField := (8, 0, 8)
def addrSel : CxField := (8, 8, 3)
def keyGen : CxField := (8, 16, 16)
def keyId : CxField := (0xC, 0, 16)
def payload64 : CxField := (0xC, 16, 8)
def peerIp : CxField := (0x10, 0, 128)
def tenantTag : CxField := (0x20, 0, 32)
def udpSrc : CxField := (0x24, 0, 16)
def vlan : CxField := (0x24, 16, 12)
def paths : CxField := (0x28, 0, 32)
def nextHop : CxField := (0x2C, 0, 48)
def txPsn : CxField := (0x40, 0, 64)
def txNext : CxField := (0x48, 0, 32)
def txOldest : CxField := (0x4C, 0, 32)
def cwnd : CxField := (0x50, 0, 32)
def inFlight : CxField := (0x54, 0, 32)
def srtt : CxField := (0x58, 0, 32)
def lastDec : CxField := (0x5C, 0, 32)
def outstanding : CxField := (0x60, 0, 15)
def salt : CxField := (0x64, 0, 32)
def txDone : CxField := (0x68, 0, 32)
def rxHigh : CxField := (0x80, 0, 64)
def rxBase : CxField := (0x88, 0, 32)
def failMsg : CxField := (0x8C, 0, 32)
def rxDone : CxField := (0x90, 0, 32)
def rxFail : CxField := (0x94, 0, 32)
def replay : CxField := (0x98, 0, 256)
def failStatus : CxField := (0xB8, 0, 8)
def key : CxField := (0xC0, 0, 256)
/-- Fields of quarter 0. -/
def quarter0 : List CxField :=
  [(0, 0, 11), (0, 12, 20), (4, 0, 28), (8, 0, 11), (8, 16, 16), (0xC, 0, 24), (0x10, 0, 128), (0x20, 0, 32), (0x24, 0, 28), (0x28, 0, 32),
   (0x2C, 0, 48), (0x3C, 0, 10)]
end CX

/-- The image with the CHECK of every quarter computed. -/
def sealCtx (c : Nat) : Nat :=
  (List.range 4).foldl (fun r i => r + (withCheck 64 (bitsOf c (512 * i) 512)) <<< (512 * i)) 0

/-- The image with single errors put right; none where a quarter cannot be. -/
def openCtx (c : Nat) : Option Nat :=
  (List.range 4).foldl (fun r i => match r, checkStruct 64 (bitsOf c (512 * i) 512) with
    | some r, .clean d => some (r + d <<< (512 * i))
    | some r, .corrected d => some (r + d <<< (512 * i))
    | _, _ => none) (some 0)

def State.ctxOf (s : State) (conn : Nat) : Option Nat := Store.get none s.xpt.ctx conn

/-- A resident context written, and most recently used. -/
def State.putCtx (s : State) (conn c : Nat) : State :=
  { s with xpt.ctx := Store.set none s.xpt.ctx conn (some c), xpt.lru := s.xpt.lru.filter (· ≠ conn) ++ [conn] }

def State.cset (s : State) (conn : Nat) (f : CxField) (v : Nat) : State :=
  match s.ctxOf conn with
  | some c => s.putCtx conn (cput c f v)
  | none => s

def State.cof (s : State) (conn : Nat) (f : CxField) : Nat :=
  match s.ctxOf conn with
  | some c => cget c f
  | none => 0

/-- A resident context is pinned (R349). -/
def State.pinned (s : State) (conn : Nat) : Bool :=
  s.xpt.tracks.any (·.conn == conn) || s.xpt.entries.any (fun e => fieldAt e.desc 8 0 20 == conn && descOpcode e.desc != 1)
    || s.cof conn CX.state == 3 || s.cof conn CX.state == 5 || s.xpt.missed.any (·.conn == conn)

/-- The registers that show the engine's occupancy (R371, R372, R374). -/
def State.xptShow (s : State) : State :=
  let x := s.xpt
  let s := s.fput pgXpt F.xpt.TRACKERS_REQ (x.tracks.filter (·.req)).length
  let s := s.fput pgXpt F.xpt.TRACKERS_RESP (x.tracks.filter (!·.req)).length
  let s := s.fput pgCtx F.ctx.RESIDENT_COUNT x.lru.length
  let s := s.fput pgCtx F.ctx.PINNED_COUNT (x.lru.filter (s.pinned ·)).length
  let s := s.fput pgCtx F.ctx.MISS_BYTES_BYTES ((x.missed.map fun m => frameLen m.frame).foldl (· + ·) 0)
  s.fput pgWin F.win.OPEN_WINDOWS_COUNT (x.wins.filter fun w => fieldAt w.2 0 4 1 == 1).length

/-- Where a context stands in the context table (R349). -/
def State.ctxSlot (s : State) (conn : Nat) : Nat := s.fget pgCtx F.ctx.CTX_TABLE_ADDR + 256 * conn

/-- A context read from the table. -/
def State.ctxLoad (s : State) (conn : Nat) : State × Except Nat Nat :=
  match winOf (s.ctxSlot conn) with
  | .object _ _ => match s.devRead .firmware (s.ctxSlot conn) 256 with
    | (s, .error st) => (s, .error st)
    | (s, .ok bs) => match openCtx (leNat bs) with
      | none => (s, .error stCheckFailed)
      | some c => (s, .ok c)
  | _ => (s, .error stAddrRange)

/-- An evicted context's image written to the table. -/
def State.ctxStore (s : State) (conn c : Nat) : State := (s.devWrite .firmware (s.ctxSlot conn) (leBytes 256 (sealCtx c))).1

/-- The least recently used unpinned context starts to be written back (R349). -/
def State.evict (s : State) : State :=
  match s.xpt.lru.find? fun k => !s.pinned k with
  | none => s
  | some k =>
    let c := (s.ctxOf k).getD 0
    { s.bump pgCtx F.ctx.EVICTIONS_COUNT 1 with
      xpt.ctx := Store.set none s.xpt.ctx k none, xpt.lru := s.xpt.lru.filter (· ≠ k), xpt.writing := s.xpt.writing ++ [(k, c)] }

/-- Fetches started while fewer than 64 run, a slot is free and the context is not being written back; a full XPT evicts (R349, R350). -/
def State.startFetches : Nat → State → State
  | 0, s => s
  | n + 1, s =>
    match s.xpt.wanted.find? fun k => !(s.xpt.writing.any (·.1 == k)) with
    | none => s
    | some k =>
      if 64 ≤ s.xpt.fetching.length then s
      else if 40960 ≤ s.xpt.lru.length + s.xpt.fetching.length + s.xpt.writing.length then
        if s.xpt.writing.isEmpty then s.evict else s
      else State.startFetches n
        { s.bump pgCtx F.ctx.FETCHES_COUNT 1 with xpt.wanted := s.xpt.wanted.filter (· ≠ k), xpt.fetching := s.xpt.fetching ++ [k] }

/-- A context wanted on chip. -/
def State.want (s : State) (conn : Nat) : State :=
  if s.xpt.wanted.contains conn || s.xpt.fetching.contains conn then s
  else State.startFetches 64 { s with xpt.wanted := s.xpt.wanted ++ [conn] }

/-- A context brought on chip for a command at once (log 35). -/
def State.ensureCtx (s : State) (conn : Nat) : State × Except Nat Nat :=
  match s.ctxOf conn with
  | some c => (s, .ok c)
  | none => match s.xpt.writing.find? (·.1 == conn) with
    | some (_, c) => ({ s with xpt.writing := s.xpt.writing.filter (·.1 != conn) }.putCtx conn c, .ok c)
    | none => match s.ctxLoad conn with
      | (s, .error st) => (s, .error st)
      | (s, .ok c) => (s.putCtx conn c, .ok c)

/-! ### Frames (R341, R344) -/

/-- The ones' complement sum of 16-bit words. -/
def onesSum : List Byte → Nat
  | [] => 0
  | [a] => a.toNat * 256
  | a :: b :: r => a.toNat * 256 + b.toNat + onesSum r

def fold16 (n : Nat) : Nat := let a := n % 65536 + n / 65536; a % 65536 + a / 65536
def inetSum (bs : List Byte) : Nat := 0xFFFF - fold16 (fold16 (onesSum bs))

/-- The local address `k`. -/
def State.ipAddr (s : State) (k : Nat) : Nat := s.fget pgXpt (F.xpt.ADDR_LO_IP k) + 2 ^ 64 * s.fget pgXpt (F.xpt.ADDR_HI_IP k)

/-- An IPv4-mapped address. -/
def isV4 (a : Nat) : Bool := a / 2 ^ 32 == 0xFFFF

/-- The IP packet of a UDP payload (R341). The IPv4 identification and the IPv6 flow label are free values: no rule states them. -/
def ipPacket (src dst cls sport dport free : Nat) (payload : List Byte) : Nat × List Byte :=
  let udp (sum : Nat) : List Byte := beBytes 2 sport ++ beBytes 2 dport ++ beBytes 2 (8 + payload.length) ++ beBytes 2 sum ++ payload
  if isV4 dst then
    let hd (sum : Nat) : List Byte := beBytes 1 0x45 ++ beBytes 1 (32 * cls) ++ beBytes 2 (28 + payload.length) ++ beBytes 2 free
      ++ beBytes 2 0x4000 ++ beBytes 1 64 ++ beBytes 1 17 ++ beBytes 2 sum ++ beBytes 4 src ++ beBytes 4 dst
    (0x0800, hd (inetSum (hd 0)) ++ udp 0)
  else
    let pseudo := beBytes 16 src ++ beBytes 16 dst ++ beBytes 4 (8 + payload.length) ++ beBytes 4 17
    let c := inetSum (pseudo ++ udp 0)
    (0x86DD, beBytes 4 (6 * 2 ^ 28 + (8 * cls) * 2 ^ 20 + free % 2 ^ 20) ++ beBytes 2 (8 + payload.length) ++ beBytes 1 17 ++ beBytes 1 64
      ++ beBytes 16 src ++ beBytes 16 dst ++ udp (if c = 0 then 0xFFFF else c))

/-- A UDP datagram read out of a frame: destination address and port, whether options, extension headers and fragments are absent and
the IPv6 checksum is right, its payload. -/
structure Datagram where
  dst : Nat
  port : Nat
  clean : Bool
  payload : List Byte
deriving DecidableEq, Repr

/-- Where the UDP header of an IPv6 packet stands, past its extension headers. -/
def v6Walk : Nat → Nat → Nat → List Byte → Option Nat
  | 0, _, _, _ => none
  | n + 1, next, at_, bs =>
    if next = 17 then some at_
    else if next = 0 ∨ next = 43 ∨ next = 60 then v6Walk n (beNat (slice bs at_ 1)) (at_ + 8 + 8 * beNat (slice bs (at_ + 1) 1)) bs
    else if next = 44 then v6Walk n (beNat (slice bs at_ 1)) (at_ + 8) bs
    else none

def udpOf (f : Frame) : Option Datagram :=
  let b := f.data
  if f.ety = 0x0800 ∧ beNat (b.take 1) / 16 = 4 ∧ beNat (slice b 9 1) = 17 then
    let u := beNat (b.take 1) % 16 * 4
    some ⟨0xFFFF * 2 ^ 32 + beNat (slice b 16 4), beNat (slice b (u + 2) 2), u = 20 && beNat (slice b 6 2) % 0x4000 == 0,
      slice b (u + 8) (beNat (slice b (u + 4) 2) - 8)⟩
  else if f.ety = 0x86DD ∧ beNat (b.take 1) / 16 = 6 then
    match v6Walk 8 (beNat (slice b 6 1)) 40 b with
    | none => none
    | some u =>
      let n := beNat (slice b (u + 4) 2)
      let pseudo := slice b 8 32 ++ beBytes 4 n ++ beBytes 4 17
      some ⟨beNat (slice b 24 16), beNat (slice b (u + 2) 2), u = 40 && fold16 (fold16 (onesSum (pseudo ++ slice b u n))) == 0xFFFF,
        slice b (u + 8) (n - 8)⟩
  else none

/-- The frame carries UDP to the Camern port at one of the chip's addresses (R310). -/
def State.camernFrame (s : State) (f : Frame) : Option Datagram :=
  match udpOf f with
  | none => none
  | some g =>
    if g.port = s.fget pgXpt F.xpt.XPT_CFG_UDP_PORT
      ∧ (List.range 8).any (fun k => bitAt (s.fget pgXpt F.xpt.XPT_CFG_ADDR_VALID) k && s.ipAddr k == g.dst) then some g else none

/-- The initialisation vector of a PSN in a direction (R344). -/
def gcmIv (salt dir psn : Nat) : Nat := (salt / 2 * 2 + dir) % 2 ^ 32 + 2 ^ 32 * psn

/-! ### The header (R342) -/

namespace PH
def version (h : Nat) : Nat := fieldAt h 0 0 4
def type (h : Nat) : Nat := fieldAt h 0 4 4
def last (h : Nat) : Bool := fieldAt h 0 8 1 == 1
def bump (h : Nat) : Bool := fieldAt h 0 9 1 == 1
def bumpDie (h : Nat) : Nat := fieldAt h 0 10 1
def keyGen (h : Nat) : Nat := fieldAt h 0 16 16
def conn (h : Nat) : Nat := fieldAt h 4 0 20
def inc (h : Nat) : Nat := fieldAt h 4 20 8
def psn (h : Nat) : Nat := fieldAt h 8 0 64
def msg (h : Nat) : Nat := fieldAt h 0x10 0 32
def len (h : Nat) : Nat := fieldAt h 0x14 0 22
def off (h : Nat) : Nat := fieldAt h 0x18 0 21
def plen (h : Nat) : Nat := fieldAt h 0x1C 0 14
def tally (h : Nat) : Nat := fieldAt h 0x1C 16 12
def win (h : Nat) : Nat := fieldAt h 0x20 0 16
def winGen (h : Nat) : Nat := fieldAt h 0x20 16 16
def winOff (h : Nat) : Nat := fieldAt h 0x24 0 40
def status (h : Nat) : Nat := fieldAt h 0x28 8 8
def floor (h : Nat) : Nat := fieldAt h 0x28 16 16
def ts (h : Nat) : Nat := fieldAt h 0x2C 0 32
end PH

/-- Header fields a packet type uses (R342, R343). -/
def packetFields (t : Nat) : List (Nat × Nat × Nat) :=
  [(0, 0, 8), (0, 11, 1), (0, 16, 16), (4, 0, 28), (8, 0, 64), (0x2C, 0, 32)] ++
  match t with
  | 1 => [(0, 8, 3), (0x10, 0, 32), (0x14, 0, 22), (0x18, 0, 21), (0x1C, 0, 14), (0x1C, 16, 12), (0x20, 0, 32), (0x24, 0, 40), (0x28, 16, 16)]
  | 2 => [(0x10, 0, 32), (0x14, 0, 22), (0x20, 0, 32), (0x24, 0, 40), (0x28, 16, 16)]
  | 3 => [(0, 8, 1), (0x10, 0, 32), (0x14, 0, 22), (0x18, 0, 21), (0x1C, 0, 14)]
  | 4 => [(0x1C, 0, 14)]
  | 5 => [(0x10, 0, 32), (0x28, 8, 8)]
  | 6 => [(0x10, 0, 16), (0x1C, 0, 14)]
  | 7 => [(0x10, 0, 16), (0x1C, 0, 14)]
  | 8 => [(0x28, 8, 8)]
  | _ => []

/-- VALID paths of a context whose ports are up. -/
def State.upPaths (s : State) (c : Nat) : List (Nat × Nat) :=
  ((List.range 8).filterMap fun p =>
    let x := bitsOf (cget c CX.paths) (4 * p) 4
    if 8 ≤ x then some (p, x % 8) else none).filter fun y => s.linkUp y.2

/-- A packet sent on a connection (R341 to R344): `rest` holds the fields its type uses beyond the first 16 bytes, RETX included. The
next PSN is taken, the paths take turns. -/
def State.cmrnTx (s : State) (conn type rest : Nat) (payload : List Byte) : State :=
  match s.ctxOf conn with
  | none => s
  | some c =>
    let psn := cget c CX.txPsn
    let version := if type = 6 then 1 else cget c CX.negVersion
    let h := rest + placeAt 0 0 4 version + placeAt 0 4 4 type + placeAt 0 16 16 (cget c CX.keyGen)
      + placeAt 4 0 20 (cget c CX.remoteConn) + placeAt 4 20 8 (cget c CX.remoteInc) + placeAt 8 0 64 psn + placeAt 0x2C 0 32 s.time.toNat
    let (ct, tag) := Config.gcmSeal (cget c CX.key) (gcmIv (cget c CX.salt) (1 - cget c CX.initiator) psn) (leBytes 48 h) payload
    let s := s.putCtx conn (cput (if psn + 1 = 2 ^ 64 then cput c CX.state 7 else c) CX.txPsn (psn + 1))
    let ps := s.upPaths c
    let i := Store.get 0 s.xpt.path conn
    match ps[i % ps.length]? with
    | none => s
    | some (p, port) =>
      let (free, s) := s.draw
      let src := s.ipAddr (cget c CX.addrSel)
      let (ety, ip) := ipPacket src (cget c CX.peerIp) (cget c CX.cls) (cget c CX.udpSrc + p) (s.fget pgXpt F.xpt.XPT_CFG_UDP_PORT) free
        (leBytes 48 h ++ ct ++ leBytes 16 tag)
      let s := { s with xpt.path := Store.set 0 s.xpt.path conn (i + 1) }
      s.sendFrame port (cget c CX.cls) ⟨cget c CX.nextHop, s.macBase + port, some (cget c CX.cls * 2 ^ 13 + cget c CX.vlan), ety, ip⟩ 2

/-- A CLOSE with a status, or a CLOSE_ACK. -/
def State.txClose (s : State) (conn st : Nat) : State := s.cmrnTx conn 8 (placeAt 0x28 8 8 st) []
def State.txCloseAck (s : State) (conn : Nat) : State := s.cmrnTx conn 9 0 []

/-- A CONNECT or ACCEPT with the context's connect record (R343). -/
def State.txConnect (s : State) (conn type : Nat) : State :=
  match s.ctxOf conn with
  | none => s
  | some c =>
    let r := placeAt 0 0 20 conn + placeAt 0 20 8 (cget c CX.incarnation) + placeAt 4 0 16 0x0002 + placeAt 8 0 32 (cget c CX.tenantTag)
      + placeAt 0xC 0 8 (cget c CX.payload64)
    s.cmrnTx conn type (placeAt 0x10 0 16 (cget c CX.keyId) + placeAt 0x1C 0 14 32) (leBytes 32 r)

/-! ### Trackers -/

def Track.same (a b : Track) : Bool := a.conn == b.conn && a.msg == b.msg && a.req == b.req
def State.putTrack (s : State) (t : Track) : State := { s with xpt.tracks := s.xpt.tracks.map fun x => if x.same t then t else x }
def State.dropTrack (s : State) (t : Track) : State := { s with xpt.tracks := s.xpt.tracks.filter fun x => !x.same t }
def State.track (s : State) (conn msg : Nat) (req : Bool) : Option Track :=
  s.xpt.tracks.find? fun t => t.conn == conn && t.msg == msg && t.req == req

/-- Payload bytes of a full packet of a connection. -/
def State.pay (s : State) (conn : Nat) : Nat := s.cof conn CX.payload64 * 64
/-- Packets of a message. -/
def State.pkts (s : State) (t : Track) : Nat := if t.len = 0 then 1 else (t.len + s.pay t.conn - 1) / max 1 (s.pay t.conn)
/-- Payload bytes of packet `i`. -/
def State.plen (s : State) (t : Track) (i : Nat) : Nat := min (s.pay t.conn) (t.len - i * s.pay t.conn)

/-- An ACK of one message (R343, R362). -/
def State.txAck (s : State) (t : Track) (complete : Bool) : State :=
  let r := placeAt 0 0 32 t.ts + placeAt 4 0 32 (s.time.toNat - t.at_) + placeAt 8 0 4 1 + placeAt 0x10 0 32 t.msg
    + placeAt 0x14 0 1 complete.toNat + placeAt 0x14 1 1 t.req.toNat + placeAt 0x18 0 256 t.got
  s.cmrnTx t.conn 4 (placeAt 0x1C 0 14 56) (leBytes 56 r)

/-- The tenant a connection acts for. -/
def State.connAgent (s : State) (conn : Nat) : Agent := .tenant (Fin.ofNat 16 (s.cof conn CX.tenant))

/-- Packet `i` of a message's data sent (R358, R363); a failed read of its bytes ends with the status. -/
def State.txData (s : State) (t : Track) (i : Nat) (retx : Bool) : State × Option Nat :=
  let n := s.plen t i
  let (s, bs) := if n = 0 then (s, Except.ok []) else s.devRead (s.connAgent t.conn) (t.addr + i * s.pay t.conn) n
  match bs with
  | .error st => (s, some st)
  | .ok bs =>
    let rest := placeAt 0 8 1 (i + 1 == s.pkts t).toNat + placeAt 0 11 1 retx.toNat + placeAt 0x10 0 32 t.msg + placeAt 0x14 0 22 t.len
      + placeAt 0x18 0 21 (i * s.pay t.conn) + placeAt 0x1C 0 14 n
    let more := if !t.req then 0 else
      placeAt 0x20 0 16 t.win + placeAt 0x20 16 16 t.winGen + placeAt 0x24 0 40 t.winOff + placeAt 0x28 16 16 (s.cof t.conn CX.txOldest)
        + match t.bump with
          | some (d, k) => placeAt 0 9 1 1 + placeAt 0 10 1 d + placeAt 0x1C 16 12 k
          | none => 0
    ((s.cmrnTx t.conn (if t.req then 1 else 3) (rest + more) bs).bump pgXpt F.xpt.TX_PAYLOAD_COUNT n, none)

/-- A READ_REQ (R358). -/
def State.txReadReq (s : State) (t : Track) (retx : Bool) : State :=
  s.cmrnTx t.conn 2 (placeAt 0 11 1 retx.toNat + placeAt 0x10 0 32 t.msg + placeAt 0x14 0 22 t.len + placeAt 0x20 0 16 t.win
    + placeAt 0x20 16 16 t.winGen + placeAt 0x24 0 40 t.winOff + placeAt 0x28 16 16 (s.cof t.conn CX.txOldest)) []

/-- Payload bytes of a message sent and not acknowledged. -/
def State.flying (s : State) (t : Track) : Nat :=
  if !t.send then 0 else (((List.range t.next).filter fun i => !bitAt t.acked i).map fun i => s.plen t i).foldl (· + ·) 0

/-! ### Work queues (R354 to R359) -/

/-- A queue register of queue `q` (R371). -/
def qf (q : Nat) (f : Fld) : Fld := { f with off := f.off + 0x10000000 + 0x100 * q }
def State.qget (s : State) (q : Nat) (f : Fld) : Nat := s.fget pgXpt (qf q f)
def State.qput (s : State) (q : Nat) (f : Fld) (v : Nat) : State := s.fput pgXpt (qf q f) v

/-- The tenant slot a queue acts for. -/
def State.qTenant (s : State) (q : Nat) : Nat := if q < 4094 then s.qget q F.xpt.Q_CTRL_TENANT else s.agate.tenant
def State.qAgent (s : State) (q : Nat) : Agent := .tenant (Fin.ofNat 16 (s.qTenant q))

/-- A driver queue's completion ring has room. -/
def State.xcqRoom (s : State) (q : Nat) : Bool :=
  let n := 2 ^ s.qget q F.xpt.Q_CTRL_CQ_LOG2
  4094 ≤ q || (s.qget q F.xpt.Q_STAT_CQ_HEAD + 1) % n != s.qget q F.xpt.Q_CQ_TAIL_TAIL % n

/-- A completion record written, COMP advanced (R354, R359); beat queues have no ring. -/
def State.xptWrite (s : State) (r : XRecord) : State :=
  let q := r.queue
  let s := s.qput q F.xpt.Q_COMP_COMP (s.qget q F.xpt.Q_COMP_COMP + 1)
  if 4094 ≤ q then s else
  let n := 2 ^ s.qget q F.xpt.Q_CTRL_CQ_LOG2
  let h := s.qget q F.xpt.Q_STAT_CQ_HEAD % n
  let seq := Store.get 0 s.xpt.seqs q
  let v := placeAt 0 0 32 r.opId + placeAt 4 0 8 r.status + placeAt 4 8 8 r.opcode + placeAt 4 16 12 q + placeAt 8 0 32 r.bytes + placeAt 0xC 0 32 seq
  let s := (s.devWrite (s.qAgent q) (s.qget q F.xpt.Q_CQ_BASE_ADDR + 16 * h) (leBytes 16 v)).1
  { s.qput q F.xpt.Q_STAT_CQ_HEAD ((h + 1) % n) with xpt.seqs := Store.set 0 s.xpt.seqs q ((seq + 1) % 2 ^ 32) }

/-- Records of a queue that waited for room written while there is some (log 23). -/
def State.xptDrain (q : Nat) : Nat → State → State
  | 0, s => s
  | n + 1, s =>
    match s.xpt.records.find? (·.queue == q) with
    | none => s
    | some r =>
      if !s.xcqRoom q then s
      else State.xptDrain q n ({ s with xpt.records := s.xpt.records.erase r }.xptWrite r)

/-- An entry's record. -/
def State.xptRecord (s : State) (r : XRecord) : State :=
  State.xptDrain r.queue 64 { s with xpt.records := s.xpt.records ++ [r] }

/-- An entry completed (R356, R359): its record, and from a beat queue its tally and what the run learns. -/
def State.entryDone (s : State) (q desc st bytes : Nat) : State :=
  let s := s.xptRecord ⟨q, descOpId desc, st, descOpcode desc, bytes⟩
  if q < 4094 then s else (if st = stDone then s.dieTally (q - 4094) desc 6 else s).noteRun st

/-- STARTED of a queue shown. -/
def State.showQueue (s : State) (q : Nat) : State :=
  s.qput q F.xpt.Q_STAT_STARTED (s.xpt.entries.filter (·.queue == q)).length

namespace XD
def fence (x : Nat) : Bool := fieldAt x 0 16 1 == 1
def bump (x : Nat) : Bool := fieldAt x 0 17 1 == 1
def bumpDie (x : Nat) : Nat := fieldAt x 0 18 1
def chain (x : Nat) : Bool := fieldAt x 0 19 1 == 1
def conn (x : Nat) : Nat := fieldAt x 8 0 20
def len (x : Nat) : Nat := fieldAt x 0xC 0 32
def addr (x : Nat) : Nat := fieldAt x 0x10 0 52
def win (x : Nat) : Nat := fieldAt x 0x18 0 16
def winGen (x : Nat) : Nat := fieldAt x 0x18 16 16
def remote (x : Nat) : Nat := fieldAt x 0x1C 0 40
def rtally (x : Nat) : Nat := fieldAt x 0x20 16 12
def waitQ (x : Nat) : Nat := fieldAt x 0x24 0 12
def waitCount (x : Nat) : Nat := fieldAt x 0x28 0 32
end XD

/-- Fields of an entry with opcode `op` of a queue (R355, R356); an opcode that does not exist uses every field (log 86). -/
def entryFields (q op : Nat) : List (Nat × Nat × Nat) :=
  let any := op = 0 ∨ 3 < op
  [(0, 0, 4), (0, 8, 9), (0, 19, 1), (4, 0, 32), (0x24, 0, 12), (0x28, 0, 32), (0x3C, 0, 10)]
  ++ (if 4094 ≤ q then [(0x3C, 16, 13)] else [])
  ++ (if any ∨ op = 2 ∨ op = 3 then [(0, 17, 1), (8, 0, 20), (0xC, 0, 32), (0x10, 0, 52), (0x18, 0, 32), (0x1C, 0, 40)] else [])
  ++ (if any ∨ op = 2 then [(0, 18, 1), (0x20, 16, 12)] else [])

/-- The first failing check of an entry after its CHECK (R356). -/
def State.entryCheck (s : State) (q x : Nat) : Option Nat :=
  let op := descOpcode x
  let data := op == 2 || op == 3
  let r := if data then s.rangeCheck (s.qAgent q) (op == 3) (XD.addr x) (XD.len x) else none
  let c := XD.conn x
  firstFailure [
    (!s.versionOk pgXpt (fieldAt x 0 0 4), stVersion),
    (reservedSet 64 x (entryFields q op), stReservedSet),
    (op == 0 || 3 < op || (op == 3 && XD.bump x), stFormat),
    (r == some stLenRange, stLenRange),
    (r == some stAddrRange || (data && (XD.addr x % 64 != 0 || XD.remote x % 64 != 0)), stAddrRange),
    (!s.enabled pgXpt || r.isSome || s.tenantGone (s.qTenant q)
      || (data && (s.cof c CX.state != 4 || s.cof c CX.tenant != s.qTenant q))
      || (op == 2 && s.trainState (XD.addr x) && s.cof c CX.twin == 1)
      || (XD.chain x && s.qTenant (XD.waitQ x) != s.qTenant q), stAccess)]

/-- The next entry of a queue, as stored: none where the queue is empty or its head is held; the status where it cannot be read. -/
def State.headEntry (s : State) (q : Nat) : State × Option (Except Nat Nat) :=
  if 4094 ≤ q then
    match Store.get [] s.xpt.beat (q - 4094) with
    | o :: _ => (s, if o.held then none else some (.ok o.desc))
    | [] => (s, none)
  else
    let n := 2 ^ s.qget q F.xpt.Q_CTRL_WQ_LOG2
    let h := s.qget q F.xpt.Q_STAT_HEAD % n
    if s.qget q F.xpt.Q_CTRL_ENABLE = 0 ∨ h = Store.get 0 s.xpt.tails q % n then (s, none) else
    match s.devRead (s.qAgent q) (s.qget q F.xpt.Q_WQ_BASE_ADDR + 64 * h) 64 with
    | (s, .error st) => (s, some (.error st))
    | (s, .ok bs) => (s, some (.ok (leNat bs)))

/-- The next entry taken off its queue. -/
def State.popEntry (s : State) (q : Nat) : State :=
  if 4094 ≤ q then { s with xpt.beat := Store.set [] s.xpt.beat (q - 4094) ((Store.get [] s.xpt.beat (q - 4094)).drop 1) } else
  let n := 2 ^ s.qget q F.xpt.Q_CTRL_WQ_LOG2
  s.qput q F.xpt.Q_STAT_HEAD ((s.qget q F.xpt.Q_STAT_HEAD + 1) % n)

/-- A refused entry: it completes with its status and raises REFUSED (R356, R371). -/
def State.refuseEntry (s : State) (q x st : Nat) : State := ((s.popEntry q).event pgXpt 10 st).entryDone q x st 0

/-- An entry at the XPT from a beat: it queues in its die's beat queue (R354). -/
def State.xptArrive (s : State) (d desc : Nat) (held : Bool) : State :=
  { s with xpt.beat := Store.set [] s.xpt.beat d (Store.get [] s.xpt.beat d ++ [⟨d, desc, held⟩]) }

/-- The head entry started, refused or kept waiting (R354, R356, R357). -/
def State.startEntry (s : State) (q : Nat) : State :=
  if 64 ≤ (s.xpt.entries.filter (·.queue == q)).length ∨ !s.xcqRoom q then s else
  match s.headEntry q with
  | (s, none) => s
  | (s, some (.error st)) => s.refuseEntry q 0 st
  | (s, some (.ok raw)) => match checkStruct 64 raw with
    | .failed => s.refuseEntry q raw stCheckFailed
    | .clean x | .corrected x =>
      let data := descOpcode x == 2 || descOpcode x == 3
      if data && (s.ctxOf (XD.conn x)).isNone then s.want (XD.conn x) else
      match s.entryCheck q x with
      | some st => s.refuseEntry q x st
      | none =>
        let met := (s.qget (XD.waitQ x) F.xpt.Q_COMP_COMP + 2 ^ 32 - XD.waitCount x) % 2 ^ 32 < 2 ^ 31
        if XD.chain x && !met then s.qput q F.xpt.Q_STAT_WAITING 1 else
        let s := s.qput q F.xpt.Q_STAT_WAITING 0
        if XD.fence x && (s.xpt.entries.any (·.queue == q) || s.xpt.records.any (·.queue == q)) then s else
        let e : XEntry := ⟨q, x, s.xpt.serial, s.qTenant q, 0, 0, 0, 0, false⟩
        let s := { s with xpt.entries := s.xpt.entries ++ [e], xpt.serial := s.xpt.serial + 1 }
        (s.popEntry q).showQueue q

/-- Messages of an entry (R358). -/
def State.msgSize (s : State) (conn : Nat) : Nat := 256 * s.pay conn
def State.msgs (s : State) (x : Nat) : Nat :=
  if XD.len x = 0 then 1 else (XD.len x + s.msgSize (XD.conn x) - 1) / max 1 (s.msgSize (XD.conn x))

def State.putEntry (s : State) (e : XEntry) : State :=
  { s with xpt.entries := s.xpt.entries.map fun y => if y.serial = e.serial then e else y }
def State.dropEntry (s : State) (e : XEntry) : State :=
  { s with xpt.entries := s.xpt.entries.filter (·.serial ≠ e.serial) }.showQueue e.queue

/-! ### Sending (R358, R362, R366) -/

/-- TX_DONE marked for a message and the window moved past the finished ones. -/
def finishMsg : Nat → Nat → Nat → Nat × Nat
  | 0, old, map => (old, map)
  | n + 1, old, map => if map % 2 = 1 then finishMsg n ((old + 1) % 2 ^ 32) (map / 2) else (old, map)

/-- A message ended at the requester with a status (R359); a CLOSING context with nothing outstanding sends its CLOSE (R346). -/
def State.endMsg (s : State) (t : Track) (st : Nat) : State :=
  let s1 := s.dropTrack t
  let fly := s.flying t
  let s2 : State := match s1.ctxOf t.conn with
    | none => s1
    | some c =>
      let k := (t.msg + 2 ^ 32 - cget c CX.txOldest) % 2 ^ 32
      let (old, map) := finishMsg 32 (cget c CX.txOldest) (cget c CX.txDone ||| (if k < 32 then 2 ^ k else 0))
      let c := cput (cput c CX.txOldest old) CX.txDone map
      let c := cput (cput c CX.inFlight (cget c CX.inFlight - fly)) CX.outstanding (cget c CX.outstanding - 1)
      s1.putCtx t.conn c
  let s3 : State := match s2.xpt.entries.find? (·.serial == t.entry) with
    | none => s2
    | some e => s2.putEntry (if st = stDone then { e with ended := e.ended + 1, bytes := e.bytes + t.len }
        else { e with status := if e.status = 0 then st else e.status })
  if s3.cof t.conn CX.state = 5 ∧ s3.cof t.conn CX.outstanding = 0 ∧ (Store.get none s3.xpt.sent t.conn).isNone then
    { s3.txClose t.conn stDone with xpt.sent := Store.set none s3.xpt.sent t.conn (some 0) }
  else s3

/-- A NACK in the violation ring (R353). -/
def State.violation (s : State) (conn h st : Nat) : State :=
  let i := s.fget pgWin F.win.VIOL_HEAD_HEAD
  let s := s.fput pgWin (F.win.VIOL_TIME i) s.time.toNat
  let s := (s.fput pgWin (F.win.VIOL_CONN_CONN i) conn).fput pgWin (F.win.VIOL_INC_INC i) (s.cof conn CX.incarnation)
  let s := (s.fput pgWin (F.win.VIOL_WINDOW_WINDOW i) (PH.win h)).fput pgWin (F.win.VIOL_GEN_GEN i) (PH.winGen h)
  let s := (s.fput pgWin (F.win.VIOL_OFFSET_OFFSET i) (PH.winOff h + PH.off h)).fput pgWin (F.win.VIOL_STATUS_STATUS i) st
  let s := (s.fput pgWin (F.win.VIOL_TYPE_TYPE i) (PH.type h)).fput pgWin (F.win.VIOL_MSG_ID_MSG_ID i) (PH.msg h)
  ((s.fput pgWin F.win.VIOL_HEAD_HEAD ((i + 1) % 16)).bump pgWin F.win.VIOLATIONS_COUNT 1).event pgWin 8 st

/-- A NACK sent. -/
def State.txNack (s : State) (conn msg st : Nat) : State :=
  (s.cmrnTx conn 5 (placeAt 0x10 0 32 msg + placeAt 0x28 8 8 st) []).bump pgXpt F.xpt.NACK_SENT_COUNT 1

/-- A message refused by the responder: NACK, RX_DONE and RX_FAIL, its tracker freed (R353, R360). -/
def State.refuseMsg (s : State) (conn h st : Nat) : State :=
  let s := { s with xpt.tracks := s.xpt.tracks.filter fun t => !(t.conn == conn && t.msg == PH.msg h && !t.req) }
  let s := match s.ctxOf conn with
    | none => s
    | some c =>
      let k := (PH.msg h + 2 ^ 32 - cget c CX.rxBase) % 2 ^ 32
      let bit := if k < 32 then 2 ^ k else 0
      let c := cput (cput c CX.rxDone (cget c CX.rxDone ||| bit)) CX.rxFail (cget c CX.rxFail ||| bit)
      s.putCtx conn (cput (cput c CX.failMsg (PH.msg h)) CX.failStatus st)
  (s.txNack conn (PH.msg h) st).violation conn h st

/-- The header of a READ's message as the responder's tracker remembers it, for a NACK later than its request. -/
def trackHdr (t : Track) : Nat :=
  placeAt 0 4 4 2 + placeAt 0x10 0 32 t.msg + placeAt 0x14 0 22 t.len + placeAt 0x20 0 16 t.win + placeAt 0x20 16 16 t.winGen + placeAt 0x24 0 40 t.winOff

/-- The bytes of a message could not be read: its end at the requester, a NACK at the responder. -/
def State.sourceFailed (s : State) (t : Track) (st : Nat) : State :=
  if t.req then s.endMsg t st else s.refuseMsg t.conn (trackHdr t) st

/-- A message of an entry may start (R346, R358, R366). -/
def State.mayStartMsg (s : State) (e : XEntry) : Bool :=
  let x := e.desc
  let c := XD.conn x
  let n := s.msgs x
  e.run && descOpcode x != 1 && e.started < n && e.status == 0
    && (s.cof c CX.state == 4 || (s.cof c CX.state == 5 && (Store.get none s.xpt.sent c).isNone))
    && (s.cof c CX.txNext + 2 ^ 32 - s.cof c CX.txOldest) % 2 ^ 32 < 32
    && (descOpcode x == 3 || XD.len x == 0 || s.cof c CX.inFlight < s.cof c CX.cwnd)
    && (s.xpt.tracks.filter (·.req)).length < 16384
    && !(XD.bump x && 1 < n && e.started + 1 == n && e.ended != e.started)

/-- The next message of an entry started. -/
def State.startMsg (s : State) (e : XEntry) : State :=
  let x := e.desc
  let c := XD.conn x
  let m := s.msgSize c
  let msg := s.cof c CX.txNext
  let t : Track := {
    conn := c, msg := msg, req := true, send := descOpcode x == 2, len := min m (XD.len x - e.started * m),
    addr := XD.addr x + e.started * m, win := XD.win x, winGen := XD.winGen x, winOff := XD.remote x + e.started * m,
    bump := if XD.bump x && e.started + 1 == s.msgs x then some (XD.bumpDie x, XD.rtally x) else none, entry := e.serial }
  let s := (s.cset c CX.txNext (msg + 1)).cset c CX.outstanding (s.cof c CX.outstanding + 1)
  let s := { s.putEntry { e with started := e.started + 1 } with xpt.tracks := s.xpt.tracks ++ [t] }
  if descOpcode x = 3 then s.txReadReq t false else s

/-- A tracker whose next packet the congestion window permits. -/
def State.maySend (s : State) (t : Track) : Bool :=
  t.send && t.next < s.pkts t && s.cof t.conn CX.inFlight + s.plen t t.next ≤ s.cof t.conn CX.cwnd

/-- The next packet of a tracker sent. -/
def State.sendNext (s : State) (t : Track) : State :=
  match s.txData t t.next false with
  | (s, some st) => s.sourceFailed t st
  | (s, none) => (s.putTrack { t with next := t.next + 1 }).cset t.conn CX.inFlight (s.cof t.conn CX.inFlight + s.plen t t.next)

/-- A connection sends what it may: packets of started messages, then the next message (R358, R366). -/
def State.pump (conn : Nat) : Nat → State → State
  | 0, s => s
  | n + 1, s =>
    match s.xpt.tracks.find? fun t => t.conn == conn && s.maySend t with
    | some t => State.pump conn n (s.sendNext t)
    | none => match s.xpt.entries.find? fun e => XD.conn e.desc == conn && s.mayStartMsg e with
      | some e => State.pump conn n (s.startMsg e)
      | none => s

/-- Enough steps for 32 messages of 256 packets. -/
def pumpFuel : Nat := 8300

/-- XPT_ENTRY_START (R357): the entry at the head of queue `q`. -/
def execXptEntryStart (q : Fin 4096) (s : State) : Host.Outcome State Fault Refusal :=
  if s.enabled pgXpt then .next (s.startEntry q).xptShow else .next s

/-- The `i`-th started entry, where it is an `op` not yet executed. -/
def State.entryOf (s : State) (i op : Nat) : Option XEntry :=
  match s.xpt.entries[i]? with
  | some e => if descOpcode e.desc = op ∧ !e.run then some e else none
  | none => none

/-- XPT_SIGNAL (R356). -/
def execXptSignal (i : Nat) (s : State) : Host.Outcome State Fault Refusal :=
  match s.entryOf i 1 with
  | none => .next s
  | some e => .next ((s.dropEntry e).entryDone e.queue e.desc stDone 0)

/-- A WRITE or READ begun: done at once where it moves nothing (R53, R356), else cut into messages. -/
def State.runEntry (s : State) (e : XEntry) : State :=
  if e.status = 0 ∧ XD.len e.desc = 0 ∧ !XD.bump e.desc then (s.dropEntry e).entryDone e.queue e.desc stDone 0
  else (State.pump (XD.conn e.desc) pumpFuel (s.putEntry { e with run := true })).xptShow

/-- XPT_WRITE (R358). -/
def execXptWrite (i : Nat) (s : State) : Host.Outcome State Fault Refusal :=
  match s.entryOf i 2 with
  | none => .next s
  | some e => .next (s.runEntry e)

/-- XPT_READ (R358). -/
def execXptRead (i : Nat) (s : State) : Host.Outcome State Fault Refusal :=
  match s.entryOf i 3 with
  | none => .next s
  | some e => .next (s.runEntry e)

/-- XPT_ENTRY_COMPLETE (R359): every message of the `i`-th started entry has ended. A failed READ leaves its destination unspecified. -/
def execXptEntryComplete (i : Nat) (s : State) : Host.Outcome State Fault Refusal :=
  match s.xpt.entries[i]? with
  | none => .next s
  | some e =>
    if s.xpt.tracks.any (fun t => t.req && t.entry == e.serial) || (e.status == 0 && (!e.run || e.ended < s.msgs e.desc)) then .next s else
    let s := s.dropEntry e
    let s := if e.status ≠ 0 ∧ descOpcode e.desc = 3 ∧ XD.len e.desc ≠ 0 then
        let (bs, s) := s.junk (XD.len e.desc)
        (s.devWrite (.tenant (Fin.ofNat 16 e.tenant)) (XD.addr e.desc) bs).1
      else s
    .next (s.entryDone e.queue e.desc e.status e.bytes).xptShow

/-- WQ_DOORBELL (R354): a queue's new tail. -/
def execWqDoorbell (r : Requester) (q tail : BitVec 12) (s : State) : Host.Outcome State Fault Refusal :=
  .next (s.hubAdmit r pgXpt 0x044 fun s =>
    if 4094 ≤ q.toNat then s else { s with xpt.tails := Store.set 0 s.xpt.tails q.toNat tail.toNat })

/-- Waiting and queued entries of a queue ended with ABORTED (R354). -/
def State.abortQueue (q : Nat) : Nat → State → State
  | 0, s => s
  | n + 1, s =>
    match s.headEntry q with
    | (s, none) => s
    | (s, some e) =>
      let x := match e with | .ok x => x | .error _ => 0
      State.abortQueue q n (((s.popEntry q).qput q F.xpt.Q_STAT_WAITING 0).entryDone q x stAborted 0)

/-- Q_ABORT (R354): Q_CTRL.ABORT on the queue the requester has selected. -/
def execQAbort (r : Requester) (s : State) : Host.Outcome State Fault Refusal :=
  .next (s.hubAdmit r pgXpt 0x04C fun s => State.abortQueue (Store.get 0 s.hub.qsel r.key) 4096 s)

/-! ### The end of connections (R346, R369) -/

/-- Every operation of a connection ended with a status; its trackers freed. -/
def State.endConn (s : State) (conn st : Nat) : State :=
  let mine : List Track := s.xpt.tracks.filter fun t => t.conn == conn && t.req
  let s := { s with xpt.tracks := s.xpt.tracks.filter fun t => !(t.conn == conn && !t.req) }
  let s := mine.foldl (fun s t => s.endMsg t st) s
  let stop (e : XEntry) : XEntry :=
    if XD.conn e.desc = conn ∧ descOpcode e.desc ≠ 1 ∧ e.status = 0 ∧ e.ended < s.msgs e.desc then { e with status := st, run := true } else e
  { s with xpt.entries := s.xpt.entries.map stop, xpt.sent := Store.set none s.xpt.sent conn none }

/-- A connection in ERROR (R346): CONN_ERROR. -/
def State.connError (s : State) (conn st : Nat) : State :=
  (((s.cset conn CX.state 7).endConn conn st).bump pgXpt F.xpt.TIMEOUTS_COUNT (if st = stTimeout then 1 else 0)).event pgXpt 9 st

/-- Profile parameters of a connection (R373). -/
def State.prof (s : State) (conn : Nat) (f : Nat → Fld) : Nat := s.fget pgCong (f (s.cof conn CX.profile))

/-! ### Context commands (R346, R347, R372) -/

/-- The result of a context command. -/
def State.ctxDone (s : State) (st : Nat) : State := (s.fput pgCtx F.ctx.CTX_RESULT_STATUS st).xptShow

/-- CREATE, LISTEN and CONNECT are refused for what a context names (R347). -/
def State.ctxBarred (s : State) (c : Nat) : Bool :=
  let p := cget c CX.peer
  let twin := s.fon (pgComm 1) (F.comm.PR_CFG_TWIN p)
  !s.fon (pgComm 1) (F.comm.PR_CFG_VALID p) || (cget c CX.twin == 1) != twin || !s.tenantActive (cget c CX.tenant)
    || (!twin && (List.range 8).any fun i => let x := bitsOf (cget c CX.paths) (4 * i) 4; 8 ≤ x && bitAt (s.record 2) (x % 8))

/-- No VALID path, or PAYLOAD64 out of range (R347). -/
def ctxMalformed (c : Nat) : Bool :=
  !((List.range 8).any fun i => bitAt (cget c CX.paths) (4 * i + 3)) || cget c CX.payload64 < 16 || 128 < cget c CX.payload64

/-- Onyx installs KEY and SALT at CREATE: the slot holds keys and no other live context of it the KEY_ID (R407). -/
def State.mayInstall (s : State) (conn c : Nat) : Bool :=
  let t := cget c CX.tenant
  (Store.get none s.onyx.keys t).isSome && !s.xpt.live.any fun e => e.1 != conn && e.2 == some (cget c CX.keyId, t)

/-- A context with its KEY and SALT (R406, R407). -/
def State.installKey (s : State) (c : Nat) : Nat :=
  match Store.get none s.onyx.keys (cget c CX.tenant) with
  | none => c
  | some k =>
    let v := Config.camernKey k.secret k.tag k.gen (cget c CX.keyId)
    cput (cput c CX.key v) CX.salt (v / 2 ^ 256)

/-- A context as CREATE leaves it, put on chip (R345, R407). -/
def State.newCtx (s : State) (conn c : Nat) : State :=
  let ok := s.mayInstall conn c
  let s := s.putCtx conn (if ok then s.installKey c else c)
  { s with
    xpt.live := Store.set none s.xpt.live conn (some (cget c CX.keyId, cget c CX.tenant))
    xpt.keyed := s.xpt.keyed.filter (· ≠ conn) ++ (if ok then [conn] else []) }

/-- CREATE (R345 to R347, R407); with the DRBG stopped it ends with ABORTED (R393). -/
def State.ctxCreate (s : State) (conn old : Nat) : State :=
  match s.devRead .firmware (s.fget pgCtx F.ctx.CTX_SRC_ADDR) 256 with
  | (s, .error st) => s.ctxDone st
  | (s, .ok bs) => match checkStruct 64 (leNat (bs.take 64)) with
    | .failed => s.ctxDone stCheckFailed
    | .clean q | .corrected q =>
      match firstFailure [
        (!s.versionOk pgXpt (fieldAt q 0 0 4), stVersion),
        (reservedSet 64 q CX.quarter0, stReservedSet),
        (ctxMalformed q || 5 < cget q CX.cls, stFormat),
        (cget old CX.state != 0 || s.ctxBarred q || !s.enabled pgXpt, stAccess)] with
      | some st => s.ctxDone st
      | none => if s.onyx.drbgStopped then s.ctxDone stAborted else
        let (psn, s) := s.draw
        let c := cput (cput q CX.state 1) CX.incarnation (cget old CX.incarnation + 1)
        let c := cput (cput c CX.keyGen (s.selGen (cget q CX.tenant))) CX.txPsn (psn % 2 ^ 62)
        let c := cput c CX.cwnd (1024 * s.fget pgCong (F.cong.CC_CWND_INIT_CWND_INIT (cget q CX.profile)))
        (s.newCtx conn c).ctxDone stDone

/-- A context command from a control core: the context is brought on chip first. -/
def State.ctxCmd (s : State) (r : Requester) (conn : Nat) (act : State → Nat → State) : State :=
  s.hubAdmit r pgCtx 0x048 fun s =>
    match s.ensureCtx conn with
    | (s, .error st) => s.ctxDone st
    | (s, .ok c) => act s c

/-- CTX_CREATE (R346). -/
def execCtxCreate (r : Requester) (conn : BitVec 20) (s : State) : Host.Outcome State Fault Refusal :=
  .next (s.ctxCmd r conn.toNat fun s c => s.ctxCreate conn.toNat c)

/-- LISTEN (R346, R347). -/
def execListen (r : Requester) (conn : BitVec 20) (s : State) : Host.Outcome State Fault Refusal :=
  .next (s.ctxCmd r conn.toNat fun s c =>
    if ctxMalformed c then s.ctxDone stFormat
    else if cget c CX.state ≠ 1 || s.ctxBarred c || !s.xpt.keyed.contains conn.toNat || !s.enabled pgXpt then s.ctxDone stAccess
    else (s.cset conn.toNat CX.state 2).ctxDone stDone)

/-- CONNECT (R346, R347). -/
def execConnect (r : Requester) (conn : BitVec 20) (s : State) : Host.Outcome State Fault Refusal :=
  .next (s.ctxCmd r conn.toNat fun s c =>
    if ctxMalformed c then s.ctxDone stFormat
    else if cget c CX.state ≠ 1 || s.ctxBarred c || !s.xpt.keyed.contains conn.toNat || !s.enabled pgXpt then s.ctxDone stAccess
    else
      let s := (s.cset conn.toNat CX.state 3).cset conn.toNat CX.initiator 1
      let s := s.txConnect conn.toNat 6
      { s with xpt.sent := Store.set none s.xpt.sent conn.toNat (some 0) }.ctxDone stDone)

/-- CTX_CLOSE (R346): an OPEN context is CLOSING; its CLOSE goes out once nothing is outstanding. -/
def execCtxClose (r : Requester) (conn : BitVec 20) (s : State) : Host.Outcome State Fault Refusal :=
  .next (s.ctxCmd r conn.toNat fun s c =>
    let k := conn.toNat
    if cget c CX.state ≠ 4 then s.ctxDone stAccess else
    let s := s.cset k CX.state 5
    let busy := s.xpt.entries.any fun e => XD.conn e.desc == k && descOpcode e.desc != 1 && e.status == 0 && e.ended < s.msgs e.desc
    if cget c CX.outstanding = 0 ∧ !busy then
      { s.txClose k stDone with xpt.sent := Store.set none s.xpt.sent k (some 0) }.ctxDone stDone
    else s.ctxDone stDone)

/-- A context cleared; its incarnation stays (log 35). -/
def State.clearCtx (s : State) (conn c : Nat) : State :=
  let s := s.putCtx conn (cput (cput 0 (0, 0, 4) 1) CX.incarnation (cget c CX.incarnation))
  { s with xpt.live := Store.set none s.xpt.live conn none, xpt.keyed := s.xpt.keyed.filter (· ≠ conn) }

/-- CTX_FREE (R346). -/
def execCtxFree (r : Requester) (conn : BitVec 20) (s : State) : Host.Outcome State Fault Refusal :=
  .next (s.ctxCmd r conn.toNat fun s c =>
    if [1, 2, 6, 7].contains (cget c CX.state) then (s.clearCtx conn.toNat c).ctxDone stDone else s.ctxDone stAccess)

/-- CTX_READ (R372): the image to CTX_SRC, the key as zero. -/
def execCtxRead (r : Requester) (conn : BitVec 20) (s : State) : Host.Outcome State Fault Refusal :=
  .next (s.ctxCmd r conn.toNat fun s c =>
    match s.devWrite .firmware (s.fget pgCtx F.ctx.CTX_SRC_ADDR) (leBytes 256 (sealCtx (cput c CX.key 0))) with
    | (s, .error st) => s.ctxDone st
    | (s, .ok _) => s.ctxDone stDone)

/-! ### Receiving (R348, R360 to R363) -/

/-- A PSN is too old or already marked (R348). -/
def replayed (c psn : Nat) : Bool :=
  let hi := cget c CX.rxHigh
  psn ≤ hi && (psn + 256 ≤ hi || bitAt (cget c CX.replay) (hi - psn))

/-- A PSN marked: bit `k` of REPLAY stands for RX_PSN_HIGH − `k`. -/
def markPsn (c psn : Nat) : Nat :=
  let hi := cget c CX.rxHigh
  if hi < psn then cput (cput c CX.replay ((if psn - hi < 256 then cget c CX.replay * 2 ^ (psn - hi) else 0) + 1)) CX.rxHigh psn
  else cput c CX.replay (cget c CX.replay ||| 2 ^ (hi - psn))

/-- RX_MSG_BASE moved to FLOOR where FLOOR is greater; the trackers below it freed (R360). -/
def State.moveBase (s : State) (conn h : Nat) : State :=
  match s.ctxOf conn with
  | none => s
  | some c =>
    let base := cget c CX.rxBase
    let k := (PH.floor h + 2 ^ 16 - base % 2 ^ 16) % 2 ^ 16
    if k = 0 ∨ 2 ^ 15 ≤ k then s else
    let new := (base + k) % 2 ^ 32
    let c := cput (cput (cput c CX.rxBase new) CX.rxDone (cget c CX.rxDone / 2 ^ k)) CX.rxFail (cget c CX.rxFail / 2 ^ k)
    let s := s.putCtx conn c
    { s with xpt.tracks := s.xpt.tracks.filter fun t => !(t.conn == conn && !t.req && seqBefore t.msg new) }

/-- The first failing check of a message's window (R360 step 5). -/
def State.winCheck (s : State) (conn h : Nat) : Option Nat :=
  let w := Store.get 0 s.xpt.wins (PH.win h)
  let len := fieldAt w 0x10 0 40
  let right := if PH.type h = 2 then fieldAt w 0 5 1 else fieldAt w 0 6 1
  let bumpOk := !PH.bump h || (fieldAt w 0 7 1 == 1 && match Store.get none s.agate.remote (PH.bumpDie h) with
    | some (lo, hi) => lo ≤ PH.tally h && PH.tally h ≤ hi
    | none => false)
  let allowed := fieldAt w 0 8 4 == s.cof conn CX.tenant
    && (fieldAt w 0 12 1 == 1 || (fieldAt w 4 0 20 == conn && fieldAt w 4 20 8 == s.cof conn CX.incarnation))
  firstFailure [
    (fieldAt w 0 16 16 != PH.winGen h || fieldAt w 0 4 1 == 0, stWindowRevoked),
    (len < PH.winOff h + PH.len h, stLenRange),
    (len ≤ PH.winOff h, stAddrRange),
    (!allowed || right == 0 || !bumpOk, stAccess)]

/-- The refusal of a bump outside the die's range reaches Agate (R193). -/
def State.noteBump (s : State) (h : Nat) : State :=
  let outside := match Store.get none s.agate.remote (PH.bumpDie h) with
    | some (lo, hi) => PH.tally h < lo || hi < PH.tally h
    | none => true
  if PH.bump h && outside then (s.bump (pgAgt (PH.bumpDie h)) (F.com.EVT_CNT 0) 1).event (pgAgt (PH.bumpDie h)) 13 stAccess else s

/-- A WRITE packet or READ_REQ has the wrong shape (R360 step 4). -/
def State.misshapen (s : State) (conn h : Nat) (t : Option Track) : Bool :=
  let p := s.pay conn
  s.msgSize conn < PH.len h || (match t with | some t => t.len != PH.len h | none => false)
    || (PH.type h == 1 && (p == 0 || PH.off h % p != 0 || (PH.len h ≤ PH.off h && PH.len h != 0)
        || PH.plen h != min p (PH.len h - PH.off h) || PH.last h != (PH.off h + PH.plen h == PH.len h)))

/-- A new packet of a message counted; every 32nd is acknowledged (R361, R362). -/
def State.gotPacket (s : State) (t : Track) (i n ts : Nat) : State :=
  let newer := t.owed = 0 ∨ (ts + 2 ^ 32 - t.ts) % 2 ^ 32 < 2 ^ 31
  let t := { t with got := t.got ||| 2 ^ i, count := t.count + n, owed := t.owed + 1, ts := if newer then ts else t.ts,
                    at_ := if newer then s.time.toNat else t.at_ }
  let s := s.bump pgXpt F.xpt.RX_PAYLOAD_COUNT n
  if t.owed = 32 then (s.txAck t false).putTrack { t with owed := 0 } else s.putTrack t

/-- An admitted WRITE packet placed (R360 step 6, R361). -/
def State.placePacket (s : State) (t : Track) (h : Nat) (data : List Byte) : State :=
  let i := PH.off h / max 1 (s.pay t.conn)
  if bitAt t.got i then s.bump pgXpt F.xpt.RX_DUP_COUNT 1 else
  let put := if data.isEmpty then (s, Except.ok ()) else s.devWrite (s.connAgent t.conn) (t.addr + PH.off h) data
  match put with
  | (s, .error st) => s.refuseMsg t.conn h st
  | (s, .ok _) => s.gotPacket t i data.length (PH.ts h)

/-- A WRITE packet or READ_REQ at the responder (R360). -/
def State.respond (s : State) (conn h : Nat) (data : List Byte) : State :=
  let s := s.moveBase conn h
  let k := (PH.msg h + 2 ^ 32 - s.cof conn CX.rxBase) % 2 ^ 32
  if 2 ^ 31 ≤ k then s.bump pgXpt F.xpt.RX_DUP_COUNT 1
  else if 32 ≤ k then s.bump pgXpt F.xpt.RX_FORMAT_COUNT 1
  else if bitAt (s.cof conn CX.rxFail) k then
    s.txNack conn (PH.msg h) (if PH.msg h = s.cof conn CX.failMsg then s.cof conn CX.failStatus else 0x81)
  else if bitAt (s.cof conn CX.rxDone) k then
    s.txAck { conn := conn, msg := PH.msg h, req := false, send := false, len := 0, addr := 0, ts := PH.ts h, at_ := s.time.toNat } true
  else
    let old := s.track conn (PH.msg h) false
    if old.isSome ∧ PH.type h = 2 then s.bump pgXpt F.xpt.RX_DUP_COUNT 1
    else if old.isNone ∧ 16384 ≤ (s.xpt.tracks.filter (!·.req)).length then s.bump pgXpt F.xpt.RX_NO_TRACKER_COUNT 1
    else if s.misshapen conn h old then s.refuseMsg conn h stFormat
    else match s.winCheck conn h with
      | some st => (s.refuseMsg conn h st).noteBump h
      | none =>
        let base := fieldAt (Store.get 0 s.xpt.wins (PH.win h)) 8 0 52
        let new : Track := {
          conn := conn, msg := PH.msg h, req := false, send := PH.type h == 2, len := PH.len h, addr := base + PH.winOff h,
          win := PH.win h, winGen := PH.winGen h, winOff := PH.winOff h,
          bump := if PH.bump h then some (PH.bumpDie h, PH.tally h) else none }
        match old with
        | some t => s.placePacket t h data
        | none =>
          let s := { s with xpt.tracks := s.xpt.tracks ++ [new] }
          if PH.type h = 2 then State.pump conn pumpFuel s else s.placePacket new h data

/-- A READ_RESP packet at the requester (R363). -/
def State.readResp (s : State) (conn h : Nat) (data : List Byte) : State :=
  match s.track conn (PH.msg h) true with
  | none =>
    if seqBefore (PH.msg h) (s.cof conn CX.txNext) then
      s.txAck { conn := conn, msg := PH.msg h, req := true, send := false, len := 0, addr := 0, ts := PH.ts h, at_ := s.time.toNat } true
    else s.bump pgXpt F.xpt.RX_FORMAT_COUNT 1
  | some t =>
    let p := s.pay conn
    if t.send || p == 0 || PH.len h != t.len || PH.off h % p != 0 || PH.plen h != min p (t.len - PH.off h)
      || PH.last h != (PH.off h + PH.plen h == t.len) then s.bump pgXpt F.xpt.RX_FORMAT_COUNT 1
    else
      let i := PH.off h / p
      if bitAt t.got i then s.bump pgXpt F.xpt.RX_DUP_COUNT 1 else
      match s.devWrite (s.connAgent conn) (t.addr + PH.off h) data with
      | (s, .error st) => s.endMsg t st
      | (s, .ok _) => s.gotPacket t i data.length (PH.ts h)

/-- A round-trip sample counts: no gate of the class closed on a port of the paths since the echoed packet left (R367). -/
def State.sampleValid (s : State) (conn echo arrival : Nat) : Bool :=
  let c := s.cof conn CX.cls
  (List.range 8).all fun i =>
    let x := bitsOf (s.cof conn CX.paths) (4 * i) 4
    let n := x % 8
    x < 8 || (bitAt (s.gatesAt n s.time.toNat).2.1.gates c && match Store.get none (s.port n).closedAt c with
      | some t => (arrival + 2 ^ 32 - echo) % 2 ^ 32 < s.time.toNat - t
      | none => true)

/-- The window after an acknowledgement (R366). -/
def State.onAck (s : State) (conn arrival echo hold bytes : Nat) : State :=
  match s.ctxOf conn with
  | none => s
  | some c =>
    let c := cput c CX.inFlight (cget c CX.inFlight - bytes)
    let w : Nat := cget c CX.cwnd
    let rtt : Nat := (arrival + 2 ^ 33 - echo - hold) % 2 ^ 32
    let lim (w : Nat) : Nat := max (1024 * s.prof conn F.cong.CC_CWND_MIN_CWND_MIN) (min w (1024 * s.prof conn F.cong.CC_CWND_MAX_CWND_MAX))
    if !s.sampleValid conn echo arrival then s.putCtx conn (cput c CX.cwnd (lim w)) else
    let srtt := cget c CX.srtt
    let srtt' : Nat := ((srtt : Int) + ((rtt : Int) - srtt) / (2 ^ s.prof conn F.cong.CC_EWMA_SHIFT_EWMA_SHIFT : Nat)).toNat
    let target := s.prof conn F.cong.CC_TARGET_NS_TARGET_NS
    let now : Nat := s.time.toNat % 2 ^ 32
    let c := cput c CX.srtt srtt'
    if rtt ≤ target then
      s.putCtx conn (cput c CX.cwnd (lim (w + s.prof conn F.cong.CC_AI_BYTES_AI_BYTES * bytes / w)))
    else if srtt' ≤ (now + 2 ^ 32 - cget c CX.lastDec) % 2 ^ 32 then
      let f := min (s.prof conn F.cong.CC_BETA_BETA * (rtt - target) / rtt) (s.prof conn F.cong.CC_MD_MAX_MD_MAX)
      let less : Nat := w - w * f / 1024
      s.putCtx conn (cput (cput c CX.cwnd (lim less)) CX.lastDec now)
    else s.putCtx conn (cput c CX.cwnd (lim w))

/-- One entry of an ACK record applied: the bytes it newly acknowledges (R359, R362, R363). -/
def State.ackEntry (s : State) (conn e : Nat) : State × Nat :=
  let msg := fieldAt e 0 0 32
  let complete := fieldAt e 4 0 1 == 1
  let resp := fieldAt e 4 1 1 == 1
  match s.track conn msg (!resp) with
  | none => (s, 0)
  | some t =>
    if !t.send then (s, 0) else
    let all := 2 ^ t.next - 1
    let now := t.acked ||| (if complete then all else fieldAt e 8 0 256 &&& all)
    let bytes := (((List.range t.next).filter fun i => bitAt now i && !bitAt t.acked i).map fun i => s.plen t i).foldl (· + ·) 0
    let t' := { t with acked := now }
    if !complete then (s.putTrack t', bytes)
    else if t.req then ((s.putTrack t').endMsg t' stDone, bytes)
    else
      let k := (msg + 2 ^ 32 - s.cof conn CX.rxBase) % 2 ^ 32
      ((s.dropTrack t).cset conn CX.rxDone (s.cof conn CX.rxDone ||| (if k < 32 then 2 ^ k else 0)), bytes)

/-- An ACK packet received through port `n` (R366). -/
def State.ackPacket (s : State) (n conn : Nat) (data : List Byte) : State :=
  let v := leNat data
  let arrival := s.stamp n F.eth.TS_LAT_RX_LAT / 256 % 2 ^ 32
  let (s, bytes) := (List.range (min 8 (fieldAt v 8 0 4))).foldl (fun (x : State × Nat) i =>
    let (s, b) := x.1.ackEntry conn (bitsOf v (8 * (0x10 + 40 * i)) 320)
    (s, x.2 + b)) (s, 0)
  State.pump conn pumpFuel (s.onAck conn arrival (fieldAt v 0 0 32) (fieldAt v 4 0 32) bytes)

/-- The version both ends agree on: the highest common bit that the listener's VERSION_SELECT admits (R346). -/
def State.commonVersion (s : State) (mask : Nat) : Option Nat :=
  (List.range 16).reverse.find? fun v => bitAt (mask &&& 0x0002) v && v ≤ s.fget pgXpt F.com.VERSION_SELECT

/-- The peer a connect record names. -/
def setRemote (c r : Nat) : Nat := cput (cput c CX.remoteConn (fieldAt r 0 0 20)) CX.remoteInc (fieldAt r 0 20 8)

/-- A CONNECT at a context (R346). -/
def State.gotConnect (s : State) (conn c : Nat) (data : List Byte) : State :=
  let r := leNat data
  if cget c CX.state = 4 then
    if fieldAt r 0 0 20 = cget c CX.remoteConn ∧ fieldAt r 0 20 8 = cget c CX.remoteInc then s.txConnect conn 7
    else s.bump pgXpt F.xpt.RX_NO_CONN_COUNT 1
  else if cget c CX.state ≠ 2 then s
  else if fieldAt r 8 0 32 ≠ cget c CX.tenantTag then
    ((s.putCtx conn (cput (setRemote c r) CX.negVersion 1)).txClose conn stAccess).connError conn stAccess
  else match s.commonVersion (fieldAt r 4 0 16) with
    | none => ((s.putCtx conn (cput (setRemote c r) CX.negVersion 1)).txClose conn stVersion).connError conn stVersion
    | some v =>
      let c := cput (cput (setRemote c r) CX.negVersion v) CX.payload64 (min (cget c CX.payload64) (fieldAt r 0xC 0 8))
      (s.putCtx conn (cput c CX.state 4)).txConnect conn 7

/-- An ACCEPT at a context (R346). -/
def State.gotAccept (s : State) (conn c h : Nat) (data : List Byte) : State :=
  if cget c CX.state ≠ 3 then s else
  let r := leNat data
  let c := cput (cput (setRemote c r) CX.negVersion (PH.version h)) CX.payload64 (fieldAt r 0xC 0 8)
  { s.putCtx conn (cput c CX.state 4) with xpt.sent := Store.set none s.xpt.sent conn none }

/-- A CLOSE at a context (R346). -/
def State.gotClose (s : State) (conn c h : Nat) : State :=
  match cget c CX.state with
  | 3 => s.connError conn (PH.status h)
  | 4 | 5 => ((s.cset conn CX.state 6).endConn conn (if PH.status h = stDone then stAborted else PH.status h)).txCloseAck conn
  | _ => s

/-- A packet that passed the first five steps (R348). -/
def State.handle (s : State) (n conn h : Nat) (data : List Byte) : State :=
  let c := (s.ctxOf conn).getD 0
  let st := cget c CX.state
  let t := PH.type h
  if st = 1 ∨ st = 6 ∨ st = 7 then
    let s := s.bump pgXpt F.xpt.RX_CLOSED_COUNT 1
    if t = 8 ∧ st ≠ 1 then s.txCloseAck conn else s
  else if t = 6 then s.gotConnect conn c data
  else if t = 7 then s.gotAccept conn c h data
  else if t = 8 then s.gotClose conn c h
  else if t = 9 then if st = 5 then (s.cset conn CX.state 6).endConn conn stAborted else s
  else if st ≠ 4 ∧ st ≠ 5 then s
  else if t = 1 ∨ t = 2 then s.respond conn h data
  else if t = 3 then s.readResp conn h data
  else if t = 4 then s.ackPacket n conn data
  else
    let s := s.bump pgXpt F.xpt.NACK_RECEIVED_COUNT 1
    match s.track conn (PH.msg h) true with
    | some x => State.pump conn pumpFuel (s.endMsg x (PH.status h))
    | none => s

/-- The packet's plaintext under a context's key. -/
def openPacket (c h : Nat) (body : List Byte) : Option (List Byte) :=
  let ct := body.take (body.length - 16)
  Config.gcmOpen (cget c CX.key) (gcmIv (cget c CX.salt) (cget c CX.initiator) (PH.psn h)) (leBytes 48 h) ct (leNat (body.drop (body.length - 16)))

/-- A packet at a resident context, from the version on (R348). -/
def State.atContext (s : State) (n conn c h : Nat) (body : List Byte) : State :=
  let agreed := if PH.type h = 6 then PH.version h == 1
    else if cget c CX.state = 3 then bitAt 0x0002 (PH.version h) else PH.version h == cget c CX.negVersion
  if cget c CX.state = 0 ∨ (PH.type h ≠ 6 ∧ PH.inc h ≠ cget c CX.incarnation) then s.bump pgXpt F.xpt.RX_NO_CONN_COUNT 1
  else if !agreed then s.bump pgXpt F.xpt.RX_FORMAT_COUNT 1
  else if PH.keyGen h ≠ cget c CX.keyGen then s.bump pgXpt F.xpt.RX_RETIRED_GEN_COUNT 1
  else match openPacket c h body with
    | none => (s.bump pgXpt F.xpt.RX_AUTH_FAIL_COUNT 1).event pgXpt 8
    | some data =>
      if replayed c (PH.psn h) then s.bump pgXpt F.xpt.RX_REPLAY_COUNT 1
      else (s.putCtx conn (markPsn c (PH.psn h))).handle n conn h data

/-- The contexts a CONNECT may mean: those not FREE with its KEY_ID, the one under whose key it verifies first (R348). -/
def State.connectTarget (s : State) (h : Nat) (body : List Byte) : Option Nat :=
  let ks := (s.xpt.live.filter fun e => match e.2 with | some (id, _) => id == PH.msg h % 2 ^ 16 | none => false).map (·.1)
  let fit := ks.filter fun k => match s.ctxOf k with | some c => cget c CX.state == 2 || cget c CX.state == 4 | none => true
  (fit.find? fun k => match s.ctxOf k with | some c => (openPacket c h body).isSome | none => false).orElse fun _ => fit.head?

/-- A Camern packet received through port `n` (R348, R350). -/
def State.cmrnPacket (s : State) (n : Nat) (f : Frame) (g : Datagram) : State :=
  let h := leNat (g.payload.take 48)
  let body := g.payload.drop 48
  let size := if PH.type h = 2 ∨ PH.type h = 5 ∨ 8 ≤ PH.type h then 0 else PH.plen h
  if !s.enabled pgXpt then s.bump pgXpt F.xpt.RX_CLOSED_COUNT 1
  else if !g.clean ∨ body.length ≠ size + 16 ∨ g.payload.length < 64 ∨ PH.type h = 0 ∨ 9 < PH.type h
    ∨ reservedSet 48 h (packetFields (PH.type h)) then s.bump pgXpt F.xpt.RX_FORMAT_COUNT 1
  else match (if PH.type h = 6 then s.connectTarget h body else some (PH.conn h)) with
    | none => s.bump pgXpt F.xpt.RX_NO_CONN_COUNT 1
    | some conn =>
      match s.ctxOf conn with
      | some c => if s.xpt.missed.any (·.conn == conn) then { s with xpt.missed := s.xpt.missed ++ [Missed.mk conn n f s.time.toNat] }
          else s.atContext n conn c h body
      | none =>
        if 2 ^ 21 < s.fget pgCtx F.ctx.MISS_BYTES_BYTES + frameLen f then s.bump pgCtx F.ctx.MISS_DROPS_COUNT 1
        else { s with xpt.missed := s.xpt.missed ++ [Missed.mk conn n f s.time.toNat] }.want conn

/-- A frame at the XPT. -/
def State.cmrnFrame (s : State) (n : Nat) (f : Frame) : State :=
  match s.camernFrame f with
  | none => s
  | some g => (s.cmrnPacket n f g).xptShow

/-- A Camern frame whose packet has a type; a frame of another type is not this event. Types no row has are taken by any row. -/
def State.cmrnTyped (s : State) (n t : Nat) (f : Frame) : State :=
  match s.camernFrame f with
  | none => s
  | some g =>
    let ty := PH.type (leNat (g.payload.take 48))
    if ty = t ∨ ty = 0 ∨ 9 < ty then s.cmrnFrame n f else s

/-- WRITE_PACKET (R360). -/
def execWritePacket (n : Fin 8) (f : Frame) (s : State) : Host.Outcome State Fault Refusal := .next (s.cmrnTyped n 1 f)
/-- READ_REQ (R363). -/
def execReadReq (n : Fin 8) (f : Frame) (s : State) : Host.Outcome State Fault Refusal := .next (s.cmrnTyped n 2 f)
/-- READ_RESP (R363). -/
def execReadResp (n : Fin 8) (f : Frame) (s : State) : Host.Outcome State Fault Refusal := .next (s.cmrnTyped n 3 f)
/-- ACK_PACKET (R366). -/
def execAckPacket (n : Fin 8) (f : Frame) (s : State) : Host.Outcome State Fault Refusal := .next (s.cmrnTyped n 4 f)
/-- NACK_PACKET (R359). -/
def execNackPacket (n : Fin 8) (f : Frame) (s : State) : Host.Outcome State Fault Refusal := .next (s.cmrnTyped n 5 f)
/-- CONNECT_PACKET (R346). -/
def execConnectPacket (n : Fin 8) (f : Frame) (s : State) : Host.Outcome State Fault Refusal := .next (s.cmrnTyped n 6 f)
/-- ACCEPT (R346). -/
def execAccept (n : Fin 8) (f : Frame) (s : State) : Host.Outcome State Fault Refusal := .next (s.cmrnTyped n 7 f)
/-- CLOSE_PACKET (R346). -/
def execClosePacket (n : Fin 8) (f : Frame) (s : State) : Host.Outcome State Fault Refusal := .next (s.cmrnTyped n 8 f)
/-- CLOSE_ACK (R346). -/
def execCloseAck (n : Fin 8) (f : Frame) (s : State) : Host.Outcome State Fault Refusal := .next (s.cmrnTyped n 9 f)

/-- Every byte of a received message is placed. -/
def State.whole (s : State) (t : Track) : Bool := !t.send && t.count == t.len && (t.len != 0 || t.got != 0) && t.got == 2 ^ s.pkts t - 1

/-- MESSAGE_COMPLETE (R361): the `k`-th tracker's message is whole and visible. -/
def execMessageComplete (k : Nat) (s : State) : Host.Outcome State Fault Refusal :=
  match s.xpt.tracks[k]? with
  | none => .next s
  | some t =>
    if !s.whole t then .next s
    else if t.req then .next (State.pump t.conn pumpFuel ((s.txAck t true).endMsg t stDone)).xptShow
    else
      let s := match t.bump with
        | some (d, y) => s.advanceTally d y 1 (srcCode 7 (s.cof t.conn CX.peer))
        | none => s
      let j := (t.msg + 2 ^ 32 - s.cof t.conn CX.rxBase) % 2 ^ 32
      let s := (s.dropTrack t).cset t.conn CX.rxDone (s.cof t.conn CX.rxDone ||| (if j < 32 then 2 ^ j else 0))
      .next (s.txAck t true).xptShow

/-- A packet has been retransmitted RETRIES times: the connection goes to ERROR (R346, R362). -/
def State.exhausted (s : State) (conn : Nat) : State := (s.connError conn stTimeout).txClose conn stTimeout

/-- CMRN_RTO (R362): RTO_NS after the last transmission of the `k`-th tracker's message. -/
def execCmrnRto (k : Nat) (s : State) : Host.Outcome State Fault Refusal :=
  match s.xpt.tracks[k]? with
  | none => .next s
  | some t =>
    let due := if t.send then (List.range t.next).filter fun i => !bitAt t.acked i else if t.req && t.got == 0 then [0] else []
    let lim := s.prof t.conn F.cong.CC_RETRIES_RETRIES
    if due.isEmpty then .next s
    else if due.any fun i => lim ≤ Store.get 0 t.tries i then .next (s.exhausted t.conn).xptShow
    else
      let t' := { t with tries := due.foldl (fun m i => Store.set 0 m i (Store.get 0 m i + 1)) t.tries }
      let s := (s.putTrack t').bump pgXpt F.xpt.RETRANSMITS_COUNT due.length
      let s := s.cset t.conn CX.cwnd (1024 * s.prof t.conn F.cong.CC_CWND_MIN_CWND_MIN)
      if !t.send then .next (s.txReadReq t' true) else
      let r := due.foldl (fun (x : State × Option Nat) i => match x.2 with
        | some _ => x
        | none => x.1.txData t' i true) (s, none)
      match r with
      | (s, none) => .next s.xptShow
      | (s, some st) => .next (s.sourceFailed t' st).xptShow

/-- CMRN_ACK_DELAY (R362): ACK_DELAY_NS after the `k`-th tracker's first unacknowledged packet. -/
def execCmrnAckDelay (k : Nat) (s : State) : Host.Outcome State Fault Refusal :=
  match s.xpt.tracks[k]? with
  | none => .next s
  | some t => if t.send || t.owed == 0 then .next s else .next ((s.txAck t false).putTrack { t with owed := 0 })

/-- CONNECT_RETRANSMIT (R346): RTO_NS after a CONNECTING context's last CONNECT. -/
def execConnectRetransmit (conn : BitVec 20) (s : State) : Host.Outcome State Fault Refusal :=
  let k := conn.toNat
  match Store.get none s.xpt.sent k with
  | none => .next s
  | some n =>
    if s.cof k CX.state ≠ 3 then .next s
    else if s.prof k F.cong.CC_RETRIES_RETRIES ≤ n then .next (s.connError k stTimeout).xptShow
    else
      let s := (s.txConnect k 6).bump pgXpt F.xpt.RETRANSMITS_COUNT 1
      .next { s with xpt.sent := Store.set none s.xpt.sent k (some (n + 1)) }

/-- CLOSE_RETRANSMIT (R346): a CLOSING context's timer: the wait before CLOSE ends, or a CLOSE went unanswered. -/
def execCloseRetransmit (conn : BitVec 20) (s : State) : Host.Outcome State Fault Refusal :=
  let k := conn.toNat
  if s.cof k CX.state ≠ 5 then .next s else
  match Store.get none s.xpt.sent k with
  | none => .next { s.txClose k stDone with xpt.sent := Store.set none s.xpt.sent k (some 0) }
  | some n =>
    if s.prof k F.cong.CC_RETRIES_RETRIES ≤ n then .next ((s.cset k CX.state 6).endConn k stAborted).xptShow
    else
      let s := (s.txClose k stDone).bump pgXpt F.xpt.RETRANSMITS_COUNT 1
      .next { s with xpt.sent := Store.set none s.xpt.sent k (some (n + 1)) }

/-! ### Spilled contexts (R349, R350) -/

/-- Packets held for a connection processed in arrival order. -/
def State.replayHeld (s : State) (conn : Nat) : State :=
  let held : List Missed := s.xpt.missed.filter (·.conn == conn)
  held.foldl (fun s m => s.cmrnFrame m.port m.frame) { s with xpt.missed := s.xpt.missed.filter (·.conn != conn) }

/-- CONTEXT_FETCH_DONE (R350): the oldest fetch ends after `ns`; `f` says whether the tier failed it. -/
def execContextFetchDone (ns : BitVec 32) (f : TierFault) (s : State) : Host.Outcome State Fault Refusal :=
  match s.xpt.fetching with
  | [] => .next s
  | conn :: rest =>
    let s := { s with xpt.fetching := rest }
    let s := s.fput pgCtx F.ctx.FETCH_NS_MAX_NS (max (s.fget pgCtx F.ctx.FETCH_NS_MAX_NS) ns.toNat)
    let got := match f with
      | .none => s.ctxLoad conn
      | .failed _ => (s, Except.error stTierFail)
    match got with
    | (s, .error _) =>
      let n := (s.xpt.missed.filter (·.conn == conn)).length
      let s := { s with xpt.missed := s.xpt.missed.filter (·.conn != conn) }.bump pgCtx F.ctx.FETCH_FAIL_COUNT n
      .next (State.startFetches 64 s).xptShow
    | (s, .ok c) => .next (State.startFetches 64 ((s.putCtx conn c).replayHeld conn)).xptShow

/-- CONTEXT_WRITE_BACK_DONE (R349): the oldest write-back completes and frees its slot. -/
def execContextWriteBackDone (s : State) : Host.Outcome State Fault Refusal :=
  match s.xpt.writing with
  | [] => .next s
  | (conn, c) :: rest => .next (State.startFetches 64 ({ s with xpt.writing := rest }.ctxStore conn c)).xptShow

/-- MISS_TIMEOUT (R350): the `k`-th held packet has waited longer than MISS_TIMEOUT. -/
def execMissTimeout (k : Nat) (s : State) : Host.Outcome State Fault Refusal :=
  match s.xpt.missed[k]? with
  | none => .next s
  | some _ => .next ({ s with xpt.missed := s.xpt.missed.eraseIdx k }.bump pgCtx F.ctx.MISS_TIMEOUTS_COUNT 1).xptShow

/-! ### Windows (R351, R352) -/

def State.winDone (s : State) (st : Nat) : State :=
  { (s.fput pgWin F.win.WIN_RESULT_STATUS st).fset pgWin F.win.WIN_RESULT_BUSY false with xpt.winCmd := none }

/-- The image of a connection's context, on chip or in the table, for a window's check. -/
def State.ctxPeek (s : State) (conn : Nat) : Option Nat :=
  match s.ctxOf conn with
  | some c => some c
  | none => match s.ctxLoad conn with | (_, .ok c) => some c | (_, .error _) => none

/-- The first failing check of a window image after its CHECK (R351). -/
def State.winImageCheck (s : State) (w : Nat) : Option Nat :=
  let base := fieldAt w 8 0 52
  let len := fieldAt w 0x10 0 40
  let t := fieldAt w 0 8 4
  let who : Agent := .tenant (Fin.ofNat 16 t)
  let bad (write : Bool) : Bool := (s.rangeCheck who write base len).isSome
  let cls := match s.objOf base with | some (o, _) => o.cls | none => 0
  let anyConn := fieldAt w 0 12 1 == 1
  let ctxOk := match s.ctxPeek (fieldAt w 4 0 20) with | some c => cget c CX.tenant == t && cget c CX.twin == 0 | none => false
  firstFailure [
    (!s.versionOk pgXpt (fieldAt w 0 0 4), stVersion),
    (reservedSet 32 w [(0, 0, 13), (0, 16, 16), (4, 0, 28), (8, 0, 52), (0x10, 0, 40), (0x1C, 0, 9)], stReservedSet),
    (base % 64 != 0, stAddrRange),
    (bad false || (fieldAt w 0 6 1 == 1 && bad true) || (cls == 2 && fieldAt w 0 6 2 != 0) || cls == 3
      || (match winOf base with | .attic _ _ => true | .cellar _ _ => true | _ => false)
      || (cls == 1 && (anyConn || !ctxOk)), stAccess)]

/-- A window command admitted: while one runs another ends with ACCESS. -/
def State.winCmd (s : State) (r : Requester) (act : State → State) : State :=
  s.hubAdmit r pgWin 0x040 fun s =>
    if s.xpt.winCmd.isSome then s.fput pgWin F.win.WIN_RESULT_STATUS stAccess else act s

/-- WIN_OPEN (R352): the image at WIN_SRC, with the next generation and VALID. -/
def execWinOpen (r : Requester) (i : BitVec 16) (s : State) : Host.Outcome State Fault Refusal :=
  .next (s.winCmd r fun s =>
    match s.devRead .firmware (s.fget pgWin F.win.WIN_SRC_ADDR) 32 with
    | (s, .error st) => s.winDone st
    | (s, .ok bs) => match checkStruct 32 (leNat bs) with
      | .failed => s.winDone stCheckFailed
      | .clean w | .corrected w => match s.winImageCheck w with
        | some st => s.winDone st
        | none =>
          let gen := fieldAt (Store.get 0 s.xpt.wins i.toNat) 0 16 16 + 1
          let v := withCheck 32 (cput (cput w (0, 16, 16) gen) (0, 4, 1) 1)
          ({ s with xpt.wins := Store.set 0 s.xpt.wins i.toNat v, xpt.winCmd := some (i.toNat, 1) }.fset pgWin F.win.WIN_RESULT_BUSY
            true).xptShow)

/-- WIN_REVOKE (R352). -/
def execWinRevoke (r : Requester) (i : BitVec 16) (s : State) : Host.Outcome State Fault Refusal :=
  .next (s.winCmd r fun s =>
    let w := Store.get 0 s.xpt.wins i.toNat
    let v := withCheck 32 (cput (cput w (0, 16, 16) (fieldAt w 0 16 16 + 1)) (0, 4, 1) 0)
    ({ s with xpt.wins := Store.set 0 s.xpt.wins i.toNat v, xpt.winCmd := some (i.toNat, 2) }.fset pgWin F.win.WIN_RESULT_BUSY true).xptShow)

/-- WIN_READ (R374): the window's image to WIN_SRC. -/
def execWinRead (r : Requester) (i : BitVec 16) (s : State) : Host.Outcome State Fault Refusal :=
  .next (s.winCmd r fun s =>
    match s.devWrite .firmware (s.fget pgWin F.win.WIN_SRC_ADDR) (leBytes 32 (Store.get 0 s.xpt.wins i.toNat)) with
    | (s, .error st) => s.winDone st
    | (s, .ok _) => s.winDone stDone)

/-- WIN_CMD_DONE (R352): no packet admitted under the old generation is unplaced. -/
def execWinCmdDone (s : State) : Host.Outcome State Fault Refusal :=
  match s.xpt.winCmd with
  | none => .next s
  | some (_, cmd) => .next (if cmd = 2 then (s.winDone stDone).event pgWin 9 stDone else s.winDone stDone)

/-! ### Tenants and resets (R45, R369) -/

/-- A tenant slot enters REVOKING (R369). -/
def State.xptRevoke (s : State) (t : Nat) : State :=
  let queues := (s.xpt.tails.map (·.1)).filter fun q => s.qTenant q == t
  let s := queues.foldl (fun s q => State.abortQueue q 4096 s) s
  let s := if s.agate.tenant = t ∧ s.running then State.abortQueue 4095 4096 (State.abortQueue 4094 4096 s) else s
  let conns : List Nat := (s.xpt.live.filter fun e => match e.2 with | some (_, x) => x == t | none => false).map (·.1)
  let s := conns.foldl (fun s k =>
    let s := (s.ensureCtx k).1
    let open_ := s.cof k CX.state == 4 || s.cof k CX.state == 5
    let s := if open_ then s.txClose k stKeyRetired else s
    (s.cset k CX.state 6).endConn k stKeyRetired) s
  let revoke (w : Nat) : Nat := if fieldAt w 0 8 4 = t ∧ fieldAt w 0 4 1 = 1
    then withCheck 32 (cput (cput w (0, 16, 16) (fieldAt w 0 16 16 + 1)) (0, 4, 1) 0) else w
  let wins : List (Nat × Nat) := s.xpt.wins.map fun e => (e.1, revoke e.2)
  { s with xpt.wins := wins }.xptShow

/-- The contexts of a zeroised tenant are FREE (R369). -/
def State.xptForget (s : State) (t : Nat) : State :=
  let conns : List Nat := (s.xpt.live.filter fun e => match e.2 with | some (_, x) => x == t | none => false).map (·.1)
  (conns.foldl (fun s k => let s := (s.ensureCtx k).1; s.clearCtx k ((s.ctxOf k).getD 0)) s).xptShow

/-- The soft reset of the XPT: queued and started entries end with ABORTED, contexts and windows are discarded (R43, R45). -/
def State.xptReset (s : State) : State :=
  let s := (s.xpt.tails.map (·.1)).foldl (fun s q => State.abortQueue q 4096 s) s
  let s := State.abortQueue 4095 4096 (State.abortQueue 4094 4096 s)
  let es : List XEntry := s.xpt.entries
  let s := es.foldl (fun s e => (s.dropEntry e).entryDone e.queue e.desc stAborted e.bytes) s
  { s with xpt := { serial := s.xpt.serial } }

end Sys2Proof.Machine
end

