-- ==== Sys2Proof/Machine/Tile.lean ====
section
/-! DEFINITION. The matrix engine of a tile: the check of a descriptor (R84 to R92), the queue and the interlock (R96), the products of
a chunk (R70 to R72, R85 to R88), the drain and its output (R94, R104 to R111), completion (R95). -/

namespace Sys2Proof.Machine

/-! ### Descriptor fields (R89) -/

/-- Opcodes of R90. -/
def opSignal : Nat := 1
def opClear : Nat := 2
def opMma : Nat := 3
def opDrain : Nat := 4
def opMmaDrain : Nat := 5
def opConvert : Nat := 6
def opExpand : Nat := 7

namespace TD
def clear (d : Nat) : Bool := fieldAt d 0 16 1 == 1
def aT (d : Nat) : Bool := fieldAt d 0 17 1 == 1
def bT (d : Nat) : Bool := fieldAt d 0 18 1 == 1
def cT (d : Nat) : Bool := fieldAt d 0 19 1 == 1
def rowstat (d : Nat) : Bool := fieldAt d 0 20 1 == 1
def rows (d : Nat) : Nat := fieldAt d 8 0 7
def cols (d : Nat) : Nat := fieldAt d 8 8 7
def kblk (d : Nat) : Nat := fieldAt d 8 16 11
def aFmt (d : Nat) : Nat := fieldAt d 0xC 0 4
def bFmt (d : Nat) : Nat := fieldAt d 0xC 4 4
def cFmt (d : Nat) : Nat := fieldAt d 0xC 8 4
def preset (d : Nat) : Bool := fieldAt d 0xC 12 1 == 1
def ditherOn (d : Nat) : Bool := fieldAt d 0xC 13 1 == 1
def residue (d : Nat) : Bool := fieldAt d 0xC 14 1 == 1
def scale (d : Nat) : Int := signedOf 8 (fieldAt d 0xC 16 8)
def ePreset (d : Nat) : Nat := fieldAt d 0xC 24 8
def aBase (d : Nat) : Nat := fieldAt d 0x10 0 32
def aExp (d : Nat) : Nat := fieldAt d 0x14 0 21
def aStride (d : Nat) : Nat := fieldAt d 0x14 21 11
def bBase (d : Nat) : Nat := fieldAt d 0x18 0 32
def bExp (d : Nat) : Nat := fieldAt d 0x1C 0 21
def bStride (d : Nat) : Nat := fieldAt d 0x1C 21 11
def cBase (d : Nat) : Nat := fieldAt d 0x20 0 32
def cExp (d : Nat) : Nat := fieldAt d 0x24 0 21
def cStride (d : Nat) : Nat := fieldAt d 0x24 21 11
def cAux (d : Nat) : Nat := fieldAt d 0x28 0 21
def origin (d : Nat) : Nat := fieldAt d 0x2C 0 40
def pitch (d : Nat) : Nat := fieldAt d 0x30 8 24
def step (d : Nat) : Nat := fieldAt d 0x34 0 32
def tensorId (d : Nat) : Nat := fieldAt d 0x38 0 32
/-- The rounding the descriptor asks for. -/
def rounding (d : Nat) : Rounding := if ditherOn d then .dither (step d) (tensorId d) else .nearest
end TD

/-- Bytes of a 64-element block of a format (R62, R85). -/
def blockBytes (f : Nat) : Nat := 8 * fmtWidth f

/-- The bits an operation of an opcode and output format may set (R89, R90). RESIDUE stays allowed for every opcode with conversion
fields: R91 checks it. An opcode or format that does not exist uses every field: it fails with FORMAT (log 86). -/
def tileFields (op cf : Nat) : List (Nat × Nat × Nat) :=
  let always := [(0, 0, 4), (0, 8, 8), (4, 0, 32), (0x3C, 0, 10), (0x3C, 16, 12), (0x3C, 28, 1)]
  let inA := [(0xC, 0, 4), (0x10, 0, 29), (0x14, 0, 32)]
  let inB := [(0xC, 4, 4), (0x18, 0, 29), (0x1C, 0, 32)]
  let outC := [(0xC, 8, 4), (0x20, 0, 29), (0x24, 0, 32), (0x28, 0, 21), (0xC, 16, 8)]
  let conv := [(0xC, 14, 1)] ++ (if cf = fmtFP32 then [] else [(0xC, 13, 1), (0x2C, 0, 32), (0x30, 0, 32), (0x34, 0, 32), (0x38, 0, 32)])
    ++ (if fmtIsQbi cf ∨ !fmtKnown cf then [(0xC, 12, 1), (0xC, 24, 8)] else [])
  always ++ match op with
    | 1 => []
    | 2 => []
    | 3 => [(0, 16, 3), (8, 0, 7), (8, 8, 7), (8, 16, 11)] ++ inA ++ inB
    | 4 => [(0, 19, 2), (8, 0, 7), (8, 8, 7)] ++ outC ++ conv
    | 5 => [(0, 16, 5), (8, 0, 7), (8, 8, 7), (8, 16, 11)] ++ inA ++ inB ++ outC ++ conv
    | 6 => [(8, 0, 7), (8, 16, 11), (0xC, 0, 4), (0x10, 0, 29), (0x14, 21, 11)] ++ outC ++ conv
    | 7 => [(8, 0, 7), (8, 16, 11), (0xC, 0, 4), (0x10, 0, 29), (0x14, 0, 32), (0xC, 8, 4), (0xC, 16, 8), (0x20, 0, 29), (0x24, 21, 11)]
    | _ => [(0, 16, 5), (8, 0, 7), (8, 8, 7), (8, 16, 11), (0xC, 0, 15), (0xC, 16, 16), (0x10, 0, 32), (0x14, 0, 32), (0x18, 0, 32),
            (0x1C, 0, 32), (0x20, 0, 32), (0x24, 0, 32), (0x28, 0, 21), (0x2C, 0, 32), (0x30, 0, 32), (0x34, 0, 32), (0x38, 0, 32)]

/-- The opcode reads operand or source A. -/
def usesA (op : Nat) : Bool := op == opMma || op == opMmaDrain || op == opConvert || op == opExpand
/-- The opcode reads operand B. -/
def usesB (op : Nat) : Bool := op == opMma || op == opMmaDrain
/-- The opcode writes an output. -/
def usesC (op : Nat) : Bool := op == opDrain || op == opMmaDrain || op == opConvert || op == opExpand

/-- Blocks an operand spans: the highest linear index it reads, plus one (R85, R86). -/
def operandBlocks (lines kblk stride : Nat) (tr : Bool) : Nat :=
  if lines = 0 ∨ kblk = 0 then 0 else if tr then (64 * kblk - 1) * stride + 1 else (lines - 1) * stride + kblk

/-- A byte range of a Shelf: tile, first offset, end offset. -/
structure Range where
  tile : Nat
  first : Nat
  stop : Nat
deriving DecidableEq, Repr

/-- Two ranges share a byte. -/
def Range.meets (a b : Range) : Bool := a.tile == b.tile && a.first < b.stop && b.first < a.stop

/-- The tile and offset of a Shelf-range address (R84). -/
def shelfTile (a : Nat) : Nat := bitsOf a 21 8
def shelfOff (a : Nat) : Nat := a % 2 ^ 21

/-- The end of a Shelf (R84). -/
def shelfEnd : Nat := 0x180000

/-- The ranges an operation reads. -/
def readRanges (d : Nat) : List Range :=
  let op := descOpcode d
  let a := if usesA op then
      let n := operandBlocks (TD.rows d) (TD.kblk d) (TD.aStride d) (usesB op && TD.aT d)
      let t := shelfTile (TD.aBase d)
      [⟨t, shelfOff (TD.aBase d), shelfOff (TD.aBase d) + n * blockBytes (TD.aFmt d)⟩]
        ++ (if fmtIsQbi (TD.aFmt d) then [⟨t, TD.aExp d, TD.aExp d + n⟩] else [])
    else []
  let b := if usesB op then
      let n := operandBlocks (TD.cols d) (TD.kblk d) (TD.bStride d) (TD.bT d)
      let t := shelfTile (TD.bBase d)
      [⟨t, shelfOff (TD.bBase d), shelfOff (TD.bBase d) + n * blockBytes (TD.bFmt d)⟩]
        ++ (if fmtIsQbi (TD.bFmt d) then [⟨t, TD.bExp d, TD.bExp d + n⟩] else [])
    else []
  a ++ b

/-- The output lines (or blocks) an operation writes, and the highest linear index plus one (R94). -/
def outputBlocks (d : Nat) : Nat :=
  let op := descOpcode d
  if op = opConvert ∨ op = opExpand then
    if TD.rows d = 0 ∨ TD.kblk d = 0 then 0 else (TD.rows d - 1) * TD.cStride d + TD.kblk d
  else if TD.rows d = 0 ∨ TD.cols d = 0 then 0
  else ((if TD.cT d then TD.cols d else TD.rows d) - 1) * TD.cStride d + 1

/-- The ranges an operation writes. FP32 and INT32 lines of a drain end with their last element (R94). -/
def writeRanges (d : Nat) : List Range :=
  let op := descOpcode d
  if !usesC op then [] else
    let n := outputBlocks d
    let f := TD.cFmt d
    let t := shelfTile (TD.cBase d)
    let o := shelfOff (TD.cBase d)
    let line := if (op = opDrain ∨ op = opMmaDrain) ∧ (f = fmtFP32 ∨ f = fmtINT32)
      then 4 * (if TD.cT d then TD.rows d else TD.cols d) else blockBytes f
    [⟨t, o, if n = 0 then o else o + (n - 1) * blockBytes f + line⟩]
      ++ (if fmtIsQbi f then [⟨t, TD.cExp d, TD.cExp d + n⟩] else [])
      ++ (if TD.residue d then [⟨t, TD.cAux d, TD.cAux d + n * 64⟩] else [])
      ++ (if TD.rowstat d then [⟨t, TD.cAux d, TD.cAux d + 512⟩] else [])

/-- A format an MMA takes (R91). -/
def mmaFmt (f : Nat) : Bool := f == fmtINT4 || f == fmtINT8 || fmtIsQbi f

/-- Opcode and formats are within R90 and R91. -/
def tileFormatOk (d : Nat) : Bool :=
  let op := descOpcode d
  let a := TD.aFmt d
  let c := TD.cFmt d
  (1 ≤ op && op ≤ 7)
  && (!(op == opMma || op == opMmaDrain) || (mmaFmt a && mmaFmt (TD.bFmt d)))
  && (!(op == opDrain || op == opMmaDrain) || fmtKnown c)
  && (op != opConvert || (a == fmtFP32 && fmtKnown c && c != fmtFP32))
  && (op != opExpand || (mmaFmt a && c == fmtFP32))
  && (!(usesC op && TD.residue d) || c == fmtQBI8)
  && (!TD.rowstat d || c == fmtFP32)

/-- Bases, planes and extents are aligned and inside their Shelves (R84, R85, R94), and no operand stride is zero with blocks. -/
def tileAddrOk (d : Nat) : Bool :=
  let op := descOpcode d
  let inShelf (r : Range) : Bool := r.first < shelfEnd && r.stop ≤ shelfEnd
  (readRanges d).all inShelf && (writeRanges d).all inShelf
  && (!usesA op || (shelfOff (TD.aBase d) % (if TD.aFmt d = fmtFP32 then 256 else blockBytes (TD.aFmt d)) == 0
        && (!fmtIsQbi (TD.aFmt d) || (usesB op && TD.aT d) || TD.aExp d % 64 == 0)
        && (TD.kblk d == 0 || TD.aStride d != 0)))
  && (!usesB op || (shelfOff (TD.bBase d) % blockBytes (TD.bFmt d) == 0
        && (!fmtIsQbi (TD.bFmt d) || TD.bT d || TD.bExp d % 64 == 0)
        && (TD.kblk d == 0 || TD.bStride d != 0)))
  && (!usesC op || (shelfOff (TD.cBase d) % blockBytes (TD.cFmt d) == 0
        && (!fmtIsQbi (TD.cFmt d) || TD.cExp d % 64 == 0)
        && TD.cAux d % 64 == 0))

/-- The format pair and blocks of the chunk an operation that arrives now will meet: the active set's, as the operations already
accepted will leave it (R88). -/
def Tile.chunkAhead (u : Tile) : Option (Nat × Nat) × Nat :=
  let start := match u.activeSet with | some k => ((u.set k).fmts, (u.set k).blks) | none => (none, 0)
  let after (c : Option (Nat × Nat) × Nat) (d : Nat) (from_ : Nat) : Option (Nat × Nat) × Nat :=
    let op := descOpcode d
    if op = opClear then (none, 0)
    else if op = opMma then
      if TD.clear d && from_ == 0 then (some (TD.aFmt d, TD.bFmt d), TD.kblk d)
      else (some (TD.aFmt d, TD.bFmt d), c.2 + TD.kblk d - from_)
    else if op = opDrain ∨ op = opMmaDrain then (none, 0)
    else c
  let c1 := u.started.foldl (fun c r =>
    match r.phase with
    | .clear => after c r.desc 0
    | .accum k => after c r.desc (k / 64)
    | .reach => after c r.desc 0
    | .handover => after c r.desc 0
    | _ => c) start
  u.queue.foldl (fun c o => after c o.desc 0) c1

/-- A tile page is enabled and not isolated: the tile takes work (R92). -/
def State.tileUp (s : State) (t : Nat) : Bool := s.enabled (tilPage t) && !s.isolated (tilPage t)

/-- The checks of R49 on a tile descriptor, in order; none: it is accepted (R92). -/
def State.tileCheck (s : State) (t d : Nat) : Option Nat :=
  let op := descOpcode d
  let c := (s.tile t).chunkAhead
  let mm := op == opMma || op == opMmaDrain
  let fresh := TD.clear d || c.1 == none
  let spare := d &&& (2 ^ 512 - 1 - maskOf (tileFields op (TD.cFmt d)))
  let strayExp := (usesA op && !fmtIsQbi (TD.aFmt d) && TD.aExp d != 0) || (usesB op && !fmtIsQbi (TD.bFmt d) && TD.bExp d != 0)
  firstFailure [
    (!s.versionOk (tilPage t) (fieldAt d 0 0 4), stVersion),
    (spare != 0 || strayExp, stReservedSet),
    (!tileFormatOk d || (mm && !fresh && c.1 != some (TD.aFmt d, TD.bFmt d)), stFormat),
    (TD.rows d > 64 || TD.cols d > 64 || TD.kblk d > 1024 || (mm && (if TD.clear d then 0 else c.2) + TD.kblk d > 1024), stLenRange),
    (!tileAddrOk d, stAddrRange),
    (!s.tileUp t || ((readRanges d ++ writeRanges d).any (fun r => !s.tileUp r.tile))
      || !s.fon (tilPage t) F.com.ENABLE, stAccess)]

/-- A tile-operation descriptor reaching a tile: CHECK first, then R49; accepted, it takes a place of the queue (R92, R96). -/
def State.tileArrive (s : State) (t desc : Nat) (held : Bool) : State :=
  let p := tilPage t
  match checkStruct 64 desc with
  | .failed => (((s.mxeLast t desc stCheckFailed).bump p (F.com.EVT_CNT 1) 1).event p 9 stCheckFailed).noteRun stCheckFailed
  | .clean d => go s d
  | .corrected d => go ((s.bump p (F.com.EVT_CNT 0) 1).event p 8) d
where
  /-- The descriptor after its check code. -/
  go (s : State) (d : Nat) : State :=
    match s.tileCheck t d with
    | some st => (((s.mxeLast t d st).bump (tilPage t) (F.com.EVT_CNT 2) 1).event (tilPage t) 10 st).noteRun st
    | none => let u := s.tile t; s.putTile t { u with queue := u.queue ++ [⟨d, held, false⟩] }

/-- The phase a started operation begins in. -/
def startPhase (d : Nat) : Phase :=
  match descOpcode d with
  | 2 => .clear | 3 => .accum 0 | 4 => .reach | 5 => .accum 0 | 6 => .convert | 7 => .convert | _ => .signal

/-- The outputs of started operations of the tile that are not yet written (R96). -/
def Tile.unwritten (u : Tile) : List Range :=
  (u.started.filter (fun r => r.phase ≠ .ready)).flatMap (fun r => writeRanges r.desc)

/-- The loader must wait: an operand of `d` overlaps an output of an earlier operation of the tile that has not been written (R96). -/
def Tile.interlocked (u : Tile) (t d : Nat) : Bool :=
  (readRanges d).any (fun r => r.tile == t && u.unwritten.any (fun w => w.meets r))

/-- MXE_OP_START (R96): the head of the queue starts, unless it is held, the tile is disabled, or the interlock holds it back; a wait is
counted once per operation in EVT_CNT6. -/
def execMxeOpStart (t : Fin 256) (s : State) : Host.Outcome State Fault Refusal :=
  let u := s.tile t
  match u.queue with
  | [] => .next s
  | o :: rest =>
    if o.held || !s.fon (tilPage t) F.com.ENABLE then .next s
    else if u.interlocked t o.desc then
      .next (if o.waited then s else
        (s.bump (tilPage t) (F.com.EVT_CNT 6) 1).putTile t { u with queue := { o with waited := true } :: rest })
    else .next (s.putTile t { u with queue := rest, started := u.started ++ [⟨o.desc, startPhase o.desc, false, false⟩] })

/-! ### Products (R70 to R72, R85 to R87) -/

/-- Mantissa (or integer) and exponent byte of element `i` of the block at linear index `blk`; exponent 0 for the integer formats. -/
def State.elemAt (s : State) (base exp fmt blk i : Nat) : Int × Nat :=
  let w := fmtWidth fmt
  let tileBase := shelfTile base * 2 ^ 21
  let a := tileBase + shelfOff base + blk * blockBytes fmt
  let m := match w with
    | 4 => signedOf 4 ((Store.get 0 s.shelf (a + i / 2)).toNat >>> (4 * (i % 2)))
    | 8 => signedOf 8 (Store.get 0 s.shelf (a + i)).toNat
    | _ => signedOf 16 (leNat (Store.read 0 s.shelf (a + 2 * i) 2))
  (m, if fmtIsQbi fmt then (Store.get 0 s.shelf (tileBase + exp + blk)).toNat else 0)

/-- The element of line `l` at reduction step `k` of an operand, in either orientation (R85, R86). -/
def State.operandAt (s : State) (base exp stride fmt : Nat) (tr : Bool) (l k : Nat) : Int × Nat :=
  if tr then s.elemAt base exp fmt (k * stride) l else s.elemAt base exp fmt (l * stride + k / 64) (k % 64)

/-- The bias of an operand's exponent sum (R70). -/
def fmtBias (f : Nat) : Int := if fmtIsQbi f then 127 + (fmtWidth f : Int) - 1 else 0

/-- The limb products of two mantissas (R72): high, middle, low accumulator. -/
def limbs (fa fb : Nat) (a b : Int) : Int × Int × Int :=
  let hi (m : Int) : Int := m / 256
  let lo (m : Int) : Int := m % 256
  if fa = fmtQBI16 ∧ fb = fmtQBI16 then (hi a * hi b, hi a * lo b + lo a * hi b, lo a * lo b)
  else if fa = fmtQBI16 then (hi a * b, 0, lo a * b)
  else if fb = fmtQBI16 then (a * hi b, 0, a * lo b)
  else (a * b, 0, 0)

/-- A product added to an element at exponent sum `e`, its frame moving to the lower of the two (R70, R107). -/
def Acc.add (c : Acc) (e : Int) (p : Int × Int × Int) : Acc :=
  match c.frame with
  | none => { c with frame := some e, hh := p.1, mid := p.2.1, ll := p.2.2 }
  | some f =>
    if f ≤ e then
      { c with hh := c.hh + shiftInt p.1 (e - f), mid := c.mid + shiftInt p.2.1 (e - f), ll := c.ll + shiftInt p.2.2 (e - f) }
    else
      { c with frame := some e, hh := shiftInt c.hh (f - e) + p.1, mid := shiftInt c.mid (f - e) + p.2.1,
               ll := shiftInt c.ll (f - e) + p.2.2 }

/-- One product of a chunk: a non-finite block makes the element a NaN, a zero block adds nothing and moves no frame (R70). -/
def Acc.product (c : Acc) (fa fb : Nat) (a b : Int × Nat) : Acc :=
  let nonfinite (f e : Nat) : Bool := fmtIsQbi f && e == 255
  let zero (f e : Nat) : Bool := fmtIsQbi f && e == 0
  if nonfinite fa a.2 || nonfinite fb b.2 then { c with nan := true }
  else if zero fa a.2 || zero fb b.2 then c
  else c.add ((a.2 : Int) + (b.2 : Int)) (limbs fa fb a.1 b.1)

/-- Reduction step `k` of an operation added to a set: every element of ROWS × COLS takes one product (R83, R88). -/
def State.accStep (s : State) (d k : Nat) (set : AccSet) : AccSet :=
  let fa := TD.aFmt d
  let fb := TD.bFmt d
  let as := (List.range (TD.rows d)).map (fun r => s.operandAt (TD.aBase d) (TD.aExp d) (TD.aStride d) fa (TD.aT d) r k)
  let bs := (List.range (TD.cols d)).map (fun c => s.operandAt (TD.bBase d) (TD.bExp d) (TD.bStride d) fb (TD.bT d) c k)
  let put (m : List (Nat × Acc)) (r : Nat) (a : Int × Nat) : List (Nat × Acc) :=
    (bs.zipIdx).foldl (fun m bc => Store.set {} m (r * 64 + bc.2) ((Store.get {} m (r * 64 + bc.2)).product fa fb a bc.1)) m
  { set with elems := (as.zipIdx).foldl (fun m ar => put m ar.2 ar.1) set.elems,
             fmts := some (fa, fb),
             blks := if k % 64 = 63 then set.blks + 1 else set.blks }

/-- Array passes per reduction step, in half tile cycles (R98). -/
def stepHalfCycles (fa fb : Nat) : Nat :=
  if fa = fmtQBI16 ∧ fb = fmtQBI16 then 8 else if fa = fmtQBI16 ∨ fb = fmtQBI16 then 4
  else if fmtWidth fa = 4 ∧ fmtWidth fb = 4 then 1 else 2

/-- Limb products per multiply (R72, R101). -/
def limbCount (fa fb : Nat) : Nat :=
  if fa = fmtQBI16 ∧ fb = fmtQBI16 then 4 else if fa = fmtQBI16 ∨ fb = fmtQBI16 then 2 else 1

/-- The counts of `n` reduction steps from step `k` on: array cycles and multiply-accumulates (R98, R101). -/
def State.countSteps (s : State) (t d k n : Nat) : State :=
  let h := stepHalfCycles (TD.aFmt d) (TD.bFmt d)
  let cyc := (h * (k + n) + 1) / 2 - (h * k + 1) / 2
  (s.bump (tilPage t) F.til.MXE_ARRAY_CYC_COUNT cyc).bump (tilPage t) F.til.MXE_PRODUCTS_COUNT
    (n * TD.rows d * TD.cols d * limbCount (TD.aFmt d) (TD.bFmt d))

/-- Reduction steps of an operation. -/
def totalSteps (d : Nat) : Nat := 64 * TD.kblk d

/-- The index of the first started operation that satisfies a predicate. -/
def Tile.findOp (u : Tile) (f : TileRun → Bool) : Option (Nat × TileRun) :=
  (u.started.zipIdx.find? (fun r => f r.1)).map (fun r => (r.2, r.1))

/-- The operation at the array: the first started one that has not passed it. -/
def Tile.atArray (u : Tile) : Option (Nat × TileRun) :=
  u.findOp (fun r => match r.phase with | .clear => true | .accum _ => true | .reach => true | .handover => true | _ => false)

/-- The tile with started operation `i` replaced. -/
def Tile.putRun (u : Tile) (i : Nat) (r : TileRun) : Tile := { u with started := u.started.set i r }

/-- A set of zeros that stays in its state (R88). -/
def AccSet.cleared (a : AccSet) : AccSet := { st := a.st }

/-- The set an accumulating operation starts from: discarded by its CLEAR flag at its first step (R104). -/
def AccSet.opened (a : AccSet) (d k : Nat) : AccSet := if TD.clear d && k == 0 then a.cleared else a

/-- An operation moved past its last reduction step: an MMA has nothing left to write, an MMA_DRAIN hands its set over. -/
def afterSteps (d : Nat) : Phase := if descOpcode d = opMma then .ready else .handover

/-- `n` reduction steps of an operation from step `k` on added to a set. -/
def State.accSteps (s : State) (d : Nat) : Nat → Nat → AccSet → AccSet
  | 0, _, a => a
  | n + 1, k, a => s.accSteps d n (k + 1) (s.accStep d k a)

/-- Every reduction step left of the operation at the array, an MMA or an MMA_DRAIN by opcode; while no set is ACTIVE the array waits,
counted in MXE_WAIT_CYC (R88, R100, R105). -/
def State.accumulate (s : State) (t op : Nat) : State :=
  let u := s.tile t
  match u.atArray with
  | some (i, r) =>
    match r.phase with
    | .accum k =>
      if descOpcode r.desc ≠ op then s else
      match u.activeSet with
      | none => s.bump (tilPage t) F.til.MXE_WAIT_CYC_COUNT 1
      | some x =>
        let n := totalSteps r.desc - k
        let a0 := (u.set x).opened r.desc k
        let a := { s.accSteps r.desc n k a0 with fmts := some (TD.aFmt r.desc, TD.bFmt r.desc) }
        (s.countSteps t r.desc k n).putTile t ((u.putSet x a).putRun i { r with phase := afterSteps r.desc })
    | _ => s
  | none => s

/-- MMA (R88): the MMA at the array accumulates A × B into the active set. -/
def execMma (t : Fin 256) (s : State) : Host.Outcome State Fault Refusal := .next (s.accumulate t opMma)

/-- MMA_DRAIN (R90): the operation at the array accumulates A × B and then waits to hand the same set over. -/
def execMmaDrain (t : Fin 256) (s : State) : Host.Outcome State Fault Refusal := .next (s.accumulate t opMmaDrain)

/-- REDUCTION_STEP_ENTER (R105): one reduction step enters the array if its target set is ACTIVE; otherwise the wait is counted. -/
def execReductionStepEnter (t : Fin 256) (s : State) : Host.Outcome State Fault Refusal :=
  let u := s.tile t
  match u.atArray with
  | some (i, r) =>
    match r.phase with
    | .accum k =>
      if totalSteps r.desc ≤ k then .next s else
      match u.activeSet with
      | none => .next (s.bump (tilPage t) F.til.MXE_WAIT_CYC_COUNT 1)
      | some x =>
        let a := s.accStep r.desc k ((u.set x).opened r.desc k)
        let ph := if k + 1 = totalSteps r.desc then afterSteps r.desc else .accum (k + 1)
        .next ((s.countSteps t r.desc k 1).putTile t ((u.putSet x a).putRun i { r with phase := ph }))
    | _ => .next s
  | none => .next s

/-- CLEAR (R104): the operation at the array discards the active set, and a new chunk begins. -/
def execClearAcc (t : Fin 256) (s : State) : Host.Outcome State Fault Refusal :=
  let u := s.tile t
  match u.atArray with
  | some (i, r) =>
    if r.phase = .clear then
      match u.activeSet with
      | none => .next s
      | some x => .next (s.putTile t ((u.putSet x (u.set x).cleared).putRun i { r with phase := .ready }))
    else .next s
  | none => .next s

/-- DRAIN (R106): the DRAIN at the array reaches the accumulator block; while no set is ACTIVE it waits. -/
def execDrain (t : Fin 256) (s : State) : Host.Outcome State Fault Refusal :=
  let u := s.tile t
  match u.atArray with
  | some (i, r) =>
    if r.phase = .reach ∧ u.activeSet.isSome then .next (s.putTile t (u.putRun i { r with phase := .handover })) else .next s
  | none => .next s

/-- DRAIN_HANDOVER (R104, R105): the set becomes PENDING, and the other set ACTIVE if it is FREE. -/
def execDrainHandover (t : Fin 256) (s : State) : Host.Outcome State Fault Refusal :=
  let u := s.tile t
  match u.atArray, u.activeSet with
  | some (i, r), some x =>
    if r.phase = .handover then
      let u1 := u.putSet x { u.set x with st := .pending }
      let u2 := if (u1.set (1 - x)).st = .free then u1.putSet (1 - x) { u1.set (1 - x) with st := .active } else u1
      .next (s.putTile t (u2.putRun i { r with phase := .pending x }))
    else .next s
  | _, _ => .next s

/-- The converter holds no set. -/
def Tile.converterIdle (u : Tile) : Bool := u.set0.st ≠ .draining && u.set1.st ≠ .draining

/-- CONVERTER_TAKE_SET (R104, R105): the idle converter takes the PENDING set, in issue order with CONVERT and EXPAND. -/
def execConverterTakeSet (t : Fin 256) (s : State) : Host.Outcome State Fault Refusal :=
  let u := s.tile t
  match u.findOp (fun r => match r.phase with | .pending _ => true | .convert => true | _ => false) with
  | some (i, r) =>
    match r.phase with
    | .pending x =>
      if u.converterIdle then .next (s.putTile t ((u.putSet x { u.set x with st := .draining }).putRun i { r with phase := .drain x }))
      else .next s
    | _ => .next s
  | none => .next s

/-! ### The drain (R94, R108 to R111) -/

/-- What one output element gives: the exact combination of its clamped accumulators and whether one saturated (R108). -/
def Acc.combine (c : Acc) (fa fb : Nat) : Int × Bool :=
  let (h, sh) := clampInt 32 c.hh
  let (m, sm) := clampInt 32 c.mid
  let (l, sl) := clampInt 32 c.ll
  if fa = fmtQBI16 ∧ fb = fmtQBI16 then (h * 2 ^ 16 + m * 2 ^ 8 + l, sh || sm || sl)
  else if fa = fmtQBI16 ∨ fb = fmtQBI16 then (h * 2 ^ 8 + l, sh || sl)
  else (h, sh)

/-- A drained element: its exact value `m × 2^e` (none: the NaN of R108) and whether it saturated. -/
structure Drained where
  value : Option (Int × Int)
  sat : Bool
deriving DecidableEq, Repr

/-- Element `(r, c)` of a set at drain, with scale S (R70, R108, R110). -/
def AccSet.drained (a : AccSet) (S : Int) (r c : Nat) : Drained :=
  let e := Store.get {} a.elems (r * 64 + c)
  let (fa, fb) := a.fmts.getD (fmtINT8, fmtINT8)
  if e.nan then ⟨none, false⟩
  else
    let (v, sat) := e.combine fa fb
    ⟨some (v, e.frame.getD 0 - fmtBias fa - fmtBias fb + S), sat⟩

/-- The FP32 value of a drained element (R73). -/
def Drained.fp (x : Drained) : Word := match x.value with | none => fpNaN | some (m, e) => fpRound m e

/-- What a drain or conversion writes, and the conditions it met. -/
structure Output where
  bytes : List (Nat × Byte) := []
  conds : Conds := {}
deriving DecidableEq, Repr

/-- Bytes placed from an address on. -/
def placed (a : Nat) (bs : List Byte) : List (Nat × Byte) := bs.zipIdx.map (fun x => (a + x.2, x.1))

/-- R111, `row_sum`: one level of the pairwise tree. -/
def pairLevel : List Word → List Word
  | a :: b :: rest => fpAdd a b :: pairLevel rest
  | rest => rest

/-- `n` levels of the pairwise tree. -/
def pairTree : Nat → List Word → List Word
  | 0, xs => xs
  | n + 1, xs => pairTree n (pairLevel xs)

/-- The row sum of R111 over 64 places. -/
def rowSum (vs : List Word) : Word := (pairTree 6 (vs ++ List.replicate (64 - vs.length) 0)).headD 0

/-- The maximum of R111; of no values: the canonical NaN is not formed, the place reads +0. -/
def rowMax : List Word → Word
  | [] => 0
  | v :: vs => vs.foldl fpMax (fpMax v v)

/-- One drained line of 64 places in FP32, INT or QBI form (R94, R110). `elems`: the line's elements with their row and column, in
line order. -/
def drainLine (d l : Nat) (elems : List (Drained × Nat × Nat)) : Output :=
  let f := TD.cFmt d
  let base := shelfTile (TD.cBase d) * 2 ^ 21
  let addr := base + shelfOff (TD.cBase d) + l * TD.cStride d * blockBytes f
  let idx (r c : Nat) : Nat := TD.origin d + r * TD.pitch d + c
  if f = fmtFP32 then
    { bytes := placed addr (elems.flatMap (fun x => leBytes 4 x.1.fp.toNat))
      conds := { nf := (elems.find? (fun x => fpNonfinite x.1.fp && x.1.value.isSome)).map (fun x => ⟨x.2.1 * 64 + x.2.2, 1, 1⟩) } }
  else if fmtIsQbi f then
    let w := fmtWidth f
    let n := elems.length
    let q := quantBlock (elems.map (fun x => x.1.fp) ++ List.replicate (64 - n) 0)
      ((List.range 64).map (fun i => n ≤ i)) w (if TD.preset d then some (TD.ePreset d) else none) (TD.rounding d) (TD.residue d)
      (fun i => match elems[i]? with | some x => idx x.2.1 x.2.2 | none => 0)
    let pos (i : Nat) : Nat := match elems[i]? with | some x => x.2.1 * 64 + x.2.2 | none => 0
    let cause (i : Nat) : Nat := match elems[i]? with | some x => if x.1.value.isSome then 1 else 2 | none => 2
    { bytes := placed addr (packElems w q.block.man)
        ++ placed (base + TD.cExp d + l * TD.cStride d) [BitVec.ofNat 8 q.block.exp]
        ++ (if TD.residue d then placed (base + TD.cAux d + l * TD.cStride d * 64) (packElems 8 q.block.res) else [])
      conds := { nf := q.nonfinite.map (fun i => ⟨pos i, 2, cause i⟩), sat := q.saturated.map (fun i => ⟨pos i, 2, 1⟩) } }
  else
    let w := fmtWidth f
    let conv (x : Drained × Nat × Nat) : Int × Bool :=
      match x.1.value with
      | none => (0, false)
      | some (m, e) => clampInt w (roundBy (TD.rounding d) (idx x.2.1 x.2.2) m e)
    let vs := elems.map (fun x => (conv x).1)
    let pad := if f = fmtINT32 then [] else List.replicate (64 - vs.length) (0 : Int)
    { bytes := placed addr (packElems w (vs ++ pad))
      conds := { nf := (elems.find? (fun x => x.1.value.isNone)).map (fun x => ⟨x.2.1 * 64 + x.2.2, 2, 2⟩)
                 sat := (elems.find? (fun x => (conv x).2)).map (fun x => ⟨x.2.1 * 64 + x.2.2, 2, 1⟩) } }

/-- Row statistics (R111): 64 maxima and 64 sums at C_AUX. -/
def rowStats (d : Nat) (a : AccSet) : Output :=
  let base := shelfTile (TD.cBase d) * 2 ^ 21 + TD.cAux d
  let row (r : Nat) : List Word := (List.range (TD.cols d)).map (fun c => (a.drained (TD.scale d) r c).fp)
  let inR (r : Nat) : Bool := r < TD.rows d
  let mx := (List.range 64).flatMap (fun r => leBytes 4 (if inR r then rowMax (row r) else 0#32).toNat)
  let sm := (List.range 64).flatMap (fun r => leBytes 4 (if inR r then rowSum (row r) else 0#32).toNat)
  let bad := (List.range (TD.rows d)).find? (fun r => fpNonfinite (rowSum (row r)) && (row r).all (fun v => !fpNonfinite v))
  { bytes := placed base (mx ++ sm), conds := { nf := bad.map (fun r => ⟨r * 64 + 63, 1, 1⟩) } }

/-- The whole output of a drain of a set (R94, R108 to R111): conditions of accumulation first, then those of conversion, at the lowest
row and column. -/
def drainOutput (d : Nat) (a : AccSet) : Output :=
  let S := TD.scale d
  let rows := List.range (TD.rows d)
  let cols := List.range (TD.cols d)
  if TD.rows d = 0 ∨ TD.cols d = 0 then {} else
  let lines := if TD.cT d
    then cols.map (fun c => drainLine d c (rows.map (fun r => (a.drained S r c, r, c))))
    else rows.map (fun r => drainLine d r (cols.map (fun c => (a.drained S r c, r, c))))
  let stats := if TD.rowstat d then [rowStats d a] else []
  let all := rows.flatMap (fun r => cols.map (fun c => (a.drained S r c, r, c)))
  let accNf := (all.find? (fun x => x.1.value.isNone)).map (fun x => (⟨x.2.1 * 64 + x.2.2, 0, 2⟩ : NumPos))
  let accSat := (all.find? (fun x => x.1.sat)).map (fun x => (⟨x.2.1 * 64 + x.2.2, 0, 0⟩ : NumPos))
  let lowest (ps : List NumPos) : Option NumPos :=
    ps.foldl (fun b p => match b with | none => some p | some q => if p.element < q.element then some p else some q) none
  let outs := lines ++ stats
  { bytes := outs.flatMap (·.bytes)
    conds := { nf := lowest (accNf.toList ++ outs.filterMap (·.conds.nf)), sat := lowest (accSat.toList ++ outs.filterMap (·.conds.sat)) } }

/-- Bytes written to the Shelves. -/
def State.shelfPut (s : State) (bs : List (Nat × Byte)) : State :=
  { s with shelf := bs.foldl (fun m b => Store.set 0 m b.1 b.2) s.shelf }

/-- SET_FREE (R104, R108 to R110): the drain's output is written, its conditions are flagged, the set returns to zeros and becomes FREE,
or ACTIVE if no set is. -/
def execSetFree (t : Fin 256) (s : State) : Host.Outcome State Fault Refusal :=
  let u := s.tile t
  match u.findOp (fun r => match r.phase with | .drain _ => true | _ => false) with
  | some (i, r) =>
    match r.phase with
    | .drain x =>
      let o := drainOutput r.desc (u.set x)
      let u1 := u.putRun i { r with phase := .ready, nf := o.conds.nf.isSome, sat := o.conds.sat.isSome }
      let u2 := u1.putSet x { st := if u.activeSet.isNone then .active else .free }
      .next (((s.shelfPut o.bytes).putTile t u2).flagConds (mxePage t) t (descOpId r.desc) o.conds)
    | _ => .next s
  | none => .next s

/-! ### CONVERT and EXPAND (R90, R94) -/

/-- The FP32 words of source block `b` of line `r` of a CONVERT. -/
def State.sourceWords (s : State) (d r b : Nat) : List Word :=
  let a := shelfTile (TD.aBase d) * 2 ^ 21 + shelfOff (TD.aBase d) + (r * TD.aStride d + b) * 256
  (List.range 64).map (fun i => BitVec.ofNat 32 (leNat (Store.read 0 s.shelf (a + 4 * i) 4)))

/-- One block of a CONVERT (R94). -/
def State.convertBlock (s : State) (d r b : Nat) : Output :=
  let f := TD.cFmt d
  let w := fmtWidth f
  let xs := s.sourceWords d r b
  let base := shelfTile (TD.cBase d) * 2 ^ 21
  let blk := r * TD.cStride d + b
  let addr := base + shelfOff (TD.cBase d) + blk * blockBytes f
  let el (i : Nat) : Nat := 64 * b + i
  let idx (i : Nat) : Nat := TD.origin d + r * TD.pitch d + el i
  let pad (i : Nat) : Bool := TD.pitch d ≤ el i
  let pos (i : Nat) : Nat := (r * 64 + i) % 4096
  if fmtIsQbi f then
    let q := quantBlock xs ((List.range 64).map pad) w (if TD.preset d then some (TD.ePreset d) else none) (TD.rounding d) (TD.residue d) idx
    { bytes := placed addr (packElems w q.block.man) ++ placed (base + TD.cExp d + blk) [BitVec.ofNat 8 q.block.exp]
        ++ (if TD.residue d then placed (base + TD.cAux d + blk * 64) (packElems 8 q.block.res) else [])
      conds := { nf := q.nonfinite.map (fun i => ⟨pos i, 2, 2⟩), sat := q.saturated.map (fun i => ⟨pos i, 2, 1⟩) } }
  else
    let conv := xs.zipIdx.map (fun x => if pad x.2 then (0, false, false) else fpToInt w (TD.scale d) (TD.rounding d) (idx x.2) x.1)
    { bytes := placed addr (packElems w (conv.map (·.1)))
      conds := { nf := (firstIdx (fun x : Int × Bool × Bool => x.2.1) conv 0).map (fun i => ⟨pos i, 2, 2⟩)
                 sat := (firstIdx (fun x : Int × Bool × Bool => x.2.2) conv 0).map (fun i => ⟨pos i, 2, 1⟩) } }

/-- One block of an EXPAND: every value times 2^S, rounded once (R69, R90). The condition's unit is 1 (log 24). -/
def State.expandBlock (s : State) (d r b : Nat) : Output :=
  let f := TD.aFmt d
  let src := r * TD.aStride d + b
  let vs := (List.range 64).map (fun i =>
    let (m, e) := s.elemAt (TD.aBase d) (TD.aExp d) f src i
    if fmtIsQbi f then fpPackScaled (qbiValue (fmtWidth f) e m) (TD.scale d) else intToFp m (TD.scale d))
  let addr := shelfTile (TD.cBase d) * 2 ^ 21 + shelfOff (TD.cBase d) + (r * TD.cStride d + b) * 256
  let bad := firstIdx fpNonfinite vs 0
  let srcBad := fmtIsQbi f && (s.elemAt (TD.aBase d) (TD.aExp d) f src 0).2 == 255
  { bytes := placed addr (vs.flatMap (fun v => leBytes 4 v.toNat))
    conds := { nf := bad.map (fun i => ⟨(r * 64 + i) % 4096, 1, if srcBad then 2 else 1⟩) } }

/-- All blocks of a CONVERT or EXPAND in line order, the first conditions found. -/
def State.blockOutputs (s : State) (d : Nat) (one : Nat → Nat → Output) : Output :=
  let _ := s
  let outs := (List.range (TD.rows d)).flatMap (fun r => (List.range (TD.kblk d)).map (fun b => one r b))
  outs.foldl (fun o x => { bytes := o.bytes ++ x.bytes, conds := o.conds.or x.conds }) {}

/-- A CONVERT or EXPAND takes the idle converter once no earlier drain waits for it, and writes its output (R105). -/
def State.convertOp (s : State) (t op : Nat) : State :=
  let u := s.tile t
  match u.findOp (fun r => match r.phase with
      | .ready => false | .signal => false | .clear => false | .accum _ => descOpcode r.desc == opMmaDrain | _ => true) with
  | some (i, r) =>
    if r.phase = .convert ∧ descOpcode r.desc = op ∧ u.converterIdle then
      let o := s.blockOutputs r.desc (if op = opConvert then s.convertBlock r.desc else s.expandBlock r.desc)
      ((s.shelfPut o.bytes).putTile t (u.putRun i { r with phase := .ready, nf := o.conds.nf.isSome, sat := o.conds.sat.isSome })).flagConds
        (mxePage t) t (descOpId r.desc) o.conds
    else s
  | none => s

/-- CONVERT (R94). -/
def execConvertT (t : Fin 256) (s : State) : Host.Outcome State Fault Refusal := .next (s.convertOp t opConvert)

/-- EXPAND (R90). -/
def execExpandT (t : Fin 256) (s : State) : Host.Outcome State Fault Refusal := .next (s.convertOp t opExpand)

/-- MXE_SIGNAL (R95): a SIGNAL is ready to complete once every earlier operation of the tile has. -/
def execMxeSignal (t : Fin 256) (s : State) : Host.Outcome State Fault Refusal :=
  let u := s.tile t
  match u.started with
  | r :: _ => if r.phase = .signal then .next (s.putTile t (u.putRun 0 { r with phase := .ready })) else .next s
  | [] => .next s

/-- The report of a completed operation: MXE_LAST, the counts, the numeric completion and the tally of its die (R95, R101). -/
def State.tileReport (s : State) (t : Nat) (r : TileRun) : State :=
  let st := completedStatus r.nf r.sat false
  let p := tilPage t
  let s := (s.mxeLast t r.desc st).bump p F.til.MXE_OPS_COUNT 1
  let s := if r.nf then s.bump p (F.com.EVT_CNT 4) 1 else if r.sat then s.bump p (F.com.EVT_CNT 5) 1 else s
  let s := s.numericCompletion (mxePage t) r.nf r.sat
  let s := if descTallyEn r.desc then s.notify (t / 128) (descTally r.desc) 1 (srcCode 1 t) else s
  s.noteRun st

/-- TILE_OP_COMPLETE (R95): the oldest operation whose writes are issued reports and leaves. -/
def execTileOpComplete (t : Fin 256) (s : State) : Host.Outcome State Fault Refusal :=
  let u := s.tile t
  match u.findOp (fun r => r.phase = .ready) with
  | some (i, r) => .next ((s.putTile t { u with started := u.started.eraseIdx i }).tileReport t r)
  | none => .next s

end Sys2Proof.Machine
end

