-- ==== Sys2Proof/Machine/Vec.lean ====
section
/-! DEFINITION. The vector engine of a tile (R116 to R145): instruction fields, the check of a descriptor, binding, the running of a
program instruction by instruction, completion, and the summary slots (R138, R139). -/

namespace Sys2Proof.Machine

/-! ### Instruction fields (R118) -/

namespace VI
def op (w : Nat) : Nat := w % 256
def vd (w : Nat) : Nat := bitsOf w 8 5
def va (w : Nat) : Nat := bitsOf w 13 5
def vb (w : Nat) : Nat := bitsOf w 18 5
def bs (w : Nat) : Bool := bitAt w 23
def bi (w : Nat) : Bool := bitAt w 24
def pred (w : Nat) : Nat := bitsOf w 25 3
def pneg (w : Nat) : Bool := bitAt w 28
def imm (w : Nat) : Nat := bitsOf w 32 32
/-- The signed scale S in IMM[7:0]. -/
def s8 (w : Nat) : Int := signedOf 8 (imm w)
end VI

/-! ### Registers -/

/-- Lane `l` of a vector register. -/
def Tile.lane (u : Tile) (r l : Nat) : Word := (Store.get zeroLanes u.v r).getD l 0

/-- Lane `l` of a predicate register; P0 reads as all ones (R116). -/
def Tile.predLane (u : Tile) (r l : Nat) : Bool := if r = 0 then true else (Store.get 0 u.p r).getLsbD l

/-- A scalar register. -/
def Tile.scalar (u : Tile) (r : Nat) : Word := Store.get 0 u.sc r

/-- The tile with a scalar register written. -/
def Tile.putScalar (u : Tile) (r : Nat) (v : Word) : Tile := { u with sc := Store.set 0 u.sc r v }

/-- The tile with a predicate register written; writes to P0 are discarded (R116). -/
def Tile.putPred (u : Tile) (r : Nat) (f : Nat → Bool) : Tile :=
  if r = 0 then u
  else { u with p := Store.set 0 u.p r (BitVec.ofNat 128 ((List.range 128).foldl (fun a l => if f l then a + 2 ^ l else a) 0)) }

/-- The tile with the lanes of a vector register written where the gate is open. -/
def Tile.putLanes (u : Tile) (r : Nat) (gate : Nat → Bool) (f : Nat → Word) : Tile :=
  { u with v := Store.set zeroLanes u.v r ((List.range 128).map (fun l => if gate l then f l else u.lane r l)) }

/-- The gate of an instruction: lane `l` of PRED, complemented by PNEG (R118, R120). -/
def Tile.gate (u : Tile) (w : Nat) (l : Nat) : Bool := u.predLane (VI.pred w) l != VI.pneg w

/-- First source, lane `l`. -/
def Tile.srcA (u : Tile) (w l : Nat) : Word := u.lane (VI.va w) l

/-- Second source, lane `l`: a vector lane, a broadcast scalar, or the immediate (R118). -/
def Tile.srcB (u : Tile) (w l : Nat) : Word :=
  if VI.bi w then BitVec.ofNat 32 (VI.imm w) else if VI.bs w then u.scalar (VI.vb w % 16) else u.lane (VI.vb w) l

/-- What an instruction does: the tile after it, bytes stored, conditions met, FP32 operations and table evaluations counted, a summary
sent, store errors corrected, an uncorrectable one met. -/
structure VEff where
  tile : Tile
  bytes : List (Nat × Byte) := []
  conds : Conds := {}
  flops : Nat := 0
  evals : Nat := 0
  msg : Option Summary := none
  corr : Nat := 0
  broken : Bool := false
deriving DecidableEq, Repr

/-- The cause of a non-finite result (R78): 2 with a non-finite input, else 0 for a NaN, 1 for an infinity. -/
def nfCause (inputs : List Word) (v : Word) : Nat := if inputs.any fpNonfinite then 2 else if fpIsNaN v then 0 else 1

/-- The first gated lane with a non-finite result. -/
def laneNf (gate : Nat → Bool) (f : Nat → Word) (ins : Nat → List Word) (unit : Nat) : Option NumPos :=
  ((List.range 128).find? (fun l => gate l && fpNonfinite (f l))).map (fun l => ⟨l, unit, nfCause (ins l) (f l)⟩)

/-- A lane-wise FP32 instruction: gated lanes take `f`, non-finite results are recorded (R60, R120, R121). -/
def vecFp (u : Tile) (w : Nat) (f : Nat → Word) (ins : Nat → List Word) (flops : Nat) (unit : Nat := 3) : VEff :=
  { tile := u.putLanes (VI.vd w) (u.gate w) f, conds := { nf := laneNf (u.gate w) f ins unit }, flops := flops }

/-- A lane-wise INT32 instruction that saturates (R56): CAUSE 0 of UNIT 3. -/
def vecInt (u : Tile) (w : Nat) (f : Nat → Int) : VEff :=
  { tile := u.putLanes (VI.vd w) (u.gate w) (fun l => (sat32 (f l)).1)
    conds := { sat := ((List.range 128).find? (fun l => u.gate w l && (sat32 (f l)).2)).map (fun l => ⟨l, 3, 0⟩) } }

/-- A lane-wise instruction that copies or moves bits: no condition (R60, R121). -/
def vecBits (u : Tile) (w : Nat) (f : Nat → Word) : VEff := { tile := u.putLanes (VI.vd w) (u.gate w) f }

/-- A comparison: gated lanes of P[VD] take it, the others keep theirs (R119, R120). -/
def vecCmp (u : Tile) (w : Nat) (f : Nat → Bool) : VEff :=
  { tile := u.putPred (VI.vd w % 8) (fun l => if u.gate w l then f l else u.predLane (VI.vd w % 8) l) }

/-! ### Memory (R123) -/

/-- Address register `r` plus a byte offset, modulo 2³² (R84, R116). -/
def Tile.addr (u : Tile) (r off : Nat) : Nat := ((Store.get 0 u.ad r).toNat + off) % 2 ^ 32

/-- The Shelf key of a Shelf-range address. -/
def shelfKey (a : Nat) : Nat := shelfTile a * 2 ^ 21 + shelfOff a

/-- The word at a Shelf-range address. -/
def State.shelfWord (s : State) (a : Nat) : Word := BitVec.ofNat 32 (leNat (Store.read 0 s.shelf (shelfKey a) 4))

/-- The byte offset IMM[31:16] × 64 of LD and ST. -/
def ldOffset (w : Nat) : Nat := bitsOf (VI.imm w) 16 16 * 64

/-! ### Function tables (R134 to R137) -/

namespace TH
def kind (h : Nat) : Nat := fieldAt h 0x10 0 4
def subkind (h : Nat) : Nat := fieldAt h 0x10 4 4
def symV (h : Nat) : Nat := fieldAt h 0x10 8 2
def symD (h : Nat) : Nat := fieldAt h 0x10 10 2
def lo (h : Nat) : Nat := fieldAt h 0x14 0 32
def hExp (h : Nat) : Nat := fieldAt h 0x18 0 8
def eLo (h : Nat) : Nat := fieldAt h 0x18 8 8
def b (h : Nat) : Nat := fieldAt h 0x18 16 4
end TH

/-- Segment and offset of a uniform table (R135). -/
def uniformSeg (h : Nat) (x : Fp) : Nat × Word :=
  let he : Int := (TH.hExp h : Int) - 127
  let width := fpRound 1 he
  match x with
  | .inf true => (0, 0)
  | .inf false => (2047, width)
  | x =>
    let (m, e) := fpExact x
    let (lm, le) := fpExact (fpOf (BitVec.ofNat 32 (TH.lo h)))
    let (dm, de) := dyAdd m e (-lm) le
    if dm < 0 then (0, 0) else
      let s := floorInt dm (de - he)
      if 2048 ≤ s then (2047, width) else
        let (tm, te) := dyAdd dm de (-s) he
        (s.toNat, fpRound tm te)

/-- Segment and offset of an exponent-indexed table (R135). -/
def exponentSeg (h : Nat) (x : Word) : Nat × Word :=
  let n := x.toNat
  let eb := bitsOf n 23 8
  let b := TH.b h
  let lastExp : Int := (TH.eLo h + 2047 / 2 ^ b : Nat)
  let width := fpRound 1 (lastExp - 127 - b)
  if 2 ^ 31 ≤ n ∨ eb < TH.eLo h then (0, 0)
  else
    let s := (eb - TH.eLo h) * 2 ^ b + bitsOf n (23 - b) b
    if eb = 255 ∨ 2048 ≤ s then (2047, width)
    else (s, fpRound ((n % 2 ^ (23 - b) : Nat) : Int) ((eb : Int) - 150))

/-- Segment and offset by kind; a mirrored table works on |x| (R135). -/
def tableSeg (h : Nat) (x : Word) : Nat × Word :=
  let by_ (k : Nat) (y : Word) : Nat × Word := if k = 1 then uniformSeg h (fpOf y) else exponentSeg h y
  if TH.kind h = 3 then by_ (TH.subkind h) (BitVec.ofNat 32 (x.toNat % 2 ^ 31)) else by_ (TH.kind h) x

/-- A member evaluated at `x` from the coefficients of its segment, with the symmetry of a mirrored table (R136). -/
def tableValue (h sym : Nat) (c0 c1 c2 : Word) (tau x : Word) : Word :=
  if fpIsNaN x then fpNaN else
    let y := fpFma (fpFma c2 tau c1) tau c0
    if TH.kind h = 3 ∧ sym = 1 ∧ !fpIsNaN y then
      BitVec.ofNat 32 (y.toNat % 2 ^ 31 + (if 2 ^ 31 ≤ x.toNat then 2 ^ 31 else 0))
    else y

/-- The coefficients of a segment after its (104,96) check (R134). -/
def segCheck (r : Nat) : CheckResult := secDecode 96 7 (r % 2 ^ 96) (bitsOf r 96 8)

/-- TBLV and TBLD: the member at each gated lane's input (R136, R137). -/
def vecTable (u : Tile) (w : Nat) (deriv : Bool) : VEff :=
  match Store.get none u.tables (VI.imm w % 4) with
  | none => { tile := u }
  | some t =>
    let segs := if deriv then t.deriv else t.value
    let sym := if deriv then TH.symD t.header else TH.symV t.header
    let look (l : Nat) : CheckResult := segCheck (segs.getD (tableSeg t.header (u.srcA w l)).1 0)
    let coeff (l : Nat) : Nat := match look l with | .clean d => d | .corrected d => d | .failed => 0
    let val (l : Nat) : Word :=
      let c := coeff l
      tableValue t.header sym (BitVec.ofNat 32 c) (BitVec.ofNat 32 (c >>> 32)) (BitVec.ofNat 32 (c >>> 64))
        (tableSeg t.header (u.srcA w l)).2 (u.srcA w l)
    let gated := (List.range 128).filter (u.gate w)
    if gated.any (fun l => look l = .failed) then { tile := u, broken := true }
    else { vecFp u w val (fun l => [u.srcA w l, BitVec.ofNat 32 (coeff l), BitVec.ofNat 32 (coeff l >>> 32), BitVec.ofNat 32 (coeff l >>> 64)])
             (4 * 128) 4 with
           evals := 128
           corr := (gated.filter (fun l => match look l with | .corrected _ => true | _ => false)).length }

/-! ### Reductions (R122) -/

/-- One level of a pairwise tree under an operation. -/
def pairWith (f : Word → Word → Word) : List Word → List Word
  | a :: b :: rest => f a b :: pairWith f rest
  | rest => rest

/-- `n` levels of a pairwise tree. -/
def treeWith (f : Word → Word → Word) : Nat → List Word → List Word
  | 0, xs => xs
  | n + 1, xs => treeWith f n (pairWith f xs)

/-- SREDSUM and SREDMAX: one seven-level tree into S[VD], or two six-level trees into S[VD] and S[VD + 1]. -/
def vecReduce (u : Tile) (w : Nat) (f : Word → Word → Word) : VEff :=
  let xs := (List.range 128).map (u.srcA w)
  let cond (ins : List Word) (v : Word) : Option NumPos := if fpNonfinite v then some ⟨0, 3, nfCause ins v⟩ else none
  let one (n : Nat) (ys : List Word) : Word := (treeWith f n ys).headD 0
  if bitAt (VI.imm w) 0 then
    let a := one 6 (xs.take 64)
    let b := one 6 (xs.drop 64)
    { tile := (u.putScalar (VI.vd w) a).putScalar (VI.vd w + 1) b
      conds := { nf := (cond (xs.take 64) a).orElse fun _ => cond (xs.drop 64) b }, flops := 126 }
  else
    let a := one 7 xs
    { tile := u.putScalar (VI.vd w) a, conds := { nf := cond xs a }, flops := 127 }

/-- A scalar instruction (lane 0 in records, R121). -/
def vecScalar (u : Tile) (w : Nat) (f : Word → Word → Word) : VEff :=
  let a := u.scalar (VI.va w % 16)
  let b := u.scalar (VI.vb w % 16)
  let v := f a b
  { tile := u.putScalar (VI.vd w % 16) v, conds := { nf := if fpNonfinite v then some ⟨0, 3, nfCause [a, b] v⟩ else none }, flops := 1 }

/-! ### LDX and STQ (R123, R124) -/

/-- The two blocks LDX reads, expanded (R69, R123). -/
def vecLdx (s : State) (u : Tile) (w : Nat) : VEff :=
  let im := VI.imm w
  let f := bitsOf im 8 4
  let S := signedOf 8 (bitsOf im 16 8)
  let m := shelfKey (u.addr (im % 8) 0)
  let e := shelfKey (u.addr (bitsOf im 4 3) 0)
  let bw := fmtWidth f
  let man (b : Nat) : List Int := unpackElems bw (Store.read 0 s.shelf (m + b * blockBytes f) (blockBytes f)) 64
  let ex (b : Nat) : Nat := (Store.get 0 s.shelf (e + b)).toNat
  let val (l : Nat) : Word :=
    let b := l / 64
    let x := (man b).getD (l % 64) 0
    if fmtIsQbi f then fpPack (qbiValue bw (ex b) x) else intToFp x S
  let bad := (List.range 128).find? (fun l => fpNonfinite (val l))
  let vals := (List.range 128).map val
  { tile := { u with v := Store.set zeroLanes u.v (VI.vd w) vals }
    conds := { nf := bad.map (fun l => ⟨l, 5, if fmtIsQbi f then 2 else 1⟩) } }

/-- One half STQ converts: bytes and conditions (R124). -/
def stqHalf (u : Tile) (w step tid h : Nat) : Output :=
  let im := VI.imm w
  let f := bitsOf im 12 4
  let bw := fmtWidth f
  let rnd : Rounding := if bitAt im 17 then .dither step tid else .nearest
  let xs := (List.range 64).map (fun i => u.srcA w (64 * h + i))
  let idx (i : Nat) : Nat := u.x.toNat + (2 * bitsOf im 20 4 + h) * u.xpitch.toNat + i
  let m := shelfKey (u.addr (im % 8) (h * blockBytes f))
  if fmtIsQbi f then
    let q := quantBlock xs (List.replicate 64 false) bw (if bitAt im 16 then some (bitsOf im 24 8) else none) rnd (bitAt im 18) idx
    { bytes := placed m (packElems bw q.block.man) ++ placed (shelfKey (u.addr (bitsOf im 4 3) h)) [BitVec.ofNat 8 q.block.exp]
        ++ (if bitAt im 18 then placed (shelfKey (u.addr (bitsOf im 8 3) (64 * h))) (packElems 8 q.block.res) else [])
      conds := { nf := q.nonfinite.map (fun i => ⟨64 * h + i, 5, 2⟩), sat := q.saturated.map (fun i => ⟨64 * h + i, 5, 1⟩) } }
  else
    let conv := xs.zipIdx.map (fun x => fpToInt bw (signedOf 8 (bitsOf im 24 8)) rnd (idx x.2) x.1)
    { bytes := placed m (packElems bw (conv.map (·.1)))
      conds := { nf := (firstIdx (fun x : Int × Bool × Bool => x.2.1) conv 0).map (fun i => ⟨64 * h + i, 5, 2⟩)
                 sat := (firstIdx (fun x : Int × Bool × Bool => x.2.2) conv 0).map (fun i => ⟨64 * h + i, 5, 1⟩) } }

/-- STQ: both halves (R124). -/
def vecStq (u : Tile) (w d : Nat) : VEff :=
  let a := stqHalf u w (fieldAt d 0x30 0 32) (fieldAt d 0x34 0 32) 0
  let b := stqHalf u w (fieldAt d 0x30 0 32) (fieldAt d 0x34 0 32) 1
  { tile := u, bytes := a.bytes ++ b.bytes, conds := a.conds.or b.conds }

/-! ### Programs: what an instruction stream holds (R127) -/

/-- The 64 bits of a stored instruction after its check byte (R126). -/
def instrCheck (c : Nat) : CheckResult := secDecode 64 7 (c % 2 ^ 64) (bitsOf c 64 8)

/-- The instruction at an index of a program, any single error put right; none where it cannot be read. -/
def ProgSlot.instr (p : ProgSlot) (i : Nat) : Option Nat :=
  match p.code[i]? with
  | none => none
  | some c => match instrCheck c with | .clean d => some d | .corrected d => some d | .failed => none

/-- Opcodes of R119. -/
def vecOpKnown (o : Nat) : Bool :=
  o ≤ 0x0C || (0x10 ≤ o && o ≤ 0x19) || (0x20 ≤ o && o ≤ 0x29) || o == 0x30 || o == 0x31 || (0x38 ≤ o && o ≤ 0x3B)
  || (0x40 ≤ o && o ≤ 0x46) || o == 0x48 || (0x50 ≤ o && o ≤ 0x52) || (0x58 ≤ o && o ≤ 0x5A)

/-- One instruction meets R118, R119 and R127 by itself. -/
def instrOk (w : Nat) : Bool :=
  let o := VI.op w
  let im := VI.imm w
  vecOpKnown o && bitsOf w 29 3 == 0 && !(VI.bs w && VI.bi w) && !(VI.bs w && 16 ≤ VI.vb w)
  && ((1 ≤ o && o ≤ 0x31) || (VI.pred w == 0 && !VI.pneg w))
  && !(o == 0x04 && VI.bi w)
  && !(0x20 ≤ o && o ≤ 0x26 && 8 ≤ VI.vd w)
  && !(0x24 ≤ o && o ≤ 0x26 && 8 ≤ VI.va w) && !((o == 0x24 || o == 0x25) && 8 ≤ VI.vb w)
  && !(0x40 ≤ o && o ≤ 0x46 && 16 ≤ VI.vd w)
  && !(0x42 ≤ o && o ≤ 0x44 && (16 ≤ VI.va w || 16 ≤ VI.vb w))
  && !((o == 0x45 || o == 0x46) && bitAt im 0 && (VI.vd w % 2 == 1 || 14 < VI.vd w))
  && !(o == 0x48 && 16 ≤ VI.va w + im % 4)
  && !(o == 0x3A && !mmaFmt (bitsOf im 8 4))
  && !(o == 0x3B && (!mmaFmt (bitsOf im 12 4) || (bitAt im 18 && bitsOf im 12 4 != fmtQBI8)
        || bitAt im 3 || bitAt im 7 || bitAt im 11 || bitAt im 19))

/-- The stream of an entry: prologue, body and epilogue, each without its marker; none where R127's order is broken. -/
def ProgSlot.stream (p : ProgSlot) (entry : Nat) : Option (List Nat × List Nat × List Nat) :=
  let ws := (List.range (p.code.length - entry)).map (fun i => (p.instr (entry + i)).getD 0)
  let pro := ws.takeWhile (fun w => VI.op w != 0x58)
  let r1 := (ws.dropWhile (fun w => VI.op w != 0x58)).drop 1
  let body := r1.takeWhile (fun w => VI.op w != 0x59)
  let hasEnd := (r1.dropWhile (fun w => VI.op w != 0x59)).length != 0
  let r2 := (r1.dropWhile (fun w => VI.op w != 0x59)).drop 1
  let epi := r2.takeWhile (fun w => VI.op w != 0x5A)
  let hasHalt := (r2.dropWhile (fun w => VI.op w != 0x5A)).length != 0
  let inc (w : Nat) : Bool := 0x50 ≤ VI.op w && VI.op w ≤ 0x52
  let mark (w : Nat) : Bool := 0x58 ≤ VI.op w && VI.op w ≤ 0x5A
  let sum (w : Nat) : Bool := VI.op w == 0x48
  if pro.length < ws.length && hasEnd && hasHalt && (pro ++ body ++ epi).all instrOk
      && !(pro ++ body ++ epi).any mark && !(body ++ epi).any inc && !(pro ++ body).any sum && (epi.filter sum).length ≤ 1
  then some (pro, body, epi) else none

/-- The Shelf accesses of an instruction: address register, byte offset, length, alignment (R123, R124). -/
def instrAccesses (w : Nat) : List (Nat × Nat × Nat × Nat) :=
  let im := VI.imm w
  match VI.op w with
  | 0x38 => [(im % 8, ldOffset w, 512, 64)]
  | 0x39 => [(im % 8, ldOffset w, 512, 64)]
  | 0x41 => [(im % 8, bitsOf im 16 16 * 4, 4, 4)]
  | 0x3A => let f := bitsOf im 8 4
            (im % 8, 0, 2 * blockBytes f, blockBytes f) :: (if fmtIsQbi f then [(bitsOf im 4 3, 0, 2, 1)] else [])
  | 0x3B => let f := bitsOf im 12 4
            (im % 8, 0, 2 * blockBytes f, blockBytes f) :: (if fmtIsQbi f then [(bitsOf im 4 3, 0, 2, 1)] else [])
              ++ (if bitAt im 18 then [(bitsOf im 8 3, 0, 128, 64)] else [])
  | _ => []

/-- The increment a prologue leaves in an address register (R119: AINC). -/
def prologueInc (pro : List Nat) (r : Nat) : Int :=
  pro.foldl (fun a w => if VI.op w = 0x50 ∧ VI.imm w % 8 = r then signedOf 24 (bitsOf (VI.imm w) 8 24) else a) 0

/-- Address registers an entry uses. -/
def usedRegs (ws : List Nat) : List Nat :=
  (List.range 8).filter (fun r => ws.any (fun w => (instrAccesses w).any (fun a => a.1 == r) || (VI.op w == 0x50 && VI.imm w % 8 == r)))

/-- One access from a register value stays in one Shelf and keeps its alignment (R84, R123). -/
def accessOk (base : Int) (a : Nat × Nat × Nat × Nat) : Bool :=
  let x := unsignedOf 32 (base + (a.2.1 : Int))
  x < 2 ^ 29 && shelfOff x % a.2.2.2 == 0 && shelfOff x + a.2.2.1 ≤ shelfEnd

/-- The tile an access reaches. -/
def accessTile (base : Int) (a : Nat × Nat × Nat × Nat) : Nat := shelfTile (unsignedOf 32 (base + (a.2.1 : Int)))

namespace VD
def pslot (d : Nat) : Nat := fieldAt d 0 16 2
def tslot (d : Nat) : Nat := fieldAt d 0 18 2
def entry (d : Nat) : Nat := fieldAt d 0 20 4
def sweeps (d : Nat) : Nat := fieldAt d 8 0 16
def image (d : Nat) : Nat := fieldAt d 8 16 8
def origin (d : Nat) : Nat := fieldAt d 0xC 0 32 + 2 ^ 32 * fieldAt d 8 24 8
def a (d r : Nat) : Nat := fieldAt d (0x10 + 4 * r) 0 32
def sumCore (d : Nat) : Nat := fieldAt d 0x38 0 2
def sumEn (d : Nat) : Bool := fieldAt d 0x38 2 1 == 1
def sumSlot (d : Nat) : Nat := fieldAt d 0x38 8 5
end VD

/-- Every access of a RUN, as (register value, access): the prologue's from A, the body's from A + k × increment, the epilogue's from
A + SWEEPS × increment (R130). -/
def runAccesses (d : Nat) (st : List Nat × List Nat × List Nat) : List (Int × Nat × Nat × Nat × Nat) :=
  let (pro, body, epi) := st
  let at_ (k r : Nat) : Int := (VD.a d r : Int) + (k : Int) * prologueInc pro r
  let part (ws : List Nat) (k : Nat) : List (Int × Nat × Nat × Nat × Nat) :=
    (ws.flatMap instrAccesses).map (fun a => (at_ k a.1, a))
  part pro 0 ++ (List.range (VD.sweeps d)).flatMap (part body) ++ part epi (VD.sweeps d)

/-! ### The check of a vector descriptor (R129, R130) -/

/-- The bits an opcode may set (R128, R129). -/
def vecFields (op : Nat) (sumEn : Bool) : List (Nat × Nat × Nat) :=
  [(0, 0, 4), (0, 8, 8), (4, 0, 32), (0x3C, 0, 10), (0x3C, 16, 12), (0x3C, 28, 1)] ++
  match op with
  | 1 => []
  | 2 => [(0, 16, 2), (0, 20, 4), (8, 0, 16), (8, 24, 8), (0xC, 0, 32)] ++ (List.range 8).map (fun r => (0x10 + 4 * r, 0, 32))
          ++ [(0x30, 0, 32), (0x34, 0, 32), (0x38, 2, 1)] ++ (if sumEn then [(0x38, 0, 2), (0x38, 8, 5)] else [])
  | 3 => [(0, 16, 2), (8, 16, 8)]
  | 4 => [(0, 18, 2), (8, 16, 8)]
  | _ => [(0, 16, 8), (8, 0, 32), (0xC, 0, 32)] ++ (List.range 8).map (fun r => (0x10 + 4 * r, 0, 32))
          ++ [(0x30, 0, 32), (0x34, 0, 32), (0x38, 0, 3), (0x38, 8, 5)]

/-- The program slot a RUN names. -/
def Tile.prog (u : Tile) (k : Nat) : Option ProgSlot := Store.get none u.progs k

/-- The directory of a die's image store: VALID and TYPE of an entry (R145). -/
def State.dirValid (s : State) (die k : Nat) : Bool := s.fon ⟨.vst, die⟩ (F.vst.DIR_VALID k)
def State.dirType (s : State) (die k : Nat) : Nat := s.fget ⟨.vst, die⟩ (F.vst.DIR_TYPE k)

/-- The checks of R49 on a vector descriptor, then SLOT_EMPTY (R130). -/
def State.vecCheck (s : State) (t d : Nat) : Option Nat :=
  let u := s.tile t
  let op := descOpcode d
  let die := t / 128
  let spare := d &&& (2 ^ 512 - 1 - maskOf (vecFields op (VD.sumEn d)))
  let slot := if op = 2 then u.prog (VD.pslot d) else none
  let st := slot.bind (fun p => (p.entries[VD.entry d]?).bind (fun e => p.stream e))
  let all := match st with | some (a, b, c) => a ++ b ++ c | none => []
  let accesses := match st with | some x => if VD.sweeps d = 0 then [] else runAccesses d x | none => []
  let strayA := st.isSome && (List.range 8).any (fun r => !(usedRegs all).contains r && VD.a d r != 0)
  let bind := op == 3 || op == 4
  let typ := if op = 3 then 1 else 2
  let tblEmpty := all.any (fun w => (VI.op w == 0x30 || VI.op w == 0x31) && (Store.get none u.tables (VI.imm w % 4)).isNone)
  firstFailure [
    (!s.versionOk (tilPage t) (fieldAt d 0 0 4), stVersion),
    (spare != 0 || strayA, stReservedSet),
    (!(1 ≤ op && op ≤ 4) || (bind && s.dirValid die (VD.image d) && s.dirType die (VD.image d) != typ), stFormat),
    ((bind && !s.dirValid die (VD.image d)) || (slot.isSome && st.isNone) || accesses.any (fun x => !accessOk x.1 x.2), stAddrRange),
    (!s.tileUp t || !s.fon (tilPage t) F.com.ENABLE || accesses.any (fun x => !s.tileUp (accessTile x.1 x.2)), stAccess),
    (op == 2 && (slot.isNone || tblEmpty), 0x82)]

/-- A descriptor refused: nothing moves (R49, R130). -/
def State.vecRefuse (s : State) (t d st : Nat) : State :=
  (((s.vecLast t d st).bump (tilPage t) F.til.VEC_REFUSED_COUNT 1).event (tilPage t) 14 st).noteRun st

/-- A vector descriptor that arrives: its check code first; then it is judged at once where no descriptor stands before it, where no
later judgement could accept it (the tile is disabled, the opcode does not exist), and otherwise when its turn comes, after the binds
before it (R43, R130, log 87). -/
def State.vecArrive (s : State) (t desc : Nat) (held : Bool) : State :=
  let p := tilPage t
  match checkStruct 64 desc with
  | .failed => (((s.vecLast t desc stCheckFailed).bump p F.til.VEC_FAILED_COUNT 1).event p 13 stCheckFailed).noteRun stCheckFailed
  | .clean d => go s d
  | .corrected d => go ((s.bump p F.til.VEC_CORR_COUNT 1).event p 12) d
where
  /-- The descriptor after its check code. -/
  go (s : State) (d : Nat) : State :=
    let u := s.tile t
    let now := (u.vrun.isNone && u.vqueue.isEmpty) || !s.tileUp t || !s.fon (tilPage t) F.com.ENABLE || descOpcode d == 0 || 4 < descOpcode d
    match if now then s.vecCheck t d else none with
    | some st => s.vecRefuse t d st
    | none => s.putTile t { u with vqueue := u.vqueue ++ [⟨d, held⟩] }

/-! ### Starting, binding, completing (R117, R127, R131, R132) -/

/-- The head of the queue, if the engine is idle, the tile enabled, and the head not held. -/
def State.vecHead (s : State) (t op : Nat) : Option (VecOp × List VecOp) :=
  let u := s.tile t
  match u.vrun, u.vqueue with
  | none, o :: rest => if o.held || descOpcode o.desc != op || !s.fon (tilPage t) F.com.ENABLE then none else some (o, rest)
  | _, _ => none

/-- The head's turn comes: it is refused under R130, or leaves the queue and is taken. -/
def State.vecTake (s : State) (t op : Nat) (act : State → VecOp → State) : State :=
  match s.vecHead t op with
  | none => s
  | some (o, rest) =>
    let s' := s.putTile t { s.tile t with vqueue := rest }
    match s.vecCheck t o.desc with
    | some st => s'.vecRefuse t o.desc st
    | none => act s' o

/-- The completion tally of a vector descriptor (source class 2). -/
def State.vecTally (s : State) (t d : Nat) : State :=
  if descTallyEn d then s.notify (t / 128) (descTally d) 1 (srcCode 2 t) else s

/-- VEC_SIGNAL (R129): the SIGNAL at the head completes with DONE. -/
def execVecSignal (t : Fin 256) (s : State) : Host.Outcome State Fault Refusal :=
  .next (s.vecTake t 1 fun s o => ((s.vecLast t o.desc stDone).vecTally t o.desc).noteRun stDone)

/-- The registers as a RUN starts (R117). -/
def Tile.fresh (u : Tile) (d : Nat) : Tile :=
  { u with v := [], sc := [], p := [], inc := [], xpitch := 0, xinc := 0, x := BitVec.ofNat 40 (VD.origin d),
           ad := (List.range 8).foldl (fun m r => Store.set 0 m r (BitVec.ofNat 32 (VD.a d r))) [] }

/-- RUN (R131): the RUN at the head starts: registers reset, the entry's first instruction next. With SWEEPS = 0 no instruction runs. -/
def execRun (t : Fin 256) (s : State) : Host.Outcome State Fault Refusal :=
  .next (s.vecTake t 2 fun s o =>
    let u := s.tile t
    let pc := ((u.prog (VD.pslot o.desc)).bind (fun p => p.entries[VD.entry o.desc]?)).getD 0
    s.putTile t { u.fresh o.desc with vrun := some { desc := o.desc, pc := pc, ended := VD.sweeps o.desc == 0 } })

/-- Little-endian field of an image held as bytes. -/
def imgField (b : List Byte) (off n : Nat) : Nat := leNat ((b.drop off).take n)

/-- A program image read from the die's store (R126): the slot, or the status the bind fails with (R127), and whether the header or an
instruction was corrected. -/
def parseProgram (b : List Byte) : Except Nat (ProgSlot × Nat) :=
  match checkStruct 64 (imgField b 0 64) with
  | .failed => .error 0x81
  | .clean h => go h 0
  | .corrected h => go h 1
where
  /-- The image after its header's check code. -/
  go (h corr : Nat) : Except Nat (ProgSlot × Nat) :=
    let n := fieldAt h 0x10 0 11
    let ne := fieldAt h 0x10 16 4 + (if fieldAt h 0x10 16 4 = 0 then 16 else 0)
    let raw := fieldAt h 0x10 16 5
    let code := (List.range n).map (fun i => imgField b (0x80 + 8 * i) 8 + 2 ^ 64 * imgField b (0x80 + 8 * n + i) 1)
    let ents := (List.range 16).map (fun e => imgField b (0x40 + 4 * e) 4)
    let good := (List.range 16).all (fun e =>
      let x := ents.getD e 0
      if e < ne then x % 1024 < n && x == x % 1024 + 2 ^ 31 else x == 0)
    let pad := (b.drop (0x80 + 9 * n)).all (· == 0)
    let okHeader := fieldAt h 0 8 8 == 0x21 && 1 ≤ n && n ≤ 1024 && 1 ≤ raw && raw ≤ 16
      && fieldAt h 8 0 24 == 0x80 + 8 * n + 64 * ((n + 63) / 64)
    let slot : ProgSlot := ⟨fieldAt h 0xC 0 32, (ents.take ne).map (· % 1024), code⟩
    if !okHeader then .error stFormat
    else if code.any (fun c => instrCheck c = .failed) then .error 0x81
    else if !good || !pad || slot.entries.any (fun e => (slot.stream e).isNone) then .error stFormat
    else .ok (slot, corr + (code.filter (fun c => match instrCheck c with | .corrected _ => true | _ => false)).length)

/-- A function-table image read from the die's store (R134). -/
def parseTable (b : List Byte) : Except Nat (TableSlot × Nat) :=
  match checkStruct 64 (imgField b 0 64) with
  | .failed => .error 0x81
  | .clean h => go h 0
  | .corrected h => go h 1
where
  /-- The image after its header's check code. -/
  go (h corr : Nat) : Except Nat (TableSlot × Nat) :=
    let seg (o i : Nat) : Nat := imgField b (o + 16 * i) 16
    let v := (List.range 2048).map (seg 0x40)
    let d := (List.range 2048).map (seg 0x8040)
    let k := TH.kind h
    let eff := if k = 3 then TH.subkind h else k
    let lo := BitVec.ofNat 32 (TH.lo h)
    let (lm, le) := fpExact (fpOf lo)
    let he : Int := (TH.hExp h : Int) - 127
    let multiple := !fpNonfinite lo && (lm == 0 || (0 ≤ le - he || lm % ((2 ^ (he - le).toNat : Nat) : Int) == 0))
    let ok := fieldAt h 0 8 8 == 0x22 && (1 ≤ k && k ≤ 3) && (eff == 1 || eff == 2)
      && (k == 3 || (TH.subkind h == 0 && TH.symV h == 0 && TH.symD h == 0))
      && TH.symV h ≤ 2 && TH.symD h ≤ 2 && fieldAt h 8 0 24 == 65600
      && (if eff = 1 then multiple && TH.eLo h == 0 && TH.b h == 0
          else TH.lo h == 0 && TH.hExp h == 0 && 1 ≤ TH.eLo h && TH.eLo h ≤ 0xFE && TH.b h ≤ 11
            && TH.eLo h + 2048 / 2 ^ TH.b h ≤ 0xFF)
    if !ok then .error stFormat
    else if (v ++ d).any (fun r => segCheck r = .failed) then .error 0x81
    else if (v ++ d).any (fun r => 2 ^ 104 ≤ r) then .error stFormat
    else .ok (⟨fieldAt h 0xC 0 32, h, v, d⟩, corr + ((v ++ d).filter (fun r => match segCheck r with | .corrected _ => true | _ => false)).length)

/-- Slot registers of the tile page: image id and valid bit (R142). -/
def State.showProg (s : State) (t k : Nat) (id : Nat) (ok : Bool) : State :=
  let p := tilPage t
  let v := s.fget p F.til.VEC_STAT_PROG_VALID
  (s.fput p (F.til.VEC_PIMG_IMAGE_ID k) id).fput p F.til.VEC_STAT_PROG_VALID
    (if ok then v ||| 2 ^ k else v &&& (15 - 2 ^ k))

/-- As `showProg`, for a table slot. -/
def State.showTable (s : State) (t k : Nat) (id : Nat) (ok : Bool) : State :=
  let p := tilPage t
  let v := s.fget p F.til.VEC_STAT_TABLE_VALID
  (s.fput p (F.til.VEC_TIMG_IMAGE_ID k) id).fput p F.til.VEC_STAT_TABLE_VALID
    (if ok then v ||| 2 ^ k else v &&& (15 - 2 ^ k))

/-- The image a bind names. -/
def State.vimage (s : State) (t d : Nat) : List Byte := Store.get [] s.agate.vimages (t / 128 * 256 + VD.image d)

/-- The die's count of binds being served (VSTORE.BINDS). -/
def State.bindCount (s : State) (die : Nat) (f : Nat → Nat) : State :=
  s.fput ⟨.vst, die⟩ F.vst.VSTORE_BINDS_ACTIVE (f (s.fget ⟨.vst, die⟩ F.vst.VSTORE_BINDS_ACTIVE))

/-- A bind that failed: its slot stays empty, its status is reported, no tally advances (R127, R132). -/
def State.bindFailed (s : State) (t d st : Nat) : State := (s.vecLast t d st).noteRun st

/-- BIND_PROG (R127): the slot is emptied, the image copied into it and validated; the bind then waits to complete, or fails. -/
def execBindProg (t : Fin 256) (s : State) : Host.Outcome State Fault Refusal :=
  .next (s.vecTake t 3 fun s o =>
    let u := s.tile t
    let k := VD.pslot o.desc
    match parseProgram (s.vimage t o.desc) with
    | .error st => ((s.putTile t { u with progs := Store.set none u.progs k none }).showProg t k 0 false).bindFailed t o.desc st
    | .ok (ps, corr) =>
      let u := { u with progs := Store.set none u.progs k (some ps), vrun := some { desc := o.desc, pc := 0, ended := true } }
      (((s.putTile t u).showProg t k ps.imageId true).bump (tilPage t) F.til.VEC_STORE_CORR_COUNT corr).bindCount (t.val / 128) (· + 1))

/-- BIND_TABLE (R134). -/
def execBindTable (t : Fin 256) (s : State) : Host.Outcome State Fault Refusal :=
  .next (s.vecTake t 4 fun s o =>
    let u := s.tile t
    let k := VD.tslot o.desc
    match parseTable (s.vimage t o.desc) with
    | .error st => ((s.putTile t { u with tables := Store.set none u.tables k none }).showTable t k 0 false).bindFailed t o.desc st
    | .ok (ts, corr) =>
      let u := { u with tables := Store.set none u.tables k (some ts), vrun := some { desc := o.desc, pc := 0, ended := true } }
      (((s.putTile t u).showTable t k ts.imageId true).bump (tilPage t) F.til.VEC_STORE_CORR_COUNT corr).bindCount (t.val / 128) (· + 1))

/-- BIND_COMPLETE (R132): the bind whose slot holds its image completes with DONE and advances its tally. -/
def execBindComplete (t : Fin 256) (s : State) : Host.Outcome State Fault Refusal :=
  let u := s.tile t
  match u.vrun with
  | some r =>
    if r.ended ∧ (descOpcode r.desc = 3 ∨ descOpcode r.desc = 4) then
      .next (((((s.putTile t { u with vrun := none }).bindCount (t.val / 128) (· - 1)).vecLast t r.desc stDone).vecTally t r.desc).noteRun stDone)
    else .next s
  | none => .next s

/-- VEC_COMPLETE (R132): a RUN that has passed HALT, its summary accepted, reports its status and advances its tally. -/
def execVecComplete (t : Fin 256) (s : State) : Host.Outcome State Fault Refusal :=
  let u := s.tile t
  match u.vrun with
  | some r =>
    if r.ended ∧ !r.summary ∧ descOpcode r.desc = 2 then
      let st := completedStatus r.nf r.sat false
      let p := tilPage t
      let s := ((s.putTile t { u with vrun := none }).vecLast t r.desc st).bump p F.til.VEC_RUNS_COUNT 1
      let s := if r.nf then s.bump p F.til.VEC_NF_RUNS_COUNT 1 else if r.sat then s.bump p F.til.VEC_SAT_RUNS_COUNT 1 else s
      .next (((s.numericCompletion (vecPage t) r.nf r.sat).vecTally t r.desc).noteRun st)
    else .next s
  | none => .next s

/-! ### Issuing an instruction (R119 to R125, R131) -/

/-- Issue cycles of an opcode (R119). -/
def issueCycles (o : Nat) : Nat :=
  if o = 0x0A ∨ o = 0x0B ∨ o = 0x0C then 2 else if o = 0x30 ∨ o = 0x31 ∨ o = 0x3B then 4 else if 0x58 ≤ o then 0 else 1

/-- A RUN that meets an uncorrectable check error in program or table memory ends with STORE_CHECK; no summary, no tally (R133). -/
def State.storeCheck (s : State) (t d : Nat) : State :=
  ((s.putTile t { s.tile t with vrun := none }).vecLast t d 0x81).noteRun 0x81

/-- The next instruction of the RUN on a tile's engine, if its opcode is `op`: it takes effect, its conditions are flagged, its cycles
and operations counted, and the engine stands at the following instruction. A single error in the stored instruction is corrected and
counted; an uncorrectable one ends the RUN (R126, R133). -/
def State.issue (s : State) (t op : Nat) (act : State → Tile → VecRun → Nat → VEff) : State :=
  let u := s.tile t
  match u.vrun with
  | none => s
  | some r =>
    if r.ended || descOpcode r.desc != 2 then s else
    match u.prog (VD.pslot r.desc) with
    | none => s
    | some ps =>
      match ps.code[r.pc]? with
      | none => s
      | some c =>
        match instrCheck c with
        | .failed => s.storeCheck t r.desc
        | .clean w => if VI.op w = op then go s u r w 0 else s
        | .corrected w => if VI.op w = op then go s u r w 1 else s
where
  /-- The instruction `w` takes effect. -/
  go (s : State) (u : Tile) (r : VecRun) (w corr : Nat) : State :=
    let e := act s { u with vrun := some { r with pc := r.pc + 1 } } { r with pc := r.pc + 1 } w
    if e.broken then s.storeCheck t r.desc else
    let r' := (e.tile.vrun).getD r
    let v := vecPage t
    let tile := { e.tile with vrun := some { r' with nf := r'.nf || e.conds.nf.isSome, sat := r'.sat || e.conds.sat.isSome,
                                                     nfRec := r'.nfRec || (e.conds.nf.isSome && !s.fon v F.mxe.NF_POS_VALID),
                                                     satRec := r'.satRec || (e.conds.sat.isSome && !s.fon v F.mxe.SAT_POS_VALID),
                                                     summary := r'.summary || e.msg.isSome } }
    let p := tilPage t
    let s1 := (((s.shelfPut e.bytes).putTile t tile).lowerRecords v t (descOpId r.desc) r.nfRec r.satRec e.conds).flagConds v t (descOpId r.desc)
      e.conds
    let s2 := (s1.bump p F.til.VEC_ISSUE_CYC_COUNT (issueCycles (VI.op w))).bump p F.til.VEC_FLOPS_COUNT e.flops
    let s3 := (s2.bump p F.til.VEC_TBL_EVALS_COUNT e.evals).bump p F.til.VEC_STORE_CORR_COUNT (e.corr + corr)
    { s3 with summaries := s3.summaries ++ e.msg.toList }

/-- NOP. -/
def execNop (t : Fin 256) (s : State) : Host.Outcome State Fault Refusal :=
  .next (s.issue t 0x00 fun _ u _ _ => { tile := u })

/-- A lane-wise FP32 instruction with two sources. -/
def binFp (f : Word → Word → Word) (_ : State) (u : Tile) (_ : VecRun) (w : Nat) : VEff :=
  vecFp u w (fun l => f (u.srcA w l) (u.srcB w l)) (fun l => [u.srcA w l, u.srcB w l]) 128

/-- A lane-wise FP32 instruction with one source. -/
def unFp (f : Word → Word) (_ : State) (u : Tile) (_ : VecRun) (w : Nat) : VEff :=
  vecFp u w (fun l => f (u.srcA w l)) (fun l => [u.srcA w l]) 128

/-- FADD. -/
def execFadd (t : Fin 256) (s : State) : Host.Outcome State Fault Refusal := .next (s.issue t 0x01 (binFp fpAdd))
/-- FSUB. -/
def execFsub (t : Fin 256) (s : State) : Host.Outcome State Fault Refusal := .next (s.issue t 0x02 (binFp fpSub))
/-- FMUL. -/
def execFmul (t : Fin 256) (s : State) : Host.Outcome State Fault Refusal := .next (s.issue t 0x03 (binFp fpMul))

/-- The third source of FMA: V[IMM[4:0]]. -/
def Tile.srcC (u : Tile) (w l : Nat) : Word := u.lane (VI.imm w % 32) l

/-- FMA: one rounding. -/
def execFma (t : Fin 256) (s : State) : Host.Outcome State Fault Refusal :=
  .next (s.issue t 0x04 fun _ u _ w =>
    vecFp u w (fun l => fpFma (u.srcA w l) (u.srcB w l) (u.srcC w l)) (fun l => [u.srcA w l, u.srcB w l, u.srcC w l]) 256)

/-- FMAX. -/
def execFmax (t : Fin 256) (s : State) : Host.Outcome State Fault Refusal := .next (s.issue t 0x05 (binFp fpMax))
/-- FMIN. -/
def execFmin (t : Fin 256) (s : State) : Host.Outcome State Fault Refusal := .next (s.issue t 0x06 (binFp fpMin))

/-- Sign cleared; a NaN gives the canonical NaN. -/
def fpAbs (x : Word) : Word := if fpIsNaN x then fpNaN else BitVec.ofNat 32 (x.toNat % 2 ^ 31)
/-- Sign inverted; a NaN gives the canonical NaN. -/
def fpNegate (x : Word) : Word := if fpIsNaN x then fpNaN else x ^^^ 0x80000000#32

/-- FABS. -/
def execFabs (t : Fin 256) (s : State) : Host.Outcome State Fault Refusal := .next (s.issue t 0x07 (unFp fpAbs))
/-- FNEG. -/
def execFneg (t : Fin 256) (s : State) : Host.Outcome State Fault Refusal := .next (s.issue t 0x08 (unFp fpNegate))

/-- FSCALE: va × 2^IMM, IMM a signed INT32. -/
def execFscale (t : Fin 256) (s : State) : Host.Outcome State Fault Refusal :=
  .next (s.issue t 0x09 fun _ u _ w =>
    vecFp u w (fun l => fpScale (u.srcA w l) (signedOf 32 (VI.imm w))) (fun l => [u.srcA w l]) 128)

/-- FSQRT. -/
def execFsqrt (t : Fin 256) (s : State) : Host.Outcome State Fault Refusal := .next (s.issue t 0x0A (unFp fpSqrt))
/-- FRCP. -/
def execFrcp (t : Fin 256) (s : State) : Host.Outcome State Fault Refusal := .next (s.issue t 0x0B (unFp fpRecip))
/-- FRSQRT. -/
def execFrsqrt (t : Fin 256) (s : State) : Host.Outcome State Fault Refusal := .next (s.issue t 0x0C (unFp fpRsqrt))

/-- A saturating INT32 instruction. -/
def binInt (f : Int → Int → Int) (_ : State) (u : Tile) (_ : VecRun) (w : Nat) : VEff :=
  vecInt u w (fun l => f (i32 (u.srcA w l)) (i32 (u.srcB w l)))

/-- IADD. -/
def execIadd (t : Fin 256) (s : State) : Host.Outcome State Fault Refusal := .next (s.issue t 0x10 (binInt (· + ·)))
/-- ISUB. -/
def execIsub (t : Fin 256) (s : State) : Host.Outcome State Fault Refusal := .next (s.issue t 0x11 (binInt (· - ·)))
/-- IMUL. -/
def execImul (t : Fin 256) (s : State) : Host.Outcome State Fault Refusal := .next (s.issue t 0x12 (binInt (· * ·)))

/-- A lane-wise instruction on bit patterns. -/
def binBits (f : Word → Word → Word) (_ : State) (u : Tile) (_ : VecRun) (w : Nat) : VEff :=
  vecBits u w (fun l => f (u.srcA w l) (u.srcB w l))

/-- AND. -/
def execAndV (t : Fin 256) (s : State) : Host.Outcome State Fault Refusal := .next (s.issue t 0x13 (binBits (· &&& ·)))
/-- OR. -/
def execOrV (t : Fin 256) (s : State) : Host.Outcome State Fault Refusal := .next (s.issue t 0x14 (binBits (· ||| ·)))
/-- XOR. -/
def execXorV (t : Fin 256) (s : State) : Host.Outcome State Fault Refusal := .next (s.issue t 0x15 (binBits (· ^^^ ·)))
/-- SHL: logical left shift by vb & 31. -/
def execShl (t : Fin 256) (s : State) : Host.Outcome State Fault Refusal :=
  .next (s.issue t 0x16 (binBits fun a b => a <<< (b.toNat % 32)))
/-- SHRA: arithmetic right shift by vb & 31. -/
def execShra (t : Fin 256) (s : State) : Host.Outcome State Fault Refusal :=
  .next (s.issue t 0x17 (binBits fun a b => a.sshiftRight (b.toNat % 32)))

/-- CVTIF: INT32 to FP32 × 2^S (R69). -/
def execCvtif (t : Fin 256) (s : State) : Host.Outcome State Fault Refusal :=
  .next (s.issue t 0x18 fun _ u _ w =>
    vecFp u w (fun l => intToFp (i32 (u.srcA w l)) (VI.s8 w)) (fun _ => []) 0 5)

/-- CVTFI: FP32 to INT32 under R68, NEAREST. -/
def execCvtfi (t : Fin 256) (s : State) : Host.Outcome State Fault Refusal :=
  .next (s.issue t 0x19 fun _ u _ w =>
    let r (l : Nat) : Int × Bool × Bool := fpToInt 32 (VI.s8 w) .nearest 0 (u.srcA w l)
    { tile := u.putLanes (VI.vd w) (u.gate w) (fun l => ofI32 (r l).1)
      conds := { nf := ((List.range 128).find? (fun l => u.gate w l && (r l).2.1)).map (fun l => ⟨l, 5, 2⟩)
                 sat := ((List.range 128).find? (fun l => u.gate w l && (r l).2.2)).map (fun l => ⟨l, 5, 1⟩) } })

/-- A comparison of two sources. -/
def cmpFp (f : Word → Word → Bool) (_ : State) (u : Tile) (_ : VecRun) (w : Nat) : VEff :=
  vecCmp u w (fun l => f (u.srcA w l) (u.srcB w l))

/-- FCMPLT. -/
def execFcmplt (t : Fin 256) (s : State) : Host.Outcome State Fault Refusal := .next (s.issue t 0x20 (cmpFp fpLt))
/-- FCMPLE. -/
def execFcmple (t : Fin 256) (s : State) : Host.Outcome State Fault Refusal := .next (s.issue t 0x21 (cmpFp fpLe))
/-- FCMPEQ. -/
def execFcmpeq (t : Fin 256) (s : State) : Host.Outcome State Fault Refusal := .next (s.issue t 0x22 (cmpFp fpEq))
/-- FISNF. -/
def execFisnf (t : Fin 256) (s : State) : Host.Outcome State Fault Refusal :=
  .next (s.issue t 0x23 fun _ u _ w => vecCmp u w (fun l => fpNonfinite (u.srcA w l)))

/-- A combination of two predicates, lane by lane; gated as 0x01 to 0x31 are (R120). -/
def binPred (f : Bool → Bool → Bool) (_ : State) (u : Tile) (_ : VecRun) (w : Nat) : VEff :=
  vecCmp u w (fun l => f (u.predLane (VI.va w % 8) l) (u.predLane (VI.vb w % 8) l))

/-- PAND. -/
def execPand (t : Fin 256) (s : State) : Host.Outcome State Fault Refusal := .next (s.issue t 0x24 (binPred (· && ·)))
/-- POR. -/
def execPor (t : Fin 256) (s : State) : Host.Outcome State Fault Refusal := .next (s.issue t 0x25 (binPred (· || ·)))
/-- PNOT. -/
def execPnot (t : Fin 256) (s : State) : Host.Outcome State Fault Refusal :=
  .next (s.issue t 0x26 fun _ u _ w => vecCmp u w (fun l => !u.predLane (VI.va w % 8) l))

/-- SEL: va or vb per lane by P[IMM[2:0]]. -/
def execSelV (t : Fin 256) (s : State) : Host.Outcome State Fault Refusal :=
  .next (s.issue t 0x27 fun _ u _ w =>
    vecBits u w (fun l => if u.predLane (VI.imm w % 8) l then u.srcA w l else u.srcB w l))

/-- MOV. -/
def execMovV (t : Fin 256) (s : State) : Host.Outcome State Fault Refusal :=
  .next (s.issue t 0x28 fun _ u _ w => vecBits u w (fun l => u.srcB w l))

/-- LANEID. -/
def execLaneid (t : Fin 256) (s : State) : Host.Outcome State Fault Refusal :=
  .next (s.issue t 0x29 fun _ u _ w => vecBits u w (fun l => BitVec.ofNat 32 l))

/-- TBLV (R136). -/
def execTblv (t : Fin 256) (s : State) : Host.Outcome State Fault Refusal :=
  .next (s.issue t 0x30 fun _ u _ w => vecTable u w false)
/-- TBLD (R137). -/
def execTbld (t : Fin 256) (s : State) : Host.Outcome State Fault Refusal :=
  .next (s.issue t 0x31 fun _ u _ w => vecTable u w true)

/-- LD: lane ℓ takes bytes 4ℓ to 4ℓ + 3 of the span (R123). -/
def execLd (t : Fin 256) (s : State) : Host.Outcome State Fault Refusal :=
  .next (s.issue t 0x38 fun s u _ w =>
    let vals := (List.range 128).map (fun l => s.shelfWord (u.addr (VI.imm w % 8) (ldOffset w + 4 * l)))
    { tile := { u with v := Store.set zeroLanes u.v (VI.vd w) vals } })

/-- ST: va written to the address LD would read. -/
def execSt (t : Fin 256) (s : State) : Host.Outcome State Fault Refusal :=
  .next (s.issue t 0x39 fun _ u _ w =>
    { tile := u
      bytes := placed (shelfKey (u.addr (VI.imm w % 8) (ldOffset w))) ((List.range 128).flatMap (fun l => leBytes 4 (u.srcA w l).toNat)) })

/-- LDX (R123). -/
def execLdx (t : Fin 256) (s : State) : Host.Outcome State Fault Refusal :=
  .next (s.issue t 0x3A fun s u _ w => vecLdx s u w)

/-- STQ (R124). -/
def execStq (t : Fin 256) (s : State) : Host.Outcome State Fault Refusal :=
  .next (s.issue t 0x3B fun _ u r w => vecStq u w r.desc)

/-- SSET. -/
def execSset (t : Fin 256) (s : State) : Host.Outcome State Fault Refusal :=
  .next (s.issue t 0x40 fun _ u _ w => { tile := u.putScalar (VI.vd w % 16) (BitVec.ofNat 32 (VI.imm w)) })

/-- SLD: one word at A[IMM[2:0]] + IMM[31:16] × 4. -/
def execSld (t : Fin 256) (s : State) : Host.Outcome State Fault Refusal :=
  .next (s.issue t 0x41 fun s u _ w =>
    { tile := u.putScalar (VI.vd w % 16) (s.shelfWord (u.addr (VI.imm w % 8) (bitsOf (VI.imm w) 16 16 * 4))) })

/-- SFADD. -/
def execSfadd (t : Fin 256) (s : State) : Host.Outcome State Fault Refusal :=
  .next (s.issue t 0x42 fun _ u _ w => vecScalar u w fpAdd)
/-- SFMUL. -/
def execSfmul (t : Fin 256) (s : State) : Host.Outcome State Fault Refusal :=
  .next (s.issue t 0x43 fun _ u _ w => vecScalar u w fpMul)
/-- SFMAX. -/
def execSfmax (t : Fin 256) (s : State) : Host.Outcome State Fault Refusal :=
  .next (s.issue t 0x44 fun _ u _ w => vecScalar u w fpMax)

/-- SREDSUM (R122). -/
def execSredsum (t : Fin 256) (s : State) : Host.Outcome State Fault Refusal :=
  .next (s.issue t 0x45 fun _ u _ w => vecReduce u w fpAdd)
/-- SREDMAX (R122). -/
def execSredmax (t : Fin 256) (s : State) : Host.Outcome State Fault Refusal :=
  .next (s.issue t 0x46 fun _ u _ w => vecReduce u w fpMax)

/-- SUMMARY (R138): one message to the descriptor's slot where SUM_EN is set, none otherwise. -/
def execSummary (t : Fin 256) (s : State) : Host.Outcome State Fault Refusal :=
  .next (s.issue t 0x48 fun s u r w =>
    let n := VI.imm w % 4 + 1
    { tile := u
      msg := if VD.sumEn r.desc then
          some ⟨VD.sumCore r.desc, VD.sumSlot r.desc, bitsOf (VI.imm w) 8 8, t, descOpId r.desc, s.time.toNat,
            (List.range n).map (fun i => u.scalar (VI.va w + i))⟩
        else none })

/-- AINC: the per-sweep increment of A[IMM[2:0]]. -/
def execAinc (t : Fin 256) (s : State) : Host.Outcome State Fault Refusal :=
  .next (s.issue t 0x50 fun _ u _ w =>
    { tile := { u with inc := Store.set 0 u.inc (VI.imm w % 8) (signedOf 24 (bitsOf (VI.imm w) 8 24)) } })

/-- XINC. -/
def execXinc (t : Fin 256) (s : State) : Host.Outcome State Fault Refusal :=
  .next (s.issue t 0x51 fun _ u _ w => { tile := { u with xinc := signedOf 32 (VI.imm w) } })
/-- XPITCH. -/
def execXpitch (t : Fin 256) (s : State) : Host.Outcome State Fault Refusal :=
  .next (s.issue t 0x52 fun _ u _ w => { tile := { u with xpitch := BitVec.ofNat 32 (VI.imm w) } })

/-- BODY: the body begins at the next instruction. -/
def execBody (t : Fin 256) (s : State) : Host.Outcome State Fault Refusal :=
  .next (s.issue t 0x58 fun _ u r _ => { tile := { u with vrun := some { r with body := r.pc } } })

/-- Each register's increment added to A0–A7, XINC to X (R131). -/
def Tile.sweep (u : Tile) : Tile :=
  { u with ad := (List.range 8).foldl (fun m r =>
             Store.set 0 m r (BitVec.ofInt 32 (((Store.get 0 m r).toNat : Int) + Store.get 0 u.inc r))) u.ad,
           x := BitVec.ofInt 40 ((u.x.toNat : Int) + u.xinc) }

/-- END (R131): increments added, then the body again, or the epilogue after the last pass. -/
def execEndV (t : Fin 256) (s : State) : Host.Outcome State Fault Refusal :=
  .next (s.issue t 0x59 fun _ u r _ =>
    let r' := { r with sweeps := r.sweeps + 1, pc := if r.sweeps + 1 < VD.sweeps r.desc then r.body else r.pc }
    { tile := { u.sweep with vrun := some r' } })

/-- HALT (R131): the program has ended. -/
def execHalt (t : Fin 256) (s : State) : Host.Outcome State Fault Refusal :=
  .next (s.issue t 0x5A fun _ u r _ => { tile := { u with vrun := some { r with ended := true } } })

/-! ### Summary slots (R139, R202) -/

/-- The decision-points page of a core and the page's number of its slot. -/
def slotPage (core : Nat) : Page := ⟨.dp, core / 2⟩
def slotIx (core slot : Nat) : Nat := 32 * (core % 2) + slot

/-- R113, one level of the combine tree: pairs added, an odd last value carried up. -/
def combineTree : Nat → List Word → List Word
  | 0, xs => xs
  | n + 1, xs => if xs.length ≤ 1 then xs else combineTree n (pairLevel xs)

/-- The combined word of a slot: the tree of R113 in mode SUM, the maximum in mode MAX, over entries in ascending tile order. -/
def combineSlot (isMax : Bool) (xs : List Word) : Word :=
  match xs with
  | [] => 0
  | x :: rest => if isMax then rest.foldl fpMax (fpMax x x) else (combineTree (x :: rest).length (x :: rest)).headD 0

/-- A summary message at its slot (R139): stored, replaced, or discarded and counted; the slot completes at EXPECT. -/
def State.slotMessage (s : State) (m : Summary) : State :=
  let p := slotPage m.core
  let k := slotIx m.core m.slot
  let key := 32 * m.core + m.slot
  let held := Store.get [] s.slotHeld key
  let expect := s.fget p (F.dp.SLOT_CFG_EXPECT k)
  if expect = 0 ∨ m.tag ≠ s.fget p (F.dp.SLOT_CFG_TAG k) then s.bump p (F.dp.SLOT_STAT_TAG_MISMATCH k) 1
  else if s.fon p (F.dp.SLOT_STAT_COMPLETE k) then s.bump p (F.dp.SLOT_OVR_OVERRUN k) 1
  else
    let held' := Store.set [] held m.tile m.words
    if (Store.get [] held m.tile).length ≠ 0 then
      { s with slotHeld := Store.set [] s.slotHeld key held' }.bump p (F.dp.SLOT_STAT_DUPLICATE k) 1
    else
      let s1 := { s with slotHeld := Store.set [] s.slotHeld key held' }.fput p (F.dp.SLOT_STAT_COUNT k) held'.length
      if held'.length < expect then s1
      else
        let word (i : Nat) : Word :=
          combineSlot (bitAt (s.fget p (F.dp.SLOT_CFG_MODE k)) i) (held'.map (fun e => e.2.getD i 0))
        let s1 := { s1 with slotDone := Store.set 0 s1.slotDone key s.time.toNat }
        ((((s1.fset p (F.dp.SLOT_STAT_COMPLETE k) true).fput p (F.dp.SLOT_W0_RESULT k) (word 0).toNat).fput p (F.dp.SLOT_W1_RESULT k)
          (word 1).toNat).fput p (F.dp.SLOT_W2_RESULT k) (word 2).toNat).fput p (F.dp.SLOT_W3_RESULT k) (word 3).toNat

/-- The slot has accepted the message: the RUN that sent it may complete (R132). -/
def State.summaryAccepted (s : State) (m : Summary) : State :=
  let u := s.tile m.tile
  match u.vrun with
  | some r => if descOpId r.desc = m.opId then s.putTile m.tile { u with vrun := some { r with summary := false } } else s
  | none => s

/-- SUMMARY_MESSAGE (R139): message `k` of those in flight arrives at its slot. -/
def execSummaryMessage (k : Nat) (s : State) : Host.Outcome State Fault Refusal :=
  match s.summaries[k]? with
  | none => .next s
  | some m => .next (({ s with summaries := s.summaries.eraseIdx k }.slotMessage m).summaryAccepted m)

/-- A slot re-armed: entries and count cleared, results kept (R139, R202). -/
def State.armSlot (s : State) (core slot : Nat) : State :=
  let p := slotPage core
  let k := slotIx core slot
  (({ s with slotHeld := Store.set [] s.slotHeld (32 * core + slot) [] }).fput p (F.dp.SLOT_STAT_COUNT k) 0).fset p
    (F.dp.SLOT_STAT_COMPLETE k) false

/-- ARM (R139): a write of SLOT_CTRL.ARM on the decision-points page of a die. -/
def execArm (r : Requester) (d : Fin 2) (slot : Fin 64) (s : State) : Host.Outcome State Fault Refusal :=
  .next (s.hubAdmit r ⟨.dp, d⟩ (0x404 + 32 * slot.val) fun s => s.armSlot (2 * d.val + slot.val / 32) (slot.val % 32))

end Sys2Proof.Machine
end

