-- ==== Sys2Proof/Machine/Image.lean ====
section
/-! DEFINITION. Timetable images (R195 to R197, R168, R173, R183): the header, the directory, the validation of every section and the
placement of a good image in the stores. -/

namespace Sys2Proof.Machine

/-! ### The header and the directory (R195, R196) -/

/-- Why a load fails: status, section, item (R197). -/
structure LoadFail where
  status : Nat
  section_ : Nat
  item : Nat
deriving DecidableEq, Repr

/-- A directory entry: its number, TYPE, DIE, UNIT, DIR_INDEX, OFFSET, LENGTH. -/
structure Sect where
  ix : Nat
  ty : Nat
  die : Nat
  unit : Nat
  dirIx : Nat
  off : Nat
  len : Nat
deriving DecidableEq, Repr

/-- What a section's unit is. -/
inductive Scope where
  | image | die | group | stream | vimage
deriving DecidableEq, Repr

/-- Entry size in bytes, most entries, scope of a section type (R196); none: no such TYPE. -/
def sectKind : Nat → Option (Nat × Nat × Scope)
  | 1 => some (32, 1023, .image) | 2 => some (8, 33 * 1023, .die) | 3 => some (32, 65536, .die)
  | 4 => some (64, 2048, .group) | 5 => some (64, 2048, .die) | 6 => some (64, 256, .die) | 7 => some (8, 16, .group)
  | 8 => some (16, 4096, .die) | 9 => some (8, 64, .stream) | 10 => some (16, 64, .die) | 11 => some (1, 2 ^ 23, .vimage)
  | _ => none

/-- The structure of `n` bytes at an offset of an image, with a single wrong bit put right; none: uncorrectable. -/
def structAt (b : List Byte) (off n : Nat) : Option Nat :=
  match checkStruct n (imgField b off n) with
  | .clean d => some d
  | .corrected d => some d
  | .failed => none

/-- The fields of the image header. -/
def imageFields : List (Nat × Nat × Nat) :=
  [(0, 0, 4), (0, 8, 8), (4, 0, 32), (8, 0, 32), (0xC, 0, 32), (0x10, 0, 10), (0x10, 16, 10), (0x14, 0, 12), (0x14, 16, 12),
   (0x18, 0, 12), (0x18, 16, 12), (0x3C, 0, 10)]

namespace IH
def length (h : Nat) : Nat := fieldAt h 8 0 32
def sections (h : Nat) : Nat := fieldAt h 0x10 0 10
def segments (h : Nat) : Nat := fieldAt h 0x10 16 10
end IH

/-- MEMBER and PARAM_SET of an image are this part's (R6). -/
def State.family (s : State) (d h : Nat) : Bool :=
  fieldAt h 4 0 16 == s.fget ⟨.vst, d⟩ F.vst.VSTORE_FAMILY_MEMBER && fieldAt h 4 16 16 == s.fget ⟨.vst, d⟩ F.vst.VSTORE_FAMILY_PARAM_SET

/-- The checks of the header, in the order of R49. -/
def State.ttHeaderCheck (s : State) (addr h : Nat) : Option Nat :=
  firstFailure [
    (!s.versionOk (pgAgt 0) (fieldAt h 0 0 4), stVersion),
    (reservedSet 64 h imageFields, stReservedSet),
    (fieldAt h 0 8 8 != 0x30 || !s.family 0 h || IH.sections h == 0 || IH.segments h == 0, stFormat),
    (IH.length h < 0x40 + 16 * IH.sections h, stLenRange),
    (addr % 4096 != 0, stAddrRange)]

/-- Directory entry `i` as a section. -/
def sectOf (i d : Nat) : Sect :=
  ⟨i, fieldAt d 0 0 8, fieldAt d 0 8 1, fieldAt d 0 9 6, fieldAt d 0 24 8, fieldAt d 4 0 32, fieldAt d 8 0 32⟩

/-- The checks of a directory entry, in the order of R49 (log 38). -/
def sectCheck (length i d : Nat) : Option Nat :=
  let e := sectOf i d
  let k := sectKind e.ty
  let size := match k with | some (n, _, _) => n | none => 1
  let most := match k with | some (_, m, _) => m | none => 0
  let sc := match k with | some (_, _, c) => c | none => .image
  let hasDie := sc != .image
  let hasUnit := sc == .group || sc == .stream
  firstFailure [
    (reservedSet 16 d [(0, 0, 8), (0, 8, 1), (0, 9, 6), (0, 24, 8), (4, 0, 32), (8, 0, 32), (0xC, 0, 8)]
      || (k.isSome && ((!hasDie && e.die != 0) || (!hasUnit && e.unit != 0) || (sc != .vimage && e.dirIx != 0))), stReservedSet),
    (k.isNone || 32 < e.unit || (sc == .group && e.unit == 32) || e.len % size != 0 || (sc == .vimage && e.len < 64), stFormat),
    (most < e.len / size || length < e.off + e.len, stLenRange),
    (e.off % 64 != 0, stAddrRange)]

/-- The group of a group section, the key of a stream section. -/
def Sect.group (e : Sect) : Nat := 32 * e.die + e.unit
def Sect.stream (e : Sect) : Nat := streamKey e.die e.unit

/-- Entry size and count of a section. -/
def Sect.size (e : Sect) : Nat := match sectKind e.ty with | some (n, _, _) => n | none => 1
def Sect.count (e : Sect) : Nat := e.len / e.size

/-- The entries of a section, corrected; an uncorrectable one reads as zero. -/
def Sect.items (e : Sect) (b : List Byte) : List Nat :=
  (List.range e.count).map fun j => (structAt b (e.off + e.size * j) e.size).getD 0

/-! ### What the sections say about each other -/

/-- What beats are checked against: counts of descriptors and predicates, landing buffers, views, the streams that list a beat
with whether it is the last of the list. -/
structure Ctx where
  ntile : List (Nat × Nat) := []
  ndie : List (Nat × Nat) := []
  npred : List (Nat × Nat) := []
  lands : List (Nat × List (Nat × Nat)) := []
  views : List (Nat × List Nat) := []
  owners : List (Nat × List (Nat × Bool)) := []
deriving DecidableEq, Repr

/-- BASE and LENGTH of a LANDING entry. -/
def landOf (v : Nat) : Nat × Nat := (fieldAt v 0 0 21, fieldAt v 4 7 21)
/-- FIRST and COUNT of a STREAM_DIR entry. -/
def dirFirst (v : Nat) : Nat := fieldAt v 0 0 16
def dirCount (v : Nat) : Nat := fieldAt v 0 16 16

/-- The beats that the entries of a stream directory list. -/
def ownersOf (d : Nat) (items : List Nat) (m : List (Nat × List (Nat × Bool))) : List (Nat × List (Nat × Bool)) :=
  items.zipIdx.foldl (fun m x =>
    (List.range (dirCount x.1)).foldl (fun m i =>
      let key := d * 2 ^ 16 + dirFirst x.1 + i
      Store.set [] m key (Store.get [] m key ++ [(x.2 % 33, i + 1 == dirCount x.1)])) m) m

/-- A section noted; the first of its TYPE and unit counts. -/
def Ctx.note (c : Ctx) (b : List Byte) (e : Sect) : Ctx :=
  match e.ty with
  | 2 => { c with owners := ownersOf e.die (e.items b) c.owners }
  | 4 => if Store.get 0 c.ntile e.group = 0 then { c with ntile := Store.set 0 c.ntile e.group e.count } else c
  | 5 => if Store.get 0 c.ndie e.die = 0 then { c with ndie := Store.set 0 c.ndie e.die e.count } else c
  | 6 => if Store.get 0 c.npred e.die = 0 then { c with npred := Store.set 0 c.npred e.die e.count } else c
  | 7 => if Store.get [] c.lands e.group = [] then { c with lands := Store.set [] c.lands e.group ((e.items b).map landOf) } else c
  | 9 => if Store.get [] c.views e.stream = [] then
      { c with views := Store.set [] c.views e.stream ((e.items b).map (fun v => fieldAt v 0 0 12)) } else c
  | _ => c

/-- The sections of a directory, in order. -/
def sectsOf (b : List Byte) (n : Nat) : List Sect :=
  (List.range n).map fun i => sectOf i ((structAt b (0x40 + 16 * i) 16).getD 0)

/-! ### The structures (R173, R183, R127, R134, R156) -/

/-- Masks of ARG0, ARG1 and ARG2 by KIND (R172). -/
def argMasks : Nat → Option (Nat × Nat × Nat)
  | 1 => some (0x1FFF, 0x7FF, 0) | 2 => some (0xFFFF, 0xFFFFFFFF, 0xFFFFFF) | 3 => some (0xF, 0, 0) | 4 => some (0xFF, 0, 0)
  | 5 => some (0, 0, 0) | 6 => some (0, 0, 0) | _ => none

/-- An argument with a bit outside its mask. -/
def stray (w v m : Nat) : Bool := v &&& (2 ^ w - 1 - m) != 0

/-- The checks of a beat in stream `u` of die `d` (none: no list holds it), in the order of R173; `last`: it ends its list. -/
def beatCheck (versionOk : Bool) (c : Ctx) (d : Nat) (u : Option Nat) (last : Bool) (b : Nat) : Option Nat :=
  let k := BT.kind b
  let w := BT.waits b
  let masks := argMasks k
  let inGroup := match u with | some x => decide (x < 32) | none => false
  let inDie := u == some 32
  let view := match u with | some x => Store.get [] c.views (streamKey d x) | none => []
  let unused := (List.range 2).any fun i => w ≤ i && (BT.tally b i != 0 || BT.thresh b i != 0 || BT.cons b i)
  let args := match masks with
    | some (m0, m1, m2) => stray 16 (BT.arg0 b) m0 || stray 32 (BT.arg1 b) m1 || stray 32 (BT.arg2 b) m2
    | none => false
  let fillTime := k == kFill && (BT.notBefore b != 0 || BT.slack b != 0 || BT.specOk b)
  let un := BT.unit b
  let issueBad := k == kIssue &&
    (if un == 1 || un == 2 then inDie || BT.tiles b == 0
     else inGroup || BT.tiles b != 0 || BT.specOk b || !(un == 3 || un == 4 || un == 5))
  let place := ((k == kFill || k == kRelease) && inDie) || (k == kDecide && inGroup)
  let shape := u.isSome && (((k == kEnd) != last) || (List.range w).any fun i => BT.cons b i && !view.contains (BT.tally b i))
  let g := 32 * d + u.getD 0
  let land := (Store.get [] c.lands g).getD (4 * BT.fillTile b + BT.fillBuf b) (0, 0)
  let need := BT.desc b + (if inGroup then popCount 4 (BT.tiles b) * BT.count b else BT.count b)
  let have_ := if inGroup then Store.get 0 c.ntile g else Store.get 0 c.ndie d
  firstFailure [
    (!versionOk, stVersion),
    (fieldAt b 0 21 11 != 0 || fieldAt b 0x1C 23 9 != 0 || unused || args || fillTime, stReservedSet),
    (masks.isNone || w == 3 || place || issueBad || shape, stFormat),
    ((k == kIssue && 16 < BT.count b) || (k == kFill && inGroup && land.2 < BT.len b), stLenRange),
    ((k == kIssue && u.isSome && BT.count b != 0 && have_ < need) || (k == kDecide && Store.get 0 c.npred d ≤ BT.dpoint b)
      || (k == kFill && BT.src b % 64 != 0), stAddrRange)]

/-- The statuses of R49 in order, for a beat that several streams list. -/
def r49Order : List Nat := [stVersion, stReservedSet, stFormat, stLenRange, stAddrRange]

/-- The checks of beat `j` of die `d` over every stream that lists it. -/
def State.beatsCheck (s : State) (c : Ctx) (d j b : Nat) : Option Nat :=
  let own := Store.get [] c.owners (d * 2 ^ 16 + j)
  let vok := s.versionOk (pgAgt 0) (BT.version b)
  let sts := (if own.isEmpty then [beatCheck vok c d none false b] else own.map fun o => beatCheck vok c d (some o.1) o.2 b)
  r49Order.find? fun st => sts.contains (some st)

namespace PE
def nrules (e : Nat) : Nat := fieldAt e 0 0 3
def dflt (e : Nat) : Nat := fieldAt e 0 8 10
def core (e : Nat) : Nat := fieldAt e 0 18 1
def op (e j : Nat) : Nat := fieldAt e (8 + 8 * j) 0 3
def delta (e j : Nat) : Bool := fieldAt e (8 + 8 * j) 3 1 == 1
def slot (e j : Nat) : Nat := fieldAt e (8 + 8 * j) 5 6
def word (e j : Nat) : Nat := fieldAt e (8 + 8 * j) 11 2
def tally (e j : Nat) : Nat := fieldAt e (8 + 8 * j) 5 12
def succ (e j : Nat) : Nat := fieldAt e (8 + 8 * j) 22 10
def const (e j : Nat) : Nat := fieldAt e (0xC + 8 * j) 0 32
end PE

/-- The checks of a predicate entry (R183), in the order of R49. -/
def predCheck (e : Nat) : Option Nat :=
  let n := PE.nrules e
  let spare := (List.range 6).any fun j =>
    let r := fieldAt e (8 + 8 * j) 0 64
    if n ≤ j then r != 0
    else bitsOf r 4 1 != 0 || bitsOf r 17 5 != 0 || (!PE.delta e j && bitsOf r 13 4 != 0) || (6 ≤ PE.op e j && PE.const e j != 0)
  firstFailure [
    (bitsOf e 3 5 != 0 || bitsOf e 19 13 != 0 || fieldAt e 4 0 32 != 0 || fieldAt e 0x38 0 32 != 0 || fieldAt e 0x3C 10 22 != 0 || spare,
      stReservedSet),
    (n == 0 || 6 < n || ((List.range 6).any fun j => j < n && PE.delta e j && 6 ≤ PE.op e j), stFormat)]

/-- The checks of a LANDING entry against those before it (R156). -/
def landCheck (before : List (Nat × Nat)) (j v : Nat) : Option Nat :=
  let (a, n) := landOf v
  let mine := (before.drop (4 * (j / 4)))
  firstFailure [
    (reservedSet 8 v [(0, 0, 21), (4, 0, 7), (4, 7, 21)], stReservedSet),
    (n != 0 && (a % 64 != 0 || n % 64 != 0 || 0x180000 < a + n
      || mine.any fun x => x.2 != 0 && a < x.1 + x.2 && x.1 < a + n), stAddrRange)]

/-- The fields of a program header or a table header (R126, R134). -/
def vimageFields (ty : Nat) : List (Nat × Nat × Nat) :=
  [(0, 0, 4), (0, 8, 8), (4, 0, 32), (8, 0, 24), (0xC, 0, 32), (0x3C, 0, 10)]
  ++ (if ty = 0x22 then [(0x10, 0, 12), (0x14, 0, 32), (0x18, 0, 20), (0x1C, 0, 32), (0x20, 0, 32), (0x24, 0, 32)] else [(0x10, 0, 11), (0x10, 16, 5)])

/-- LENGTH as a program header's INSTRS gives it, or a table's (R126, R134). -/
def vimageLength (ty h : Nat) : Nat :=
  let n := fieldAt h 0x10 0 11
  if ty = 0x21 then 0x80 + 8 * n + 64 * ((n + 63) / 64) else 65600

/-- The checks of a VIMAGE section's image (R127, R134, R197). -/
def State.vimageCheck (s : State) (d : Nat) (img : List Byte) : Option Nat :=
  match structAt img 0 64 with
  | none => some stCheckFailed
  | some h =>
    let ty := fieldAt h 0 8 8
    match firstFailure [
        (!s.versionOk ⟨.vst, d⟩ (fieldAt h 0 0 4), stVersion),
        (reservedSet 64 h (vimageFields ty), stReservedSet),
        (!(ty == 0x21 || ty == 0x22) || !s.family d h || fieldAt h 8 0 24 != vimageLength ty h, stFormat),
        (img.length < fieldAt h 8 0 24, stLenRange)] with
    | some st => some st
    | none =>
      let body := img.take (fieldAt h 8 0 24)
      let st := if ty = 0x21 then (match parseProgram body with | .ok _ => 0 | .error e => e)
        else (match parseTable body with | .ok _ => 0 | .error e => e)
      if st = 0 then none else if st = 0x81 then some stCheckFailed else some st

/-- The check of item `j` of a section, whose structure is `v`. -/
def State.itemCheck (s : State) (c : Ctx) (e : Sect) (items : List Nat) (j v : Nat) : Option Nat :=
  match e.ty with
  | 1 => if reservedSet 32 v [(0, 0, 10), (0, 16, 10), (4, 0, 32), (8, 0, 32), (0xC, 0, 10), (0x1C, 0, 9)] then some stReservedSet else none
  | 2 => if reservedSet 8 v [(0, 0, 32), (4, 0, 7)] then some stReservedSet else none
  | 3 => s.beatsCheck c e.die j v
  | 6 => predCheck v
  | 7 => landCheck ((items.take j).map landOf) j v
  | 8 => if reservedSet 16 v [(0, 0, 12), (4, 0, 32), (0xC, 0, 8)] then some stReservedSet else none
  | 9 => if reservedSet 8 v [(0, 0, 12), (4, 0, 7)] then some stReservedSet else none
  | 10 => firstFailure [
      (reservedSet 16 v [(0, 0, 6), (0, 8, 8), (0, 16, 9), (0, 25, 4), (0xC, 0, 8)], stReservedSet),
      (256 < fieldAt v 0 16 9, stFormat)]
  | _ => none

/-- A section with its structures, in ascending order (R197). -/
def State.sectionCheck (s : State) (c : Ctx) (b : List Byte) (h i : Nat) : Option LoadFail :=
  match structAt b (0x40 + 16 * i) 16 with
  | none => some ⟨stCheckFailed, i, 0⟩
  | some d =>
    match sectCheck (IH.length h) i d with
    | some st => some ⟨st, i, 0⟩
    | none =>
      let e := sectOf i d
      if e.ty = 11 then (s.vimageCheck e.die ((b.drop e.off).take e.len)).map fun st => ⟨st, i, 0⟩
      else
        let items := e.items b
        items.zipIdx.findSome? fun x =>
          if (structAt b (e.off + e.size * x.2) e.size).isNone then some ⟨stCheckFailed, i, x.2⟩
          else (s.itemCheck c e items x.2 x.1).map fun st => ⟨st, i, x.2⟩

/-! ### The checks that join sections (R196, R168) -/

/-- What a section takes of the 2 MiB store of a die. -/
def Sect.storeBytes (e : Sect) (d : Nat) : Nat :=
  if e.ty = 1 then e.len else if (e.ty = 2 ∨ e.ty = 3 ∨ e.ty = 6) ∧ e.die = d then e.len else 0

/-- Two sections name the same unit. -/
def Sect.clash (x y : Sect) : Bool :=
  x.ty == y.ty && x.die == y.die && x.unit == y.unit && x.dirIx == y.dirIx

/-- The joins of R196, in directory order: the stores hold the sections, and no unit is named twice. -/
def joinCheck (es : List Sect) : Option LoadFail :=
  es.findSome? fun e =>
    let before := es.take (e.ix + 1)
    let full (d : Nat) : Bool := (before.map (·.storeBytes d)).sum > 2 ^ 21
    let images (d : Nat) : Nat := ((before.filter fun x => x.ty == 11 && x.die == d).map (·.len)).sum
    if (e.storeBytes 0 != 0 && full 0) || (e.storeBytes 1 != 0 && full 1) || (e.ty == 11 && images e.die > 2 ^ 23) then
      some ⟨stLenRange, e.ix, 0⟩
    else if (es.take e.ix).any (·.clash e) then some ⟨stAddrRange, e.ix, 0⟩
    else none

namespace SG
def next (g : Nat) : Nat := fieldAt g 0 0 10
def predict (g : Nat) : Nat := fieldAt g 0 16 10
def period (g : Nat) : Nat := fieldAt g 4 0 32
def align (g : Nat) : Nat := fieldAt g 8 0 32
def dpoint (g : Nat) : Nat := fieldAt g 0xC 0 8
def decides (g : Nat) : Bool := fieldAt g 0xC 8 1 == 1
def die (g : Nat) : Nat := fieldAt g 0xC 9 1
end SG

/-- A successor: a segment of the image, or stop. -/
def succOk (n x : Nat) : Bool := x == 0x3FF || x < n

/-- The first section of a TYPE and die. -/
def findSect (es : List Sect) (ty d : Nat) : Option Sect := es.find? fun e => e.ty == ty && e.die == d

/-- The segments, successors, stream lists and DECIDE beats hang together (R168; the statuses are the model's, log 38). -/
def segmentsCheck (b : List Byte) (n : Nat) (es : List Sect) (c : Ctx) : Option LoadFail :=
  match findSect es 1 0 with
  | none => some ⟨stFormat, 0x3FF, 0⟩
  | some sg =>
    let segs := sg.items b
    if segs.length ≠ n then some ⟨stLenRange, sg.ix, 0⟩ else
    let badSeg := segs.zipIdx.findSome? fun x =>
      if succOk n (SG.next x.1) && (!SG.decides x.1 || (SG.predict x.1 < n && SG.dpoint x.1 < Store.get 0 c.npred (SG.die x.1)))
      then none else some (LoadFail.mk stAddrRange sg.ix x.2)
    let preds := es.filter fun e => e.ty == 6
    let badPred := preds.findSome? fun e => (e.items b).zipIdx.findSome? fun x =>
      if succOk n (PE.dflt x.1) && ((List.range (PE.nrules x.1)).all fun j => succOk n (PE.succ x.1 j)) then none
      else some (LoadFail.mk stAddrRange e.ix x.2)
    let lists (d : Nat) : Option LoadFail :=
      match findSect es 2 d, findSect es 3 d with
      | some sd, some bt =>
        if sd.count ≠ 33 * n then some ⟨stLenRange, sd.ix, 0⟩
        else (sd.items b).zipIdx.findSome? fun x =>
          if dirCount x.1 = 0 then some (LoadFail.mk stFormat sd.ix x.2)
          else if bt.count < dirFirst x.1 + dirCount x.1 then some (LoadFail.mk stAddrRange sd.ix x.2) else none
      | _, _ => some ⟨stFormat, 0x3FF, 0⟩
    let decides (d j : Nat) : Nat :=
      match findSect es 2 d, findSect es 3 d with
      | some sd, some bt =>
        let v := (structAt b (sd.off + 8 * (33 * j + 32)) 8).getD 0
        ((List.range (dirCount v)).filter fun i =>
          BT.kind ((structAt b (bt.off + 32 * (dirFirst v + i)) 32).getD 0) == kDecide).length
      | _, _ => 0
    let badDec := segs.zipIdx.findSome? fun x =>
      let want (d : Nat) : Nat := if SG.decides x.1 && SG.die x.1 == d then 1 else 0
      if decides 0 x.2 = want 0 ∧ decides 1 x.2 = want 1 then none else some (LoadFail.mk stFormat sg.ix x.2)
    (((badSeg.orElse fun _ => badPred).orElse fun _ => lists 0).orElse fun _ => lists 1).orElse fun _ => badDec

/-! ### Placement (R197) -/

/-- Words put into a store at consecutive keys. -/
def fillStore (m : List (Nat × Nat)) (key : Nat) (xs : List Nat) : List (Nat × Nat) := Store.write 0 m key xs

/-- A section put into the stores of the engines. -/
def placeAgate (b : List Byte) (a : Agate) (e : Sect) : Agate :=
  let xs := e.items b
  match e.ty with
  | 1 => { a with segs := fillStore a.segs 0 xs, nsegs := xs.length }
  | 2 => { a with dirs := fillStore a.dirs (e.die * 2 ^ 16) xs }
  | 3 => { a with beats := fillStore a.beats (e.die * 2 ^ 16) xs, nbeats := Store.set 0 a.nbeats e.die xs.length }
  | 4 => { a with tileDesc := fillStore a.tileDesc (e.group * 2048) xs, ntile := Store.set 0 a.ntile e.group xs.length }
  | 5 => { a with dieDesc := fillStore a.dieDesc (e.die * 2048) xs, ndie := Store.set 0 a.ndie e.die xs.length }
  | 6 => { a with preds := fillStore a.preds (e.die * 256) xs }
  | 9 => { a with views := Store.set [] a.views e.stream (xs.map fun v => fieldAt v 0 0 12) }
  | 11 => { a with vimages := Store.set [] a.vimages (e.die * 256 + e.dirIx) ((b.drop e.off).take e.len) }
  | _ => a

/-- A section shown in the registers: landing buffers, counts, views, slots, image directory. -/
def State.placeRegs (s : State) (b : List Byte) (e : Sect) : State :=
  let xs := e.items b
  match e.ty with
  | 7 => xs.zipIdx.foldl (fun s x =>
      let p := tilPage (4 * e.group + x.2 / 4)
      (s.fput p (F.til.LB_BASE_BASE (x.2 % 4)) (landOf x.1).1).fput p (F.til.LB_LEN_LENGTH (x.2 % 4)) (landOf x.1).2) s
  | 8 => xs.foldl (fun s v =>
      let t := fieldAt v 0 0 12
      s.fput (tallyPage e.die t) (F.tal.COUNT_COUNT (t % 256)) (fieldAt v 4 0 32)) s
  | 9 => if e.unit = 32 then s else
      xs.zipIdx.foldl (fun s x => s.fput (pgSeq e.die e.unit) (F.seq.CURSOR_TALLY x.2) (fieldAt x.1 0 0 12)) s
  | 10 => xs.foldl (fun s v =>
      let k := fieldAt v 0 0 6
      let p : Page := ⟨.dp, e.die⟩
      ((s.fput p (F.dp.SLOT_CFG_TAG k) (fieldAt v 0 8 8)).fput p (F.dp.SLOT_CFG_EXPECT k) (fieldAt v 0 16 9)).fput p
        (F.dp.SLOT_CFG_MODE k) (fieldAt v 0 25 4)) s
  | 11 =>
    let p : Page := ⟨.vst, e.die⟩
    let h := (structAt b e.off 64).getD 0
    let s := (s.fput p (F.vst.DIR_IMAGE_ID e.dirIx) (fieldAt h 0xC 0 32)).fput p (F.vst.DIR_LENGTH e.dirIx) e.len
    let s := (s.fput p (F.vst.DIR_TYPE e.dirIx) (fieldAt h 0 8 8 - 0x20)).fset p (F.vst.DIR_VALID e.dirIx) true
    (s.bump p F.vst.VSTORE_STAT_IMAGES 1).bump p F.vst.VSTORE_USED_BYTES e.len
  | _ => s

/-- A register key that a load clears: tallies and their sources, cursors, landing buffers, slot configurations, counts and marks,
the image directory. -/
def loadClears (key : Nat) : Bool :=
  let a := key / 8
  let o := a % 0x1000
  match pageAt a with
  | none => false
  | some p =>
    match p.ty with
    | .tal => 0x100 ≤ o && o < 0x900
    | .seq => 0x100 ≤ o && o < 0x300
    | .til => 0x240 ≤ o && o < 0x280 && o % 16 != 12
    | .dp => 0x400 ≤ o && (key % 256 < 32 || (64 ≤ key % 256 && key % 256 < 80))
    | .vst => o == 0x40 || o == 0x44 || 0x100 ≤ o
    | _ => false

/-- The placement of a good image (R197): what it does not list is empty or zero. -/
def State.placeImage (s : State) (b : List Byte) (h : Nat) (es : List Sect) : State :=
  let old := s.agate
  let a0 : Agate := { lateSeq := old.lateSeq, tenant := old.tenant, job := old.job, jobStart := old.jobStart,
                      lastTenant := old.lastTenant, fillDue := old.fillDue, diePhase := old.diePhase, reports := old.reports,
                      forecasts := old.forecasts, notices := old.notices,
                      fills := old.fills.map (fun (f : Fill) => { f with gen := 16 }), retiring := old.retiring }
  let a1 := es.foldl (placeAgate b) a0
  let a2 := { a1 with remote := Store.set none (Store.set none [] 0 (some (fieldAt h 0x14 0 12, fieldAt h 0x14 16 12))) 1
                        (some (fieldAt h 0x18 0 12, fieldAt h 0x18 16 12)) }
  let s1 : State := { s with agate := a2, regs := s.regs.filter (fun r => !loadClears r.1), slotHeld := [] }
  es.foldl (fun s e => s.placeRegs b e) s1

/-- The image at a device address: read, validated, or the first failure (R197). -/
def State.readImage (s : State) (addr : Nat) : State × Except LoadFail (List Byte × Nat × List Sect) :=
  let who : Agent := .tenant (Fin.ofNat 16 s.agate.tenant)
  match s.devRead who addr 64 with
  | (s, .error st) => (s, .error ⟨st, 0x3FF, 0⟩)
  | (s, .ok hb) =>
    match structAt hb 0 64 with
    | none => (s, .error ⟨stCheckFailed, 0x3FF, 0⟩)
    | some h =>
      match s.ttHeaderCheck addr h with
      | some st => (s, .error ⟨st, 0x3FF, 0⟩)
      | none =>
        match s.devRead who addr (IH.length h) with
        | (s, .error st) => (s, .error ⟨st, 0x3FF, 0⟩)
        | (s, .ok b) =>
          let es := sectsOf b (IH.sections h)
          let c := es.foldl (fun c e => c.note b e) {}
          let fail := (((List.range (IH.sections h)).findSome? fun i => s.sectionCheck c b h i).orElse fun _ => joinCheck es).orElse
            fun _ => segmentsCheck b (IH.segments h) es c
          match fail with
          | some f => (s, .error f)
          | none => (s, .ok (b, h, es))

end Sys2Proof.Machine
end

