-- ==== Sys2Proof/Machine/Shelf.lean ====
section
/-! DEFINITION. Shelves, the die network and the landing buffers (R146 to R161): span accesses, fill writes, the end of a fill. -/

namespace Sys2Proof.Machine

/-! ### Routers (R150, R151) -/

/-- A router: column and row. -/
abbrev Router := Nat × Nat

/-- The router of a tile's physical group. -/
def State.routerOf (s : State) (tile : Nat) : Router :=
  let p := s.fget ⟨.seq, tile / 4⟩ F.seq.SEQ_PHYS_PHYS_ID % 34
  (p % 6, p / 6)

/-- The router of a shared block. -/
def blockRouter (r55 : Bool) : Router := if r55 then (5, 5) else (4, 5)

/-- Whether a transaction between two routers uses a mesh link of the source die, and of the target die; `cross`: it crosses the seam,
`ends`: the shared-block routers at its ends (R151). -/
def usesLinks (a b : Router) (cross : Bool) (ends : List Router) : Bool × Bool :=
  if !cross then (a != b, false)
  else if ends.contains (4, 5) then (a != (4, 5), b != (4, 5))
  else if ends.contains (5, 5) then (a != (5, 5), b != (5, 5))
  else (a.1 != b.1 || a.2 != 0, b.2 != 0)

/-- `n` bytes of a die-network transaction from die `d0` to die `d1`, counted on the network and seam pages (R161, R162): `out` bytes go
with the request, otherwise they come back. -/
def State.netBytes (s : State) (d0 d1 : Nat) (links : Bool × Bool) (n : Nat) (out : Bool) : State :=
  let s := if links.1 then s.bump ⟨.net, d0⟩ F.net.NET_BYTES_COUNT n else s
  let s := if links.2 then s.bump ⟨.net, d1⟩ F.net.NET_BYTES_COUNT n else s
  if d0 = d1 then s
  else if (d0 = 0) = out then s.bump ⟨.seam, 0⟩ F.seam.SEAM_BYTES_01_COUNT n
  else s.bump ⟨.seam, 0⟩ F.seam.SEAM_BYTES_10_COUNT n

/-! ### Span accesses (R147, R148) -/

/-- The key of the first byte of a span. -/
def spanKey (tile span : Nat) : Nat := tile * 2 ^ 21 + 64 * span

/-- The bytes of a span after a write under byte enables (R148). -/
def spanMerge (old : List Byte) (en : Nat) (data : Nat) : List Byte :=
  old.zipIdx.map fun x => if bitAt en x.2 then BitVec.ofNat 8 (data >>> (8 * x.2)) else x.1

/-- The requesting tile, if a tile makes the access. -/
def spanTile (f : SpanFrom) (t : Nat) : Option Nat :=
  match f with
  | .own => none
  | .group i => some (t / 4 * 4 + i.val)
  | .net x => some x.val
  | .block _ _ => none

/-- What a span access counts (R147, R153, R160 to R162): the bytes at the Shelf and at the requesting tile, bank waits, the wait
beyond the unloaded reach. -/
def State.countSpan (s : State) (f : SpanFrom) (t n : Nat) (write : Bool) (waits late : Nat) : State :=
  let p := tilPage t
  let s := s.bump p F.til.SHF_BANK_CONF_COUNT waits
  let s := if f = .own then s.bump p F.til.SHF_LOCAL_BYTES_COUNT n else s.bump p F.til.SHF_IN_BYTES_COUNT n
  let s := match spanTile f t with
    | some x => (s.bump (tilPage x) F.til.SHF_OUT_BYTES_COUNT n).bump (tilPage x) F.til.SHF_REMOTE_WAIT_COUNT late
    | none => s
  match f with
  | .net x => s.netBytes (x.val / 128) (t / 128) (usesLinks (s.routerOf x.val) (s.routerOf t) (x.val / 128 != t / 128) []) n write
  | .block d r => s.netBytes d.val (t / 128)
      (usesLinks (blockRouter r) (s.routerOf t) (d.val != t / 128) [blockRouter r]) n write
  | _ => s

/-- A granted span access (R148): a read returns the 64 bytes of the span, a write changes the enabled ones. -/
def State.spanAccess (s : State) (f : SpanFrom) (t span : Nat) (write : Option (Nat × Nat)) (waits late : Nat) : State :=
  let old := Store.read 0 s.shelf (spanKey t span) 64
  match write with
  | none =>
    { s with out := s.out ++ [Out.read (spanKey t span) old] }.countSpan f t 64 false waits late
  | some (en, data) =>
    { s with shelf := Store.write 0 s.shelf (spanKey t span) (spanMerge old en data) }.countSpan f t (popCount 64 en) true waits late

/-- A span access as it stands when the tile is awake: an isolated group's Shelf answers ACCESS (R439). -/
def State.spanNow (s : State) (f : SpanFrom) (t span : Nat) (write : Option (Nat × Nat)) (waits late : Nat) : State :=
  if s.isolated (tilPage t) then { s with out := s.out ++ [Out.ended (spanKey t span) stAccess] }
  else s.spanAccess f t span write waits late

/-- SHELF_SPAN_ACCESS (R147, R148): a port's grant reads or writes one span of a tile's Shelf, after `waits` tile cycles at the bank
and `late` tile cycles beyond its unloaded reach. In NAP it wakes the package and waits (R438). -/
def execShelfSpanAccess (f : SpanFrom) (t : Fin 256) (span : Fin 24576) (write : Option (BitVec 64 × BitVec 512)) (waits : Fin 4)
    (late : Nat) (s : State) : Host.Outcome State Fault Refusal :=
  let w := write.map fun x => (x.1.toNat, x.2.toNat)
  let s := if s.pwr.goal = 2 then s.abortEntry 0 else s
  .next (s.whenAwake (.span f t.val span.val w waits.val late) fun s => s.spanNow f t.val span.val w waits.val late)

/-! ### Fills (R156 to R158) -/

/-- A fill as it stands after its next 64 bytes. -/
def Fill.moved (f : Fill) : Fill := { f with pos := f.pos + 64 }

/-- Fill `k` replaced. -/
def State.putFill (s : State) (k : Nat) (f : Fill) : State := { s with agate.fills := s.agate.fills.set k f }

/-- The writes of a fill still land: its buffer is in the generation it was issued under (R157). -/
def State.fillCurrent (s : State) (f : Fill) : Bool := s.fget (tilPage f.tile) (F.til.LB_STAT_GEN f.buf) == f.gen

/-- LB_FILL_WRITE (R157): the next 64 bytes of fill `k` are read and arrive at the bank: written where the generation is the buffer's,
discarded and counted otherwise. A read that ends with a status ends the fill, and the run where the fill is its own (R194). -/
def execLbFillWrite (k : Nat) (s : State) : Host.Outcome State Fault Refusal :=
  match s.agate.fills[k]? with
  | none => .next s
  | some f =>
    if f.len ≤ f.pos then .next s else
    let p := tilPage f.tile
    match s.devRead (.tenant (Fin.ofNat 16 s.agate.tenant)) (f.src + f.pos) 64 with
    | (s, .error st) =>
      let s := { s with agate.fills := s.agate.fills.eraseIdx k }
      .next (if s.fillCurrent f then s.noteRun st else s)
    | (s, .ok bs) =>
      let s := s.putFill k f.moved
      if s.fillCurrent f then
        let at_ := f.tile * 2 ^ 21 + s.fget p (F.til.LB_BASE_BASE f.buf) + f.pos
        .next ({ s with shelf := Store.write 0 s.shelf at_ bs }.bump p F.til.SHF_IN_BYTES_COUNT 64)
      else .next ((s.bump p (F.til.LB_DROP_COUNT f.buf) 1).event p 16)

/-- The fill tally of a fill that has landed: sent, or kept for the stream while the fill is speculative (R186, R187). -/
def State.fillTally (s : State) (f : Fill) : State :=
  match f.sig with
  | none => s
  | some n =>
    if f.spec then
      let x := s.stream f.die f.stream
      s.putStream f.die f.stream { x with deferred := x.deferred ++ [n] }
    else s.notify n.die n.tally n.amount n.src

/-- FILL_COMPLETE (R157): the last write of fill `k` is visible: a FILLING buffer of its generation becomes FULL. -/
def execFillComplete (k : Nat) (s : State) : Host.Outcome State Fault Refusal :=
  match s.agate.fills[k]? with
  | none => .next s
  | some f =>
    if f.pos < f.len then .next s else
    let s := { s with agate.fills := s.agate.fills.eraseIdx k }
    if s.fillCurrent f && s.lbState f.tile f.buf == 1 then
      let s := s.fput (tilPage f.tile) (F.til.LB_STAT_STATE f.buf) 2
      let x := s.stream f.die f.stream
      let s := s.putStream f.die f.stream { x with bufAt := Store.set 0 x.bufAt (4 * (f.tile % 4) + f.buf) s.time.toNat }
      .next (s.fillTally f)
    else .next s

end Sys2Proof.Machine
end

