-- ==== Sys2Proof/Machine/TimeBase.lean ====
section
/-! DEFINITION. The time base (R163 to R167, R477): TIME, its steps and its slewing, PPS. -/

namespace Sys2Proof.Machine

def pgTim : Page := ⟨.tim, 0⟩
def pgServo : Page := ⟨.servo, 0⟩

/-- FREQ_ADJ as a signed number, in 1/256 ppb. -/
def State.freqAdj (s : State) : Int := signedOf 32 (s.fget pgTim F.tim.FREQ_ADJ_ADJ)

/-- A correction within ±200 ppm (R164). -/
def clampAdj (v : Int) : Int := max (-51200000) (min 51200000 v)

/-- FREQ_ADJ takes a correction, clamped. -/
def State.putAdj (s : State) (v : Int) : State := s.fput pgTim F.tim.FREQ_ADJ_ADJ (unsignedOf 32 (clampAdj v))

/-- One nanosecond passes: the time since the release of reset, and TIME once it has been set, corrected by FREQ_ADJ
(R163, R164). -/
def State.tick (s : State) : State :=
  let s := { s with uptime := s.uptime + 1 }
  if s.tbase.set then
    let f := s.tbase.frac + (256000000000 + s.freqAdj).toNat
    { s with time := s.time + BitVec.ofNat 64 (f / 256000000000), tbase.frac := f % 256000000000 }
  else s

/-- Both Agate engines are EMPTY or IDLE. -/
def State.agateIdle (s : State) : Bool :=
  (s.agtState 0 == 0 || s.agtState 0 == 2) && (s.agtState 1 == 0 || s.agtState 1 == 2)

/-- TIME stepped; every port finds its place in its gate cycle anew (R164, R319). -/
def State.setTime (s : State) (v : Nat) : State :=
  let s := { s with time := BitVec.ofNat 64 v, tbase.frac := 0, tbase.set := true }
  (List.range 8).foldl (fun s n => (s.gateChange n).showGates n) s

/-- TIME_SET (R164). -/
def execTimeSet (r : Requester) (v : BitVec 64) (s : State) : Host.Outcome State Fault Refusal :=
  .next (s.hubAdmit r pgTim 0x48 fun s => if s.agateIdle then s.setTime v.toNat else s.event pgTim 8)

/-- The state of the servo changes, with LOCK_GAINED or LOCK_LOST (R166, R167). -/
def State.servoState (s : State) (st : Nat) : State :=
  let old := s.fget pgServo F.servo.SERVO_STAT_STATE
  let s := s.fput pgServo F.servo.SERVO_STAT_STATE st
  if old ≠ 1 ∧ st = 1 then s.event pgServo 9 else if old = 1 ∧ st ≠ 1 then s.event pgServo 10 else s

/-- A servo update with error `e` (R166). -/
def State.servoUpdate (s : State) (e : Int) : State :=
  let kp : Int := s.fget pgServo F.servo.SERVO_GAIN_KP
  let ki : Int := s.fget pgServo F.servo.SERVO_GAIN_KI
  let i : Int := s.tbase.integral - ki * e
  let s := { s with tbase.integral := i }.putAdj (i - kp * e)
  let s := s.fput pgServo F.servo.LAST_ERROR_ERROR (unsignedOf 32 e)
  let near := e.natAbs ≤ s.fget pgServo F.servo.SERVO_CTRL_LOCK_NS
  let good := if near then min 8 (s.tbase.good + 1) else 0
  let s := { s with tbase.good := good }
  s.servoState (if near then (if good = 8 ∨ s.fget pgServo F.servo.SERVO_STAT_STATE = 1 then 1 else 0) else 0)

/-- The error of a captured edge: TIME modulo a second, folded into (−5 × 10⁸, 5 × 10⁸] (R166). -/
def ppsError (t : Nat) : Int :=
  let r : Int := (t % 1000000000 : Nat)
  if r ≤ 500000000 then r else r - 1000000000

/-- PPS_EDGE (R166, R477): a rising edge on PPS_IN; one within 500 ms of the last captured is ignored. -/
def execPpsEdge (s : State) : Host.Outcome State Fault Refusal :=
  if s.tbase.ppsSeen && s.uptime < s.tbase.ppsAt + 500000000 then .next s else
  let s := { s with tbase.ppsSeen := true, tbase.ppsAt := s.uptime }
  let s := (s.fput pgServo F.servo.PPS_CAPT_TIME s.time.toNat).event pgServo 8
  .next (if s.fget pgServo F.servo.SERVO_CTRL_MODE = 1 then s.servoUpdate (ppsError s.time.toNat) else s)

/-- SERVO_OFFSET (R166, R167): accepted in PTP mode only. -/
def execServoOffset (r : Requester) (e : BitVec 32) (s : State) : Host.Outcome State Fault Refusal :=
  .next (s.hubAdmit r pgServo 0x48 fun s =>
    if s.fget pgServo F.servo.SERVO_CTRL_MODE = 2 then s.servoUpdate (signedOf 32 e.toNat) else s.discard pgServo 0x48 0)

/-- HOLDOVER (R166): no update for 3 s outside FREE mode. -/
def execHoldover (s : State) : Host.Outcome State Fault Refusal :=
  if s.fget pgServo F.servo.SERVO_CTRL_MODE = 0 then .next s
  else .next (({ s with tbase.good := 0 }.putAdj s.tbase.integral).servoState 2)

/-- PPS_OUT_PULSE (R477): TIME stands at a multiple of 10⁹ ns. -/
def execPpsOutPulse (s : State) : Host.Outcome State Fault Refusal :=
  if s.tbase.set && s.time.toNat % 1000000000 == 0 && s.fon pgServo F.servo.PPS_OUT_CFG_EN then
    .next { s with out := s.out ++ [Out.pulse (s.fget pgServo F.servo.PPS_OUT_CFG_WIDTH_MS)] }
  else .next s

end Sys2Proof.Machine
end

