-- ==== Sys2Proof/Machine/Agate.lean ====
section
/-! DEFINITION. Agate (R168 to R203): loading a timetable, starting and ending a run, fetching beats into the windows, firing them,
delivering descriptors, decisions with speculation and squash, lateness. -/

namespace Sys2Proof.Machine

/-! ### Lateness (R189, R190) -/

/-- The lateness page of a die. -/
def pgLate (d : Nat) : Page := ⟨.late, d⟩

/-- What a lateness record says. -/
structure LateRecord where
  fire : Nat
  late : Nat
  beat : Nat
  seg : Nat
  stream : Nat
  cause : Nat
  tally : Nat
  source : Nat
  phase : Nat
  iter : Nat
deriving DecidableEq, Repr

/-- The image of a record (R190). -/
def LateRecord.image (r : LateRecord) (seq : Nat) : Nat :=
  placeAt 0 0 64 r.fire + placeAt 8 0 32 (min (2 ^ 32 - 1) r.late) + placeAt 0xC 0 16 r.beat + placeAt 0xC 16 10 r.seg
    + placeAt 0xC 26 6 r.stream + placeAt 0x10 0 4 r.cause + placeAt 0x10 8 12 r.tally + placeAt 0x14 0 16 r.source
    + placeAt 0x14 16 8 r.phase + placeAt 0x18 0 32 r.iter + placeAt 0x1C 0 32 seq

/-- A record written to its die's ring, or dropped where the ring is full; the sequence number advances either way (R190, R200). -/
def State.putLate (s : State) (d : Nat) (r : LateRecord) : State :=
  let p := pgLate d
  if !s.fon p F.late.LATE_CTRL_RING_EN || r.late < s.fget p F.late.LATE_CTRL_LATE_MIN then s else
  let seq := Store.get 0 s.agate.lateSeq d
  let s := { s with agate.lateSeq := Store.set 0 s.agate.lateSeq d ((seq + 1) % 2 ^ 32) }
  let n := 2 ^ s.fget p F.late.RING_SIZE_LOG2
  let h := s.fget p F.late.RING_HEAD_HEAD % n
  if (h + 1) % n = s.fget p F.late.RING_TAIL_TAIL % n then s.bump p F.late.DROPPED_COUNT 1 else
  let img := r.image seq
  let s := (s.devWrite .firmware (s.fget p F.late.RING_BASE_ADDR + 32 * h) (leBytes 32 img)).1
  let s := s.fput p F.late.RING_HEAD_HEAD ((h + 1) % n)
  (List.range 8).foldl (fun s k => s.fput p (F.late.LAST_RECORD k) (fieldAt img (4 * k) 0 32)) s

/-- A condition a beat waited for: TIME it was met, cause, SOURCE, TALLY. -/
structure Met where
  at_ : Nat
  cause : Nat
  source : Nat
  tally : Nat := 0
deriving DecidableEq, Repr

/-- The condition met last; of several met at once the lowest cause. -/
def lastMet : List Met → Met
  | [] => ⟨0, 0, 0, 0⟩
  | x :: rest => let y := lastMet rest; if x.at_ < y.at_ then y else x

/-- A stream's current phase. -/
def State.phaseOf (s : State) (d st : Nat) : Nat :=
  if st = 32 then Store.get 0 s.agate.diePhase d else s.fget (pgSeq d st) F.seq.SEQ_WAIT_PHASE

/-- A beat of a stream that was due at `planned` and fires, or is released, now: counted when it is late, with its record (R189). -/
def State.noteLate (s : State) (d st planned slack beat seg iter : Nat) (m : Met) : State :=
  let now := s.time.toNat
  if now ≤ planned + slack ∨ m.at_ ≤ planned then s else
  let s := s.bump (pgAgt d) F.agt.LATE_BEATS_COUNT 1
  let s := if st = 32 then s else s.bump (pgSeq d st) F.seq.SEQ_LATE_COUNT 1
  let s := { s with agate.runLate := true }.event (pgAgt d) 10
  if m.cause = 3 then s
  else s.putLate d ⟨now, now - planned, beat, seg, st, m.cause, m.tally, m.source, s.phaseOf d st, iter⟩

/-! ### Windows (R185) -/

/-- A segment's table entry. -/
def State.seg (s : State) (g : Nat) : Nat := Store.get 0 s.agate.segs g

/-- FIRST of a stream's list of beats. -/
def State.listFirst (s : State) (d g st : Nat) : Nat := dirFirst (Store.get 0 s.agate.dirs (d * 2 ^ 16 + 33 * g + st))

/-- The decision of an entry, once it has reached a die: successor and anchor. -/
def State.decidedAt (s : State) (d entry : Nat) : Option (Nat × Nat) := Store.get none s.agate.decided (d * 2 ^ 32 + entry)

/-- The fetch enters a segment. -/
def Stream.enter (x : Stream) (g entry anchor : Nat) (spec : Bool) : Stream :=
  let i := Store.get 0 x.iters g
  { x with fetch := some (g, 0, entry, i, anchor), iters := Store.set 0 x.iters g (i + 1), fetchSpec := spec,
           specSegs := if spec then g :: x.specSegs else x.specSegs }

/-- Behind the END fetched last, the fetch goes on into the successor, or into PREDICT while the successor is unknown; never past the END
of a predicted segment whose own successor is unknown (R185). -/
def State.runOn (s : State) (d st : Nat) : State :=
  let x := s.stream d st
  match x.fetch, x.lastEnd with
  | none, some (g, e, a, spec) =>
    let w := s.seg g
    if SG.decides w then
      if spec then s else
      match s.decidedAt d e with
      | some (succ, anchor) => if succ = 0x3FF then s else s.putStream d st (x.enter succ (e + 1) anchor false)
      | none =>
        s.putStream d st ({ x with specFrom := some (g, e, a) }.enter (SG.predict w) (e + 1) (a + SG.period w) true)
    else if SG.next w = 0x3FF then s
    else s.putStream d st (x.enter (SG.next w) (e + 1) (a + SG.period w) spec)
  | _, _ => s

/-- Why a stream's head has not fired: SEQ_WAIT.REASON (R203). -/
def State.waitReason (s : State) (d st : Nat) : Nat :=
  let x := s.stream d st
  if !s.running then 6 else
  match x.head with
  | none => if x.fetch.isNone then 5 else 0
  | some w =>
    let k := BT.kind w.beat
    if k = kIssue ∧ x.deliver ≠ [] then 3
    else if w.spec ∧ k ≠ kFill ∧ !(k = kIssue ∧ BT.specOk w.beat) then 5
    else if k ≠ kFill ∧ s.time.toNat < w.anchor + BT.notBefore w.beat then 1
    else if !s.waitsMet d st w.spec w.beat then 2
    else if k = kRelease ∧ s.lbState (4 * (32 * d + st) + BT.relTile w.beat) (BT.relBuf w.beat) = 1 then 4
    else if k = kFill ∧ s.lbState (4 * (32 * d + st) + BT.fillTile w.beat) (BT.fillBuf w.beat) = 1 then 4
    else 0

/-- The forecast of a stream: the first beat of its window with another phase, and its planned time (R191). -/
def State.forecast (s : State) (d st : Nat) : Option (Nat × Nat) :=
  let x := s.stream d st
  ((x.window.find? fun w => !w.fired && BT.phase w.beat != 0 && BT.phase w.beat != s.phaseOf d st)).map fun w =>
    (BT.phase w.beat, w.anchor + BT.notBefore w.beat)

/-- The sequencer page shows where a group's stream stands (R203); a new forecast is sent to PWR (R191). -/
def State.showStream (s : State) (d st : Nat) : State :=
  if st = 32 then s else
  let p := pgSeq d st
  let x := s.stream d st
  let s := match x.head with
    | some w => (s.fput p F.seq.SEQ_POS_HEAD w.index).fput p F.seq.SEQ_POS_SEGMENT w.seg
    | none => s
  let s := (s.fput p F.seq.SEQ_WAIT_WINDOW x.window.length).fset p F.seq.SEQ_WAIT_SPEC (x.window.any (·.spec))
  let s := s.fput p F.seq.SEQ_WAIT_REASON (s.waitReason d st)
  match s.forecast d st with
  | none => s.fput p F.seq.SEQ_WAIT_FORECAST 0
  | some (ph, at_) =>
    if s.fget p F.seq.SEQ_WAIT_FORECAST = ph ∧ s.fget p F.seq.SEQ_FC_TIME_TIME = at_ then s
    else
      let s := (s.fput p F.seq.SEQ_WAIT_FORECAST ph).fput p F.seq.SEQ_FC_TIME_TIME at_
      { s with agate.forecasts := s.agate.forecasts ++ [⟨32 * d + st, ph, at_⟩] }

/-- A fetched beat enters its stream's window. -/
def Stream.push (x : Stream) (b ix : Nat) (f : Nat × Nat × Nat × Nat × Nat) : Stream :=
  let (g, pos, e, i, a) := f
  let x := { x with window := x.window ++ [WinBeat.mk b ix g e i a x.fetchSpec false] }
  if BT.kind b = kEnd then { x with fetch := none, lastEnd := some (g, e, a, x.fetchSpec) }
  else { x with fetch := some (g, pos + 1, e, i, a) }

/-- BEAT_FETCH (R185, R194): a stream of a die fetches its next beat and checks it; `upset` are the bits of the store that have flipped. -/
def execBeatFetch (d : Fin 2) (st : Fin 33) (upset : BitVec 256) (s : State) : Host.Outcome State Fault Refusal :=
  if !s.running || 64 ≤ (s.stream d st).window.length then .next s else
  let s := s.runOn d st
  let x := s.stream d st
  match x.fetch with
  | none => .next (s.showStream d st)
  | some (g, pos, e, i, a) =>
    let ix := s.listFirst d g st + pos
    let raw := Store.get 0 s.agate.beats (d.val * 2 ^ 16 + ix) ^^^ upset.toNat
    match checkStruct 32 raw with
    | .failed => .next ((s.logEvent (pgAgt d) lcStoreUncorrectable stCheckFailed ix).endRun stCheckFailed)
    | .clean b => .next ((s.putStream d st (x.push b ix (g, pos, e, i, a))).showStream d st)
    | .corrected b =>
      let s := (s.bump (pgAgt d) F.agt.STORE_CORR_COUNT 1).event (pgAgt d) 11
      .next ((s.putStream d st (x.push b ix (g, pos, e, i, a))).showStream d st)

/-! ### Firing (R177, R178) -/

/-- The streams of a die take part: its engine, or the group's sequencer, is enabled and not isolated. -/
def State.streamUp (s : State) (d st : Nat) : Bool :=
  let p := if st = 32 then pgAgt d else pgSeq d st
  s.enabled p && !s.isolated p && s.running && !s.fon ⟨.ccr, d⟩ F.ccr.FAULT_STAT_DIE_FAULT

/-- What the condition of R177 asks of a beat that is not a FILL, at the head of its stream. -/
def State.mayFire (s : State) (d st : Nat) (w : WinBeat) : Bool :=
  let k := BT.kind w.beat
  s.streamUp d st && (!w.spec || (k == kIssue && BT.specOk w.beat))
    && w.anchor + BT.notBefore w.beat ≤ s.time.toNat && s.waitsMet d st w.spec w.beat
    && (k != kIssue || (s.stream d st).deliver.isEmpty)
    && (k != kRelease || s.lbState (4 * (32 * d + st) + BT.relTile w.beat) (BT.relBuf w.beat) != 1)

/-- A beat marked as fired; beats that have fired leave the window at its head. -/
def Stream.mark (x : Stream) (w : WinBeat) : Stream :=
  let ws := x.window.map fun v => if v.entry = w.entry ∧ v.index = w.index then { v with fired := true } else v
  { x with window := ws.dropWhile (·.fired) }

/-- Consuming waits advance their cursors, the speculative copy for a speculative firing (R175, R178, R186). -/
def State.consume (s : State) (d st : Nat) (w : WinBeat) : State :=
  (List.range (BT.waits w.beat)).foldl (fun s i =>
    if !BT.cons w.beat i then s else
    match s.viewIx d st (BT.tally w.beat i) with
    | none => s
    | some v =>
      if w.spec then
        let x := s.stream d st
        s.putStream d st { x with specCursors := Store.set 0 x.specCursors v (Store.get 0 x.specCursors v + BT.thresh w.beat i) }
      else s.putCursor d st v (s.cursor d st v + BT.thresh w.beat i)) s

/-- A new phase is reported to PWR (R191); speculative beats report none. -/
def State.reportPhase (s : State) (d st : Nat) (w : WinBeat) : State :=
  let ph := BT.phase w.beat
  if w.spec ∨ ph = 0 ∨ ph = s.phaseOf d st then s else
  let s := if st = 32 then { s with agate.diePhase := Store.set 0 s.agate.diePhase d ph }
    else s.fput (pgSeq d st) F.seq.SEQ_WAIT_PHASE ph
  { s with agate.reports := s.agate.reports ++ [⟨if st = 32 then 64 + d else 32 * d + st, ph, s.time.toNat⟩] }

/-- The SIG notice of a beat with a source code. -/
def sigOf (d : Nat) (b src : Nat) : Option Notice :=
  if BT.sigEn b then some ⟨if BT.sigOther b then 1 - d else d, BT.sigTally b, 1, src⟩ else none

/-- The SIG of a beat advances its tally, or waits for confirmation (R172, R178, R186). -/
def State.signal (s : State) (d st : Nat) (w : WinBeat) : State :=
  match sigOf d w.beat (srcCode 8 (64 * d + st)) with
  | none => s
  | some n =>
    if w.spec then let x := s.stream d st; s.putStream d st { x with deferred := x.deferred ++ [n] }
    else s.notify n.die n.tally n.amount n.src

/-- What the head's conditions were met by, for the lateness cause (R189). -/
def State.metBy (s : State) (d st : Nat) (w : WinBeat) : Met :=
  let x := s.stream d st
  let k := BT.kind w.beat
  let tly : Met := ⟨x.tMet, 1, s.fget (tallyPage d x.metTally) (F.tal.SRC_LAST_SRC (x.metTally % 256)), x.metTally⟩
  let que : List Met := if k = kIssue then [⟨x.tDelivered, 2, x.dTile, 0⟩] else []
  let buf : List Met := if k = kRelease then
      [⟨Store.get 0 x.bufAt (4 * BT.relTile w.beat + BT.relBuf w.beat), 5, 4 * (32 * d + st) + BT.relTile w.beat, 0⟩] else []
  lastMet ([tly] ++ que ++ [⟨x.tFired, 3, 64 * d + st, 0⟩] ++ buf)

/-- The head of a stream fires if it is of a kind and may: cursors, phase, the kind's action, SIG (R178). -/
def State.fireHead (s : State) (d st k : Nat) (act : State → WinBeat → State) : State :=
  let x := s.stream d st
  match x.head with
  | none => s
  | some w =>
    if BT.kind w.beat ≠ k then s
    else if !s.mayFire d st w then
      if s.running && s.waitOver d st w.spec w.beat then s.event (pgAgt d) 12 else s
    else
      let m := s.metBy d st w
      let s := s.consume d st w
      let x := (s.stream d st).mark w
      let x := { x with tFired := s.time.toNat, fFired := if k = kRelease then s.time.toNat else x.fFired,
                        specCount := if w.spec then x.specCount + 1 else x.specCount }
      let s := (s.putStream d st x).bump (pgAgt d) F.agt.BEATS_FIRED_COUNT 1
      let s := if w.spec then s.bump (pgAgt d) F.agt.SPEC_FIRED_COUNT 1 else s
      let s := s.reportPhase d st w
      let s := if w.spec then s else s.noteLate d st (w.anchor + BT.notBefore w.beat) (BT.slack w.beat) w.index w.seg w.iter m
      ((act (s.signal d st w) w)).showStream d st

/-- The descriptors an ISSUE delivers (R172). -/
def deliveries (d st : Nat) (w : WinBeat) : List Delivery :=
  let b := w.beat
  if BT.unit b = 1 ∨ BT.unit b = 2 then
    ((bitList 4 (BT.tiles b)).zipIdx.flatMap fun ti => (List.range (BT.count b)).map fun c =>
      ⟨BT.unit b, 4 * (32 * d + st) + ti.1, BT.desc b + ti.2 * BT.count b + c, w.spec⟩)
  else (List.range (BT.count b)).map fun c => ⟨BT.unit b, 0, BT.desc b + c, false⟩

/-- ISSUE (R172, R177, R178). -/
def execIssue (d : Fin 2) (st : Fin 33) (s : State) : Host.Outcome State Fault Refusal :=
  .next (s.fireHead d st kIssue fun s w =>
    let x := s.stream d st
    let si : List SpecIssue := if w.spec then [⟨w.anchor + BT.notBefore w.beat, BT.slack w.beat, w.index, w.seg, w.iter⟩] else []
    s.putStream d st { x with deliver := deliveries d st w, specIssues := x.specIssues ++ si })

/-- The unit has room for a descriptor: four in a tile's queue, four in a vector queue (R96, R116, R178). -/
def State.unitRoom (s : State) (v : Delivery) : Bool :=
  if v.unit = 1 then (s.tile v.tile).queue.length < 4 else if v.unit = 2 then (s.tile v.tile).vqueue.length < 4 else true

/-- A descriptor handed to its unit. -/
def State.deliverTo (s : State) (d st : Nat) (v : Delivery) : State :=
  let g := 32 * d + st
  let td := Store.get 0 s.agate.tileDesc (g * 2048 + v.index)
  let dd := Store.get 0 s.agate.dieDesc (d * 2048 + v.index)
  match v.unit with
  | 1 => s.tileArrive v.tile td v.held
  | 2 => s.vecArrive v.tile td v.held
  | 3 => s.colArrive d dd false
  | 4 => s.tirArrive d dd false
  | _ => s.xptArrive d dd false

/-- DESCRIPTOR_DELIVER (R178): the next descriptor of a stream's ISSUE reaches its queue, if that has room. -/
def execDescriptorDeliver (d : Fin 2) (st : Fin 33) (s : State) : Host.Outcome State Fault Refusal :=
  let x := s.stream d st
  match x.deliver with
  | [] => .next s
  | v :: rest =>
    if !s.running || !s.unitRoom v then .next s else
    let s := s.putStream d st { x with deliver := rest, tDelivered := s.time.toNat, dTile := v.tile }
    let s := if v.held then s.bump (pgSeq d st) F.seq.SEQ_HELD_COUNT 1 else s
    .next ((s.deliverTo d st v).showStream d st)

/-- RELEASE (R157, R177): the buffer returns to EMPTY with GEN + 1; on an EMPTY buffer nothing. -/
def execRelease (d : Fin 2) (st : Fin 33) (s : State) : Host.Outcome State Fault Refusal :=
  .next (s.fireHead d st kRelease fun s w =>
    let t := 4 * (32 * d.val + st.val) + BT.relTile w.beat
    if s.lbState t (BT.relBuf w.beat) = 2 then s.lbAdvance t (BT.relBuf w.beat) else s)

/-- SIGNAL (R172). -/
def execBeatSignal (d : Fin 2) (st : Fin 33) (s : State) : Host.Outcome State Fault Refusal :=
  .next (s.fireHead d st kSignal fun s _ => s)

/-- DECIDE (R182): the decision point is handed to its control core. -/
def execDecideBeat (d : Fin 2) (st : Fin 33) (s : State) : Host.Outcome State Fault Refusal :=
  .next (s.fireHead d st kDecide fun s w =>
    let e := Store.get 0 s.agate.preds (d.val * 256 + BT.dpoint w.beat)
    let q : Deciding := ⟨d, w.entry, w.seg, BT.dpoint w.beat, 2 * d.val + PE.core e, s.time.toNat, w.anchor⟩
    { s with agate.deciding := s.agate.deciding ++ [q] })

/-! ### Fills (R172, R177, R186) -/

/-- What R177 asks of the next FILL of a stream: every earlier FILL and RELEASE has fired, its waits are met, its buffer is EMPTY or FULL,
and no write of an earlier fill of the buffer under its generation is in flight (R157). -/
def State.mayFill (s : State) (d st : Nat) (x : Stream) (w : WinBeat) : Bool :=
  let t := 4 * (32 * d + st) + BT.fillTile w.beat
  let n := BT.fillBuf w.beat
  let before := x.window.takeWhile fun v => !(v.entry == w.entry && v.index == w.index)
  s.streamUp d st && s.waitsMet d st w.spec w.beat && s.lbState t n != 1
    && before.all (fun v => v.fired || BT.kind v.beat != kRelease)
    && !(s.agate.fills.any fun f => f.tile == t && f.buf == n && f.gen == s.fget (tilPage t) (F.til.LB_STAT_GEN n))

/-- The fill a FILL begins. -/
def State.fillOf (s : State) (d st : Nat) (w : WinBeat) : Fill :=
  let b := w.beat
  let t := 4 * (32 * d + st) + BT.fillTile b
  ⟨d, st, t, BT.fillBuf b, s.fget (tilPage t) (F.til.LB_STAT_GEN (BT.fillBuf b)),
   BT.src b + (if BT.advance b then w.iter * BT.len b else 0), BT.len b, 0, sigOf d b (srcCode 3 t), w.spec⟩

/-- FILL (R172, R177, R186): the next FILL of a stream fires; a source that the run may not read ends the run (R194). -/
def execFill (d : Fin 2) (st : Fin 33) (s : State) : Host.Outcome State Fault Refusal :=
  let x := s.stream d st
  match x.nextFill with
  | none => .next s
  | some w =>
    if !s.mayFill d st x w then
      .next (if s.running && s.waitOver d st w.spec w.beat then s.event (pgAgt d) 12 else s)
    else
      let f := s.fillOf d st w
      match s.rangeCheck (.tenant (Fin.ofNat 16 s.agate.tenant)) false f.src f.len with
      | some e => .next (s.endRun e)
      | none =>
        let k := 4 * (f.tile % 4) + f.buf
        let m := lastMet [⟨x.fMet, 1, s.fget (tallyPage d x.fMetTally) (F.tal.SRC_LAST_SRC (x.fMetTally % 256)), x.fMetTally⟩,
          ⟨x.fFired, 3, 64 * d.val + st.val, 0⟩, ⟨Store.get 0 x.bufAt k, 5, f.tile, 0⟩]
        let s := s.consume d st w
        let y := (s.stream d st).mark w
        let y := { y with fFired := s.time.toNat,
                          tFired := if x.head = some w then s.time.toNat else y.tFired,
                          specCount := if w.spec then y.specCount + 1 else y.specCount,
                          specFills := if w.spec then y.specFills ++ [(f.tile, f.buf)] else y.specFills }
        let s := (s.putStream d st y).bump (pgAgt d) F.agt.BEATS_FIRED_COUNT 1
        let s := if w.spec then s.bump (pgAgt d) F.agt.SPEC_FIRED_COUNT 1 else s
        let s := s.reportPhase d st w
        let s := if w.spec then s else s.noteLate d st w.anchor 0 w.index w.seg w.iter m
        let s := { s with agate.fills := s.agate.fills ++ [f] }.fput (tilPage f.tile) (F.til.LB_STAT_STATE f.buf) 1
        .next (s.showStream d st)

/-! ### Segments (R168, R181, R184) -/

/-- The ITER of a stream's entry of a segment. -/
def Stream.iterAt (x : Stream) (g entry : Nat) : Nat :=
  match x.window.find? (·.entry == entry) with
  | some w => w.iter
  | none => match x.fetch with
    | some (_, _, e, i, _) => if e = entry then i else Store.get 0 x.iters g
    | none => Store.get 0 x.iters g

/-- A die's engine enters a segment: SEGMENT and ITER, and the COUNTs that the segment's decision point subtracts (R184, R199). -/
def State.enterDie (s : State) (d entry g : Nat) : State :=
  let s := (s.fput (pgAgt d) F.agt.AGT_STAT_SEGMENT g).fput (pgAgt d) F.agt.ITER_COUNT ((s.stream d 32).iterAt g entry)
  let w := s.seg g
  if !SG.decides w || SG.die w != d then s else
  let e := Store.get 0 s.agate.preds (d * 256 + SG.dpoint w)
  (List.range (PE.nrules e)).foldl (fun s j =>
    if PE.delta e j then
      { s with agate.captured := Store.set 0 s.agate.captured (d * 4096 + PE.tally e j) (s.tally d (PE.tally e j)) } else s) s

/-- Every stream of both dies has fired its END of an entry. -/
def State.allEnded (s : State) (entry : Nat) : Bool :=
  (List.range 2).all fun d => (List.range 33).all fun st => entry < (s.stream d st).ended

/-- The status of a run that ends at its end (R194). -/
def State.runStatus (s : State) : Nat := completedStatus s.agate.runNf s.agate.runSat s.agate.runLate

/-- The segment of the lowest open entry completes once every stream has fired its END; the run ends with it where it has no successor
or a STOP is pending (R168, R181, R194). -/
def State.complete (s : State) : State :=
  let e := s.agate.entry
  if !s.running || !s.allEnded e then s else
  let w := s.seg (Store.get 0 s.agate.segAt e - 1)
  let stop := if SG.decides w then (s.decidedAt 0 e).map (·.1) == some 0x3FF || (s.decidedAt 1 e).map (·.1) == some 0x3FF
    else SG.next w == 0x3FF
  if stop || s.agtState 0 == 4 then s.endRun s.runStatus
  else { s with agate.entry := e + 1, agate.segAt := Store.set 0 s.agate.segAt e 0 }

/-- BEAT_END (R168): the stream enters the successor once it is known. -/
def execBeatEnd (d : Fin 2) (st : Fin 33) (s : State) : Host.Outcome State Fault Refusal :=
  .next (s.fireHead d st kEnd fun s w =>
    let x := s.stream d st
    let s := s.putStream d st { x with ended := w.entry + 1 }
    let g := s.seg w.seg
    let s := if SG.decides g then
        match s.decidedAt d w.entry with
        | some (succ, _) => if st.val = 32 ∧ succ ≠ 0x3FF then s.enterDie d (w.entry + 1) succ else s
        | none => s
      else if SG.next g = 0x3FF then s
      else
        let s := { s with agate.segAt := Store.set 0 s.agate.segAt (w.entry + 1) (SG.next g + 1) }
        if st.val = 32 then s.enterDie d (w.entry + 1) (SG.next g) else s
    s.complete)

/-! ### Tallies (R174, R180, R201) -/

/-- TALLY_INCREMENT (R174, R180): increment `k` on the notice network reaches its tally unit. -/
def execTallyIncrement (k : Nat) (s : State) : Host.Outcome State Fault Refusal :=
  match s.agate.notices[k]? with
  | none => .next s
  | some n => .next ({ s with agate.notices := s.agate.notices.eraseIdx k }.advanceTally n.die n.tally n.amount n.src)

/-- WAIT_MET_NOTICE (R179): the sequencer hears that a wait has been met; its page shows what it waits for now. -/
def execWaitMetNotice (d : Fin 2) (st : Fin 33) (s : State) : Host.Outcome State Fault Refusal := .next (s.showStream d st)

/-- TALLY_ADD (R201): a write of TALLY_ADD on tally page `k` of a die. -/
def execTallyAdd (r : Requester) (d : Fin 2) (k : Fin 16) (j : BitVec 8) (n : BitVec 16) (s : State) : Host.Outcome State Fault Refusal :=
  .next (s.hubAdmit r ⟨.tal, 16 * d.val + k.val⟩ 0x40 fun s => s.advanceTally d (256 * k.val + j.toNat) n.toNat (srcCode 9 0))

/-! ### Decisions (R182 to R188) -/

/-- The summary slots of its die's page that a predicate entry reads. -/
def entrySlots (e : Nat) : List Nat :=
  ((List.range (PE.nrules e)).filter fun j => !PE.delta e j).map (PE.slot e)

/-- A word of a slot. -/
def State.slotWord (s : State) (d k w : Nat) : Word :=
  let p : Page := ⟨.dp, d⟩
  BitVec.ofNat 32 (match w with
    | 0 => s.fget p (F.dp.SLOT_W0_RESULT k) | 1 => s.fget p (F.dp.SLOT_W1_RESULT k)
    | 2 => s.fget p (F.dp.SLOT_W2_RESULT k) | _ => s.fget p (F.dp.SLOT_W3_RESULT k))

/-- FP32 comparison by OP (R59, R184): false where a NaN takes part. -/
def fpRule (op : Nat) (a b : Word) : Bool :=
  let nan := fpIsNaN a || fpIsNaN b
  match op with
  | 0 => fpLt a b | 1 => fpLe a b | 2 => fpLt b a | 3 => fpLe b a | 4 => fpEq a b | 5 => !nan && !fpEq a b
  | 6 => fpNonfinite a | _ => !fpNonfinite a

/-- Unsigned comparison by OP. -/
def natRule (op a b : Nat) : Bool :=
  match op with
  | 0 => a < b | 1 => a ≤ b | 2 => b < a | 3 => b ≤ a | 4 => a == b | _ => a != b

/-- Rule `j` of an entry of die `d` holds (R183, R184). -/
def State.ruleHolds (s : State) (d e j : Nat) : Bool :=
  if PE.delta e j then
    let t := PE.tally e j
    natRule (PE.op e j) ((s.tally d t + 2 ^ 32 - Store.get 0 s.agate.captured (d * 4096 + t)) % 2 ^ 32) (PE.const e j)
  else fpRule (PE.op e j) (s.slotWord d (PE.slot e j) (PE.word e j)) (BitVec.ofNat 32 (PE.const e j))

/-- The successor an entry chooses (R184). -/
def State.chooses (s : State) (d e : Nat) : Nat :=
  match (List.range (PE.nrules e)).find? (s.ruleHolds d e) with
  | some j => PE.succ e j
  | none => PE.dflt e

/-- The anchor of a decided successor sent at TIME `t` (R169). -/
def anchorOf (planned t align : Nat) (predicted : Bool) : Nat :=
  if predicted then planned else
  let x := max planned (t + 350)
  if align = 0 then x else planned + roundUp (x - planned) align

/-- DECISION_EVALUATE (R182, R184): the core of DECIDE `k` evaluates its entry once every slot it reads is COMPLETE, sends the successor
with its anchor to both engines, and re-arms the slots. `guard` names, where the point is a step's guard (R215), the segment that its
SKIP rules choose: such a decision is counted as a skip (R216). -/
def execDecisionEvaluate (k : Nat) (guard : Option (Fin 1023)) (s : State) : Host.Outcome State Fault Refusal :=
  match s.agate.deciding[k]? with
  | none => .next s
  | some q =>
    let p : Page := ⟨.dp, q.die⟩
    let e := Store.get 0 s.agate.preds (q.die * 256 + q.dpoint)
    let slots := (entrySlots e).eraseDups
    if !(slots.all fun i => s.fon p (F.dp.SLOT_STAT_COMPLETE i)) then .next s else
    let w := s.seg q.seg
    let succ := s.chooses q.die e
    let planned := q.anchor + SG.period w
    let pred := succ == SG.predict w
    let t := s.time.toNat
    let a := anchorOf planned t (if succ = 0x3FF then 0 else SG.align (s.seg succ)) pred
    let since := slots.foldl (fun m i => max m (Store.get 0 s.slotDone (64 * q.die + i))) q.fired
    let dec : Decision := ⟨q.entry, succ, a, a - planned, q.core, pred, since⟩
    let s := (((s.fput p F.dp.DEC_LAST_DPOINT q.dpoint).fput p F.dp.DEC_LAST_SUCC succ).fset p F.dp.DEC_LAST_PREDICTED pred).fput p
      F.dp.DEC_TIME_TIME t
    let s := s.bump p F.dp.DECISIONS_COUNT 1
    let sent0 := Store.set [] s.agate.sent 0 (Store.get [] s.agate.sent 0 ++ [dec])
    let sent1 := Store.set [] sent0 1 (Store.get [] sent0 1 ++ [dec])
    let s := { s with agate.deciding := s.agate.deciding.eraseIdx k, agate.sent := sent1,
                      host.skips := s.host.skips + (if guard.any (fun g => g.val == succ) then 1 else 0),
                      agate.segAt := if succ = 0x3FF then s.agate.segAt else Store.set 0 s.agate.segAt (q.entry + 1) (succ + 1) }
    .next (slots.foldl (fun s i => s.armSlot (2 * q.die + i / 32) (i % 32)) s)

/-- Descriptors of a stream not yet delivered are held no longer. -/
def Stream.unhold (x : Stream) : Stream := { x with deliver := x.deliver.map fun v => { v with held := false } }

/-- The speculative work of a stream confirmed (R187): cursors, deferred advances, held descriptors, their lateness (R189). -/
def State.confirm (s : State) (d st core : Nat) : State :=
  let x := s.stream d st
  let adds : List (Nat × Nat) := x.specCursors
  let notes : List Notice := x.deferred
  let iss : List SpecIssue := x.specIssues
  let s := adds.foldl (fun s a => s.putCursor d st a.1 (s.cursor d st a.1 + a.2)) s
  let y := { x.unhold with window := x.window.map (fun w => { w with spec := false }), fetchSpec := false, specFrom := none, specSegs := [],
                           lastEnd := x.lastEnd.map (fun e => (e.1, e.2.1, e.2.2.1, false)), specCursors := [], deferred := [],
                           specFills := [], specIssues := [], specCount := 0 }
  let s := s.putStream d st y
  let s := { s with agate.fills := s.agate.fills.map fun f => if f.die = d ∧ f.stream = st then { f with spec := false } else f }
  let s := notes.foldl (fun s n => s.notify n.die n.tally n.amount n.src) s
  let s := if st = 32 then s else (List.range 4).foldl (fun s i =>
    let t := 4 * (32 * d + st) + i
    if (s.tile t).queue.any (·.held) || (s.tile t).vqueue.any (·.held) then s.releaseHeld t else s) s
  iss.foldl (fun s i => s.noteLate d st i.planned i.slack i.index i.seg i.iter ⟨s.time.toNat, 4, srcCode 11 core, 0⟩) s

/-- The speculative work of a stream squashed (R188). -/
def State.squash (s : State) (d st : Nat) : State :=
  let x := s.stream d st
  let bufs : List (Nat × Nat) := x.specFills
  let iters := x.specSegs.foldl (fun m g => Store.set 0 m g (Store.get 0 m g - 1)) x.iters
  let s := s.bump (pgAgt d) F.agt.SPEC_SQUASHED_COUNT x.specCount
  let y := { x with window := x.window.filter (fun w => !w.spec), fetch := if x.fetchSpec then none else x.fetch,
                    lastEnd := match x.specFrom with | some (g, e, a) => some (g, e, a, false) | none => x.lastEnd,
                    fetchSpec := false, specFrom := none, specSegs := [], iters := iters, deliver := x.deliver.filter (fun v => !v.held),
                    specCursors := [], deferred := [], specFills := [], specIssues := [], specCount := 0 }
  let s := s.putStream d st y
  let s := { s with agate.fills := s.agate.fills.map fun f =>
      if f.die = d ∧ f.stream = st ∧ f.spec then { f with sig := none, spec := false } else f }
  let s := bufs.foldl (fun s b => s.lbSquash b.1 b.2) s
  if st = 32 then s else (List.range 4).foldl (fun s i =>
    let t := 4 * (32 * d + st) + i
    if (s.tile t).queue.any (·.held) || (s.tile t).vqueue.any (·.held) then s.withdraw t (fun h => h) else s) s

/-- A decision takes effect on a die (R169, R187 to R189). -/
def State.decisionLands (s : State) (d : Nat) (q : Decision) : State :=
  let s := { s with agate.decided := Store.set none s.agate.decided (d * 2 ^ 32 + q.entry) (some (q.succ, q.anchor)) }
  let p : Page := ⟨.dp, q.core / 2⟩
  let s := s.fput p F.dp.DEC_LAT_MAX_NS (max (s.fget p F.dp.DEC_LAT_MAX_NS) (min (2 ^ 32 - 1) (s.time.toNat - q.since)))
  let s := (List.range 33).foldl (fun s st =>
    if (s.stream d st).specFrom.isNone then s
    else (if q.predicted then s.confirm d st q.core else s.squash d st).showStream d st) s
  let s := if q.succ ≠ 0x3FF ∧ q.entry < (s.stream d 32).ended then s.enterDie d (q.entry + 1) q.succ else s
  let (junk, s) := s.draw
  let s := if 0 < q.slip ∧ q.succ ≠ 0x3FF then
      s.putLate d ⟨q.anchor, q.slip, junk % 2 ^ 16, q.succ, 32, 6, 0, srcCode 11 q.core, s.phaseOf d 32,
        (s.stream d 32).iterAt q.succ (q.entry + 1)⟩ else s
  if q.succ = 0x3FF ∧ q.entry < s.agate.entry ∧ s.running then s.endRun s.runStatus else s

/-- DECISION_ARRIVE (R169, R182): the next decision sent to a die's engine reaches it. -/
def execDecisionArrive (d : Fin 2) (s : State) : Host.Outcome State Fault Refusal :=
  match Store.get [] s.agate.sent d with
  | [] => .next s
  | q :: rest => .next ({ s with agate.sent := Store.set [] s.agate.sent d rest }.decisionLands d q)

/-- DEC_TIMEOUT (R182, R194): DECIDE `k` has found no decision within AGT.DEC_TIMEOUT. -/
def execDecTimeout (k : Nat) (s : State) : Host.Outcome State Fault Refusal :=
  match s.agate.deciding[k]? with
  | none => .next s
  | some q => .next (if q.fired + s.fget (pgAgt q.die) F.agt.DEC_TIMEOUT_NS ≤ s.time.toNat then s.endRun stTimeout else s)

/-- WATCH_TIMEOUT (R194): the head of a stream is unfired at its planned time plus WATCH. -/
def execWatchTimeout (d : Fin 2) (st : Fin 33) (s : State) : Host.Outcome State Fault Refusal :=
  let n := s.fget (pgAgt d) F.agt.WATCH_NS
  match (s.stream d st).head with
  | none => .next s
  | some w => .next (if n ≠ 0 ∧ w.anchor + BT.notBefore w.beat + n ≤ s.time.toNat ∧ s.running then s.endRun stTimeout else s)

/-! ### Loads, starts and stops (R197, R198) -/

/-- The record maximum of a physical group; RETIRED of the record (R454). -/
def State.recordFmax (s : State) (p : Nat) : Nat := s.record (100 + p) % 2 ^ 12
def State.retired (s : State) (p : Nat) : Bool := bitAt (s.record 1) p || s.boot.retiredNow.contains p

/-- MEASURED of a physical group (R452). -/
def State.measuredOf (s : State) (p : Nat) : Nat := Store.get 0 s.boot.measured p - 1

/-- A physical group qualifies (R452). -/
def State.qualifies (s : State) (p : Nat) : Bool := s.measuredOf p != 0 && s.recordFmax p != 0 && !s.retired p

/-- A logical group of the package is backed by a physical group. -/
def State.backs (s : State) (p : Nat) : Bool := (List.range 64).any fun g => s.fget ⟨.seq, g⟩ F.seq.SEQ_PHYS_PHYS_ID == p

/-- The lowest-numbered qualifying spare of a die that backs nothing (R453). -/
def State.spareOf (s : State) (d : Nat) : Option Nat :=
  [34 * d + 32, 34 * d + 33].find? fun p => s.qualifies p && !s.backs p && !s.agate.retiring.contains p

/-- The SEQ page of a logical group shows the physical group behind it (R18, R203). -/
def State.showGroup (s : State) (g p : Nat) : State :=
  let q : Page := ⟨.seq, g⟩
  (((s.fput q F.seq.SEQ_PHYS_PHYS_ID p).fput q F.seq.SEQ_FMAX_MEASURED (s.measuredOf p)).fput q F.seq.SEQ_FMAX_RECORD (s.recordFmax p)).fput
    q F.seq.SEQ_FEFF_EFFECTIVE (min (s.measuredOf p) (s.recordFmax p))

/-- Pending retirements take effect (R19, R197, R453). -/
def State.remapGroups (s : State) : State :=
  let ps : List Nat := s.agate.retiring
  let s := ps.foldl (fun s p =>
    match (List.range 64).find? (fun g => s.fget ⟨.seq, g⟩ F.seq.SEQ_PHYS_PHYS_ID == p), s.spareOf (p / 34) with
    | some g, some q => (s.showGroup g q).logEvent ⟨.seq, g⟩ lcSpareMapped 0 (g + 2 ^ 8 * q)
    | _, _ => s) s
  { s with agate.retiring := [], boot.retiredNow := s.boot.retiredNow ++ ps }

/-- No tile holds or runs a descriptor. -/
def State.tilesIdle (s : State) : Bool :=
  s.tiles.all fun x => x.2.queue.isEmpty && x.2.started.isEmpty && x.2.vqueue.isEmpty && x.2.vrun.isNone

/-- The learned phases are forgotten at a LOAD unless KEEP_LEARN (R422). -/
def State.forgetPhases (s : State) : State :=
  if s.fon pgPwr F.pwr.PWR_CTRL_KEEP_LEARN then s
  else { s with regs := s.regs.filter fun r => !(0x31800 * 8 ≤ r.1 && r.1 < 0x31C00 * 8) }

/-- A load for a tenant slot is admitted: groups are remapped and both engines are LOADING; otherwise it fails with ACCESS (R197). -/
def State.loadNow (s : State) (tenant : Nat) : State :=
  if s.agateIdle && s.tilesIdle && s.enabled (pgAgt 0) then
    let s := { s.forgetPhases.remapGroups with agate.tenant := tenant }.setAgt 1
    ((s.fput (pgAgt 0) F.agt.LOAD_STAT_STATUS 0).fput (pgAgt 0) F.agt.LOAD_STAT_SECTION 0).fput (pgAgt 0) F.agt.LOAD_STAT_ITEM 0
  else s.fput (pgAgt 0) F.agt.LOAD_STAT_STATUS stAccess

/-- LOAD (R197): a write of AGT_CMD.LOAD on AGT[0]; in NAP it waits for the wake (R438). -/
def execLoad (r : Requester) (s : State) : Host.Outcome State Fault Refusal :=
  .next (s.hubAdmit r (pgAgt 0) 0x40 fun s =>
    (s.abortEntry 1).whenAwake .load fun s => s.loadNow 0)

/-- Every Shelf is zero-filled before a run whose tenant differs from the previous run's (R409). -/
def State.freshShelves (s : State) : State :=
  let other := match s.agate.lastTenant with
    | some t => t != s.agate.tenant
    | none => false
  { s with shelf := if other then [] else s.shelf, agate.lastTenant := some s.agate.tenant }

/-- A run begins in a segment with its first anchor (R169, R198). -/
def State.beginRun (s : State) (g t : Nat) : State :=
  let s := s.freshShelves
  let s := { s with agate.streams := [], agate.deciding := [], agate.sent := [], agate.decided := [], agate.captured := [],
                    agate.runNf := false, agate.runSat := false, agate.runLate := false, agate.entry := 0,
                    agate.segAt := Store.set 0 [] 0 (g + 1), host.lateBase := s.lateBeats, host.skips := 0 }
  let vs : List Service := s.host.services.map fun v => { v with doneBase := s.tally 0 v.doneTally }
  let s := ({ s with host.services := vs }).setAgt 3
  let s := (List.range 2).foldl (fun s d => (List.range 33).foldl (fun s st =>
    (s.putStream d st ((s.stream d st).enter g 0 t false)).showStream d st) s) s
  (s.enterDie 0 0 g).enterDie 1 0 g

/-- A START: in IDLE, with its time at least 2 µs ahead, it begins a run; otherwise its status stands in END_STATUS (R198). -/
def State.startNow (s : State) (tenant : Nat) : State :=
  let g := s.fget (pgAgt 0) F.agt.START_SEG_SEG
  let t := s.fget (pgAgt 0) F.agt.START_TIME_TIME
  if s.agtState 0 ≠ 2 ∨ s.agtState 1 ≠ 2 then s
  else if !s.enabled (pgAgt 0) then s.fput (pgAgt 0) F.agt.AGT_STAT_END_STATUS stAccess
  else if s.agate.nsegs ≤ g then s.fput (pgAgt 0) F.agt.AGT_STAT_END_STATUS stAddrRange
  else if t < s.time.toNat + 2000 then s.fput (pgAgt 0) F.agt.AGT_STAT_END_STATUS 0x81
  else State.beginRun { s with agate.tenant := tenant } g t

/-- START (R198): a write of AGT_CMD.START on AGT[0]; in NAP it waits for the wake (R438). -/
def execStart (r : Requester) (s : State) : Host.Outcome State Fault Refusal :=
  .next (s.hubAdmit r (pgAgt 0) 0x40 fun s => (s.abortEntry 1).whenAwake .start fun s => s.startNow 0)

/-- A STOP: the run ends when its current segment completes (R198). -/
def State.stopNow (s : State) : State := if s.agtState 0 = 3 then s.setAgt 4 else s

/-- STOP (R198). -/
def execStop (r : Requester) (s : State) : Host.Outcome State Fault Refusal := .next (s.hubAdmit r (pgAgt 0) 0x40 fun s => s.stopNow)

/-- ABORT (R194). -/
def execAbort (r : Requester) (s : State) : Host.Outcome State Fault Refusal :=
  .next (s.hubAdmit r (pgAgt 0) 0x40 fun s => if s.running then s.endRun stAborted else s)

/-- The job that waits for a load: the run starts, or the job ends with the status that stands against it (R382). -/
def State.jobLoaded (s : State) (status : Nat) : State :=
  match s.agate.job, s.agate.jobStart with
  | some (q, i, op), some (g, t) =>
    let s := { s with agate.jobStart := none }
    let fail (s : State) (st : Nat) : State := { s with agate.job := none, host.services := [] }.putRecord ⟨q, op, st, 2, i, 0, 0⟩
    if status ≠ stDone then fail s status else
    let s := ((s.fput (pgAgt 0) F.agt.START_SEG_SEG g).fput (pgAgt 0) F.agt.START_TIME_TIME t).startNow s.agate.tenant
    if s.running then s else fail s (s.fget (pgAgt 0) F.agt.AGT_STAT_END_STATUS)
  | _, _ => s

/-- LOAD_DONE (R197): the load under way ends: the image fills the stores, or the first failure leaves both engines EMPTY. -/
def execLoadDone (s : State) : Host.Outcome State Fault Refusal :=
  if s.agtState 0 ≠ 1 then .next s else
  match s.readImage (s.fget (pgAgt 0) F.agt.IMAGE_ADDR_ADDR) with
  | (s, .error f) =>
    let s := ((s.fput (pgAgt 0) F.agt.LOAD_STAT_STATUS f.status).fput (pgAgt 0) F.agt.LOAD_STAT_SECTION f.section_).fput (pgAgt 0)
      F.agt.LOAD_STAT_ITEM f.item
    .next (((s.setAgt 0).events (pgAgt 0) (2 ^ 8) f.status).jobLoaded f.status)
  | (s, .ok (b, h, es)) => .next ((((s.placeImage b h es).setAgt 2).event (pgAgt 0) 8).jobLoaded stDone)

end Sys2Proof.Machine
end

