-- ==== Sys2Proof/Machine/Host.lean ====
section
/-! DEFINITION. The host interface (R375 to R392): job queues and their entries, services and admissions, the UCIe modules, CXL.mem
onto the Shelves. -/

namespace Sys2Proof.Machine

/-! ### Job entries (R380, R381) -/

namespace JE
def op (d : Nat) : Nat := fieldAt d 0 8 8
def additions (d : Nat) : Bool := fieldAt d 0 16 1 == 1
def svcEn (d : Nat) : Bool := fieldAt d 0 17 1 == 1
def opId (d : Nat) : Nat := fieldAt d 4 0 32
def slots (d : Nat) : Nat := fieldAt d 8 0 32
def service (d : Nat) : Nat := fieldAt d 0xC 0 4
def admitTally (d : Nat) : Nat := fieldAt d 0xC 4 12
def doneTally (d : Nat) : Nat := fieldAt d 0xC 16 12
def ringLog2 (d : Nat) : Nat := fieldAt d 0xC 28 4
def addrA (d : Nat) : Nat := fieldAt d 0x10 0 52
def addrB (d : Nat) : Nat := fieldAt d 0x18 0 52
def startTime (d : Nat) : Nat := fieldAt d 0x20 0 64
def startSeg (d : Nat) : Nat := fieldAt d 0x28 0 10
end JE

/-- The opcodes of R380. -/
def jobSignal : Nat := 1
def jobRun : Nat := 2
def jobAdmit : Nat := 3
def jobStop : Nat := 4

/-- The fields an opcode uses (R380). An opcode that does not exist uses every field: it fails with FORMAT, unless a reserved bit is
set (R49). -/
def jobFields (op : Nat) (svc : Bool) : List (Nat × Nat × Nat) :=
  let always := [(0, 0, 4), (0, 8, 8), (4, 0, 32), (0x3C, 0, 10)]
  let run := [(0, 16, 2), (8, 0, 32), (0x10, 0, 52), (0x20, 0, 64), (0x28, 0, 10)]
  let ring := [(0xC, 0, 32), (0x18, 0, 52)]
  always ++ match op with
    | 1 => []
    | 2 => run ++ (if svc then ring else [])
    | 3 => [(0, 16, 1), (8, 0, 32), (0xC, 0, 4), (0x10, 0, 52)]
    | 4 => []
    | _ => run ++ ring

/-- The tenant slot of a queue. -/
def State.jqTenant (s : State) (q : Nat) : Nat := s.fget (jqPage q) F.jq.JQ_CFG_TENANT

/-- The rights a queue's jobs act with. -/
def State.jqAgent (s : State) (q : Nat) : Agent := .tenant (Fin.ofNat 16 (s.jqTenant q))

/-- The service of a number that the running run declares. -/
def State.serviceOf (s : State) (n : Nat) : Option Service :=
  if s.running then s.host.services.find? fun v => v.number == n else none

/-- An address is unassigned for an access (R259). -/
def State.unassigned (s : State) (who : Agent) (write : Bool) (a len : Nat) : Bool := s.rangeCheck who write a len == some stAddrRange

/-- ADDR_A or ADDR_B is unassigned or misaligned (R381): an image is aligned to 4 KiB, the admission ring to 64 bytes. -/
def State.jobAddrWrong (s : State) (who : Agent) (d : Nat) : Bool :=
  (JE.op d == jobRun && (JE.addrA d % 4096 != 0 || winOf (JE.addrA d) == .unassigned))
  || (JE.op d == jobRun && JE.svcEn d
      && (JE.addrB d % 64 != 0 || s.unassigned who true (JE.addrB d) (64 * 2 ^ JE.ringLog2 d)))
  || (JE.op d == jobAdmit && s.unassigned who false (JE.addrA d) 64)

/-- A right is missing (R381): the queue's slot is not ACTIVE, additions against a slot in SERVICE mode (R300), an ADMIT beyond its
run's slots or tenant, the argument block or the ring outside the tenant's rights. -/
def State.jobBarred (s : State) (q d : Nat) : Bool :=
  let t := s.jqTenant q
  let reads := JE.op d == jobRun || JE.op d == jobAdmit
  !s.tenantActive t
  || (reads && JE.additions d && (bitList 32 (JE.slots d)).any fun k => s.fget pgSlot (F.slot.SL_CFG_SERVICE_MODE k) == 0)
  || (JE.op d == jobAdmit && (match s.serviceOf (JE.service d) with
        | some v => (bitList 32 (JE.slots d)).any (fun k => !bitAt v.slots k) || v.tenant != t
        | none => false))
  || (JE.op d == jobRun && JE.svcEn d && (s.rangeCheck (s.jqAgent q) true (JE.addrB d) (64 * 2 ^ JE.ringLog2 d)).isSome)
  || (JE.op d == jobAdmit && (s.rangeCheck (s.jqAgent q) false (JE.addrA d) 64).isSome)

/-- The first failing check of an entry after its CHECK (R381, R302). -/
def State.jobCheck (s : State) (q d : Nat) : Option Nat :=
  firstFailure [
    (!s.versionOk (jqPage q) (fieldAt d 0 0 4), stVersion),
    (reservedSet 64 d (jobFields (JE.op d) (JE.svcEn d)), stReservedSet),
    (JE.op d < 1 || 4 < JE.op d || (JE.op d == jobRun && JE.svcEn d && (JE.ringLog2 d < 4 || 12 < JE.ringLog2 d)), stFormat),
    (s.jobAddrWrong (s.jqAgent q) d, stAddrRange),
    (s.jobBarred q d, stAccess),
    (JE.op d == jobAdmit && (s.serviceOf (JE.service d)).isNone, 0x81),
    ((bitList 32 (JE.slots d)).any fun k => s.fon pgSlot (F.slot.SL_SVC_SVC_FAILED k), stTierFail)]

/-! ### Taking an entry (R379, R381) -/

/-- Ring index of the head entry of a queue that may be taken: the queue is enabled, the device is READY and the ring holds one. -/
def State.jobHead (s : State) (q : Nat) : Option Nat :=
  let p := jqPage q
  let n := 2 ^ s.fget p F.jq.JQ_CFG_SQ_LOG2
  let h := s.fget p F.jq.SQ_HEAD_HEAD % n
  if s.enabled p && !s.isolated p && s.fon pgHst F.hst.HOST_STAT_READY && h != s.fget p F.jq.SQ_TAIL_TAIL % n then some h else none

/-- The 64 bytes of an entry as host memory holds them. -/
def State.jobRaw (s : State) (q h : Nat) : Nat := leNat (s.hostRead (s.fget (jqPage q) F.jq.SQ_BASE_ADDR + 64 * h) 64)

/-- The head entry waits for a reason (R392). -/
def State.jobWaits (s : State) (q reason : Nat) : State :=
  (s.fset (jqPage q) F.jq.JQ_STAT_WAITING true).fput (jqPage q) F.jq.JQ_STAT_REASON reason

/-- The head entry is taken: SQ_HEAD moves on. -/
def State.jobPass (s : State) (q h : Nat) : State :=
  let p := jqPage q
  let s := s.fput p F.jq.SQ_HEAD_HEAD ((h + 1) % 2 ^ s.fget p F.jq.JQ_CFG_SQ_LOG2)
  ((s.fset p F.jq.JQ_STAT_WAITING false).fput p F.jq.JQ_STAT_REASON 0).bump p F.jq.JQ_SUBMITTED_COUNT 1

/-- A refused entry moves nothing, is counted and writes its record (R381). -/
def State.jobRefuse (s : State) (q h d st : Nat) : State :=
  (((s.jobPass q h).bump (jqPage q) F.jq.JQ_REFUSED_COUNT 1).event (jqPage q) 10 st).putRecord ⟨q, JE.opId d, st, JE.op d, h, 0, 0⟩

/-- An entry of opcode `op` at the head of a queue taken: refused, kept waiting, or done by `act`, which is given the ring index and
the entry. An entry that fails its CHECK or names no opcode is taken by whichever row comes (log 29). RUN and ADMIT wake a package in
NAP and wait for it; any entry ends an entry to STANDBY (R437, R438). -/
def State.takeJob (s : State) (q op : Nat) (waits : State → Nat → Option Nat) (act : State → Nat → Nat → State) : State :=
  match s.jobHead q with
  | none => s
  | some h =>
    let v := s.jobRaw q h
    match checkStruct 64 v with
    | .failed => if s.cqRoom q then s.jobRefuse q h v stCheckFailed else s.jobWaits q 3
    | .clean d | .corrected d =>
      if JE.op d ≠ op ∧ 1 ≤ JE.op d ∧ JE.op d ≤ 4 then s
      else if !s.cqRoom q then s.jobWaits q 3
      else match s.jobCheck q d with
        | some st => s.jobRefuse q h d st
        | none =>
          let s := if s.pwr.goal = 3 then s.abortEntry 2 else if op = jobRun then s.abortEntry 1 else s
          if (op = jobRun ∨ op = jobAdmit) ∧ s.napping then s.napWake.jobWaits q 0
          else match waits s d with
            | some reason => s.jobWaits q reason
            | none => act s h d

/-- SQ_DOORBELL (R379, R387): the producer index of a queue. -/
def execSqDoorbell (r : Requester) (q : Fin 1024) (tail : BitVec 12) (s : State) : Host.Outcome State Fault Refusal :=
  .next (s.hubAdmit r (jqPage q) 0x58 fun s => s.fput (jqPage q) F.jq.SQ_TAIL_TAIL tail.toNat)

/-- JOB_SIGNAL (R382). -/
def execJobSignal (q : Fin 1024) (s : State) : Host.Outcome State Fault Refusal :=
  .next (s.takeJob q jobSignal (fun _ _ => none) fun s h d =>
    (s.jobPass q h).putRecord ⟨q, JE.opId d, stDone, jobSignal, h, 0, 0⟩)

/-- The service a RUN declares (R382). -/
def serviceIn (tenant d : Nat) : List Service :=
  if JE.svcEn d then
    [⟨JE.service d, JE.admitTally d, JE.doneTally d, JE.ringLog2 d, JE.addrB d, JE.slots d, tenant, 0, 0⟩]
  else []

/-- JOB_RUN (R382): while either engine is LOADING, RUNNING or STOPPING it waits; else the image is loaded for the queue's tenant, to
start when the load ends (LOAD_DONE). A load that is not admitted ends the job at once. -/
def execJobRun (q : Fin 1024) (s : State) : Host.Outcome State Fault Refusal :=
  .next (s.takeJob q jobRun (fun s _ => if s.agateIdle then none else some 1) fun s h d =>
    let s := (s.jobPass q h).fput (pgAgt 0) F.agt.IMAGE_ADDR_ADDR (JE.addrA d)
    let s := ({ s with agate.job := some (q.val, h, JE.opId d), agate.jobStart := some (JE.startSeg d, JE.startTime d),
                       host.services := serviceIn (s.jqTenant q) d } : State).loadNow (s.jqTenant q)
    if s.agtState 0 = 1 then s
    else ({ s with agate.job := none, agate.jobStart := none, host.services := [] } : State).putRecord
      ⟨q, JE.opId d, stAccess, jobRun, h, 0, 0⟩)

/-- Batches a service has finished since its run started (R382). -/
def State.finishedOf (s : State) (v : Service) : Nat := (s.tally 0 v.doneTally + 2 ^ 32 - v.doneBase) % 2 ^ 32

/-- What keeps an ADMIT waiting: its admission ring is full (reason 2), or the package does not serve as a twin (R331; no reason has a
code for it). -/
def State.admitWaits (s : State) (d : Nat) : Option Nat :=
  if s.fget pgTwin F.eth.TWIN_CFG_PORTS ≠ 0 ∧ twState s ≠ 1 then some 0
  else match s.serviceOf (JE.service d) with
    | none => none
    | some v => if v.admissions - s.finishedOf v = 2 ^ v.ringLog2 then some 2 else none

/-- One batch more on the generation GEN names of each slot; the pins taken (R303). -/
def State.pinSlots (s : State) (slots : List Nat) : State × List (Fin 32 × Nat) :=
  let pins := slots.map fun k => (Fin.ofNat 32 k, s.fget pgSlot (F.slot.SL_SVC_GEN k))
  (pins.foldl (fun s pin =>
    let f := if pin.2 = 0 then F.slot.SL_SVC_PIN0 pin.1 else F.slot.SL_SVC_PIN1 pin.1
    s.fput pgSlot f (s.fget pgSlot f + 1)) s, pins)

/-- The OPEN tallies an admission advances (R302): every layer's outside a replacement, during one those of the layers the front has
passed; the request is one of the replacement's new ones. -/
def State.openLayers (s : State) (slots : List Nat) (opens : List (Nat × Nat × Nat × Nat)) : State :=
  let (src, s) := s.oneisorSrc
  let s := opens.foldl (fun s o =>
    let (k, layer, die, tally) := o
    if !slots.contains k then s
    else match Store.get none s.attic.repl k with
      | some r => if layer < r.front then s.advanceTally die tally 1 src else s
      | none => s.advanceTally die tally 1 src) s
  slots.foldl (fun s k => match Store.get none s.attic.repl k with
    | some r => { s with attic.repl := Store.set none s.attic.repl k (some { r with new := r.new + 1 }) }
    | none => s) s

/-- An admission to service `v` (R382): the argument block is copied into the ring, the generations are pinned, ADMIT_TALLY advances. A
block that cannot be read or written ends the entry with that status. -/
def State.admitTo (s : State) (q h d : Nat) (v : Service) (opens : List (Nat × Nat × Nat × Nat)) : State :=
  let fail (s : State) (st : Nat) : State := s.putRecord ⟨q, JE.opId d, st, jobAdmit, h, 0, 0⟩
  match s.devRead (s.jqAgent q) (JE.addrA d) 64 with
  | (s, .error st) => fail s st
  | (s, .ok bs) =>
    match s.devWrite (s.jqAgent q) (v.ringAddr + 64 * (v.admissions % 2 ^ v.ringLog2)) bs with
    | (s, .error st) => fail s st
    | (s, .ok _) =>
      let slots := bitList 32 (JE.slots d)
      let (s, pins) := s.pinSlots slots
      let adm : Admitted := ⟨q, h, JE.opId d, v.number, v.admissions, pins⟩
      let vs : List Service := s.host.services.map fun w =>
        if w.number = v.number then { w with admissions := w.admissions + 1 } else w
      let s := { s with host.services := vs, host.admitted := s.host.admitted ++ [adm] }.openLayers slots opens
      let (src, s) := s.oneisorSrc
      s.advanceTally 0 v.admitTally 1 src

/-- ADMIT (R382, R303). `opens` are the OPEN tallies that the image gives the layers of the job's slots: (slot, layer, die, tally). -/
def execAdmitEntry (q : Fin 1024) (opens : List (Fin 32 × Nat × Fin 2 × Fin 4096)) (s : State) : Host.Outcome State Fault Refusal :=
  .next (s.takeJob q jobAdmit (fun s d => s.admitWaits d) fun s h d =>
    match s.serviceOf (JE.service d) with
    | none => s
    | some v => (s.jobPass q h).admitTo q h d v (opens.map fun o => (o.1.val, o.2.1, o.2.2.1.val, o.2.2.2.val)))

/-- ADMIT_COMPLETE (R382): the `i`-th admission not yet completed completes once DONE_TALLY has advanced `k` + 1 times since the run
started: its pins are released and its record is written. -/
def execAdmitComplete (i : Nat) (s : State) : Host.Outcome State Fault Refusal :=
  match s.host.admitted[i]? with
  | none => .next s
  | some a => match s.serviceOf a.service with
    | none => .next s
    | some v =>
      if s.finishedOf v < a.k + 1 then .next s
      else
        let s := { s with host.admitted := s.host.admitted.eraseIdx i }
        .next ((s.unpin a.pins).putRecord ⟨a.queue, a.opId, stDone, jobAdmit, a.index, 0, 0⟩)

/-- JOB_STOP (R382). -/
def execJobStop (q : Fin 1024) (s : State) : Host.Outcome State Fault Refusal :=
  .next (s.takeJob q jobStop (fun _ _ => none) fun s h d =>
    (s.jobPass q h).stopNow.putRecord ⟨q, JE.opId d, stDone, jobStop, h, 0, 0⟩)

/-- The entries that still wait in a queue ended with ABORTED (R384), while its completion ring takes or keeps their records. -/
def State.abortJobs (q : Nat) : Nat → State → State
  | 0, s => s
  | n + 1, s =>
    let p := jqPage q
    let m := 2 ^ s.fget p F.jq.JQ_CFG_SQ_LOG2
    let h := s.fget p F.jq.SQ_HEAD_HEAD % m
    if h = s.fget p F.jq.SQ_TAIL_TAIL % m then s
    else
      let d := s.jobRaw q h
      State.abortJobs q n ((s.jobPass q h).putRecord ⟨q, JE.opId d, stAborted, JE.op d, h, 0, 0⟩)

/-- A tenant slot enters REVOKING (R384, R409): its queued entries end with ABORTED, and its run too, after which the Shelves are to be
zero-filled. -/
def State.jobsRevoke (s : State) (t : Nat) : State :=
  let s := (List.range 1024).foldl (fun s q => if s.enabled (jqPage q) && s.jqTenant q == t then State.abortJobs q 4096 s else s) s
  if s.running && s.agate.tenant == t then { s.endRun stAborted with agate.fillDue := true } else s

/-! ### Completion rings and messages (R383, R386) -/

/-- COAL_TIMEOUT (R386): COAL_NS after the first record not yet signalled. -/
def execCoalTimeout (q : Fin 1024) (s : State) : Host.Outcome State Fault Refusal :=
  if Store.get 0 s.host.unsignalled q.val = 0 then .next s else
    let s := { s with host.unsignalled := Store.set 0 s.host.unsignalled q.val 0 }
    .next (if s.fon (jqPage q) F.jq.IRQ_CFG_IRQ_EN
      then s.raiseVector (s.fget (jqPage q) F.jq.JQ_CFG_MODULE) (s.fget (jqPage q) F.jq.IRQ_CFG_VECTOR) else s)

/-- Records of a queue that waited for room written while there is some: at most `n` (log 23). -/
def State.drainJobs (q : Nat) : Nat → State → State
  | 0, s => s
  | n + 1, s =>
    match s.host.waiting.find? (·.queue == q) with
    | none => s
    | some r =>
      if !s.cqRoom q then s
      else State.drainJobs q n ({ s with host.waiting := s.host.waiting.erase r }.putRecord r)

/-- CQ_TAIL_WRITE (R381, R383, R275, R371): the consumer index of a completion ring; what waited for room is written. -/
def execCqTailWrite (r : Requester) (ring : CqRing) (tail : BitVec 12) (s : State) : Host.Outcome State Fault Refusal :=
  .next (match ring with
    | .job q => s.hubAdmit r (jqPage q) 0x64 fun s =>
        State.drainJobs q s.host.waiting.length (s.fput (jqPage q) F.jq.CQ_TAIL_TAIL tail.toNat)
    | .driver => s.hubAdmit r pgMq 0x68 fun s =>
        State.drainCmds s.tiers.drv.length false
          (State.tirFlush (s.tiers.drvOut.length + 1) false (s.fput pgMq F.mq.CQ_TAIL_TAIL tail.toNat))
    | .firmware => s.hubAdmit r pgMq 0x98 fun s =>
        State.drainCmds s.tiers.fwr.length true
          (State.tirFlush (s.tiers.fwOut.length + 1) true (s.fput pgMq F.mq.FCQ_TAIL_TAIL tail.toNat))
    | .xpt => s.hubAdmit r pgXpt 0x64 fun s =>
        let q := Store.get 0 s.hub.qsel r.key
        State.xptDrain q s.xpt.records.length (s.qput q F.xpt.Q_CQ_TAIL_TAIL tail.toNat))

/-! ### The UCIe modules (R376 to R378) -/

/-- The link page of a module. -/
def pgLnk (m : Nat) : Page := ⟨.lnk, m⟩

/-- LINK_STAT.STAGE of a module. -/
def State.linkStage (s : State) (m : Nat) : Nat := s.fget (pgLnk m) F.lnk.LINK_STAT_STAGE

/-- MODULES_UP shows which modules are UP. -/
def State.showModules (s : State) : State :=
  s.fput pgHst F.hst.HOST_STAT_MODULES_UP (((List.range 4).filter fun m => s.linkStage m == 4).foldl (fun v m => v + 2 ^ m) 0)

/-- Records issued through module `m` in the last 10 µs written again through the lowest module that is UP (R378). -/
def State.reissue (s : State) (m : Nat) : State :=
  let n := s.moduleFor m
  let rs : List (Nat × Nat × Nat × List Byte) := s.host.issued.filter fun r => r.2.1 == m && s.uptime ≤ r.1 + 10000
  if n = m then s
  else rs.reverse.foldl (fun s r => s.putIssued n r.2.2.1 r.2.2.2) { s with host.issued := s.host.issued.filter fun r => r.2.1 != m }

/-- A module leaves the stage it stands at for a lower one; what leaving UP means is R378. -/
def State.linkFall (s : State) (m stage : Nat) : State :=
  let up := s.linkStage m == 4
  let s := { s with host.stuck := Store.set false s.host.stuck m false }
  let s := ((s.fput (pgLnk m) F.lnk.LINK_STAT_STAGE stage).fput (pgLnk m) F.lnk.LINK_STAT_LANES 0).fset (pgLnk m) F.lnk.LINK_STAT_DEGRADED false
  let s := (s.fset (pgLnk m) F.lnk.LINK_STAT_MEM_EN false).showModules
  if up then ((s.bump (pgLnk m) F.lnk.DOWNS_COUNT 1).reissue m).event (pgLnk m) 9 else s

/-- RETRAIN (R377, R391): the module trains from TRAINING on, unless DISABLE holds it in DOWN. -/
def execRetrain (r : Requester) (m : Fin 4) (s : State) : Host.Outcome State Fault Refusal :=
  .next (s.hubAdmit r (pgLnk m) 0x44 fun s => if s.fon (pgLnk m) F.lnk.LINK_CTRL_DISABLE then s else s.linkFall m 1)

/-- LINK_DISABLE (R377): the module is held in DOWN. -/
def execLinkDisable (r : Requester) (m : Fin 4) (s : State) : Host.Outcome State Fault Refusal :=
  .next (s.hubAdmit r (pgLnk m) 0x44 fun s => (s.fset (pgLnk m) F.lnk.LINK_CTRL_DISABLE true).linkFall m 0)

/-- LINK_STAGE_ADVANCE (R377): the next stage; a module comes UP with the lanes it has, 32 of them being DEGRADED (R376), and with
CXL.mem if the host has enabled it. -/
def execLinkStageAdvance (m : Fin 4) (degraded memEn : Bool) (s : State) : Host.Outcome State Fault Refusal :=
  let k := s.linkStage m
  if 4 ≤ k ∨ s.fon (pgLnk m) F.lnk.LINK_CTRL_DISABLE ∨ Store.get false s.host.stuck m.val ∨ !s.boot.links then .next s
  else
    let s := s.fput (pgLnk m) F.lnk.LINK_STAT_STAGE (k + 1)
    if k < 3 then .next s
    else
      let s := (s.fput (pgLnk m) F.lnk.LINK_STAT_LANES (if degraded then 32 else 64)).fset (pgLnk m) F.lnk.LINK_STAT_DEGRADED degraded
      let s := (s.fset (pgLnk m) F.lnk.LINK_STAT_MEM_EN memEn).showModules
      .next (s.events (pgLnk m) (2 ^ 8 + (if degraded then 2 ^ 10 else 0)))

/-- LINK_STAGE_TIMEOUT (R377): the module stays at its stage and waits for RETRAIN. DOWN and UP have no timeout. -/
def execLinkStageTimeout (m : Fin 4) (s : State) : Host.Outcome State Fault Refusal :=
  let k := s.linkStage m
  if k = 0 ∨ 4 ≤ k ∨ Store.get false s.host.stuck m.val then .next s
  else .next ({ s with host.stuck := Store.set false s.host.stuck m.val true }.event (pgLnk m) 9)

/-- MODULE_DOWN (R378): a module leaves UP. Requests whose granules were in flight through it end with their own completion rows, as
failed. -/
def execModuleDown (m : Fin 4) (s : State) : Host.Outcome State Fault Refusal :=
  .next (if s.linkStage m = 4 then s.linkFall m 0 else s)

/-- MODULE_RESET (R448): the module returns to DOWN. -/
def execModuleReset (m : Fin 4) (s : State) : Host.Outcome State Fault Refusal := .next (s.linkFall m 0)

/-! ### CXL.mem (R388) -/

/-- The tile and tile offset of an HDM offset. -/
def hdmTile (x : Nat) : Nat := x / 2 ^ 21 % 256

/-- A CXL.mem access as it stands when the tile is awake: outside the Shelf, or at a page that is not enabled or is isolated, reads give
zeros, writes are discarded, and both are counted. -/
def State.cxlNow (s : State) (m x : Nat) (write : Option (Nat × Nat)) : State :=
  let t := hdmTile x
  let off := x % 2 ^ 21 / 64 * 64
  if shelfEnd ≤ off ∨ !s.fon (tilPage t) F.com.ENABLED ∨ s.isolated (tilPage t) then
    let s := s.hostReject
    match write with
    | none => { s with out := s.out ++ [Out.read (t * 2 ^ 21 + off) (List.replicate 64 0)] }
    | some _ => s
  else s.spanAccess (.block (if m < 2 then 0 else 1) true) t (off / 64) write 0 0

/-- CXL_MEM_ACCESS (R388): a read, or a write of the bytes enabled, of the 64 bytes at an HDM offset through a module that is UP with
CXL.mem enabled; through another module the access is lost. In NAP it wakes the package and waits (R438). -/
def execCxlMemAccess (m : Fin 4) (x : BitVec 29) (write : Option (BitVec 64 × BitVec 512)) (s : State) :
    Host.Outcome State Fault Refusal :=
  let w := write.map fun y => (y.1.toNat, y.2.toNat)
  if s.linkStage m ≠ 4 ∨ !s.fon (pgLnk m) F.lnk.LINK_STAT_MEM_EN then .next s
  else
    let s := if s.pwr.goal = 2 then s.abortEntry 0 else s
    .next (s.whenAwake (.cxl m x.toNat w) fun s => s.cxlNow m x.toNat w)

end Sys2Proof.Machine
end

