-- ==== Sys2Proof/Machine/Power.lean ====
section
/-! DEFINITION. PWR (R417 to R446): levels and their choice from phases, the cap loop, learning and energy, limits, throttle reasons,
power shifting between chips, NAP and STANDBY. -/

namespace Sys2Proof.Machine

def pgOps : Page := ⟨.ops, 0⟩
def pgThr : Page := ⟨.thr, 0⟩
def pgDom : Page := ⟨.dom, 0⟩
def pgWake : Page := ⟨.wake, 0⟩

/-- What PWR holds of a group. -/
def State.pwrGroup (s : State) (g : Nat) : PwrGroup := Store.get {} s.pwr.groups g

/-- PWR's record of a group set. -/
def State.putPwrGroup (s : State) (g : Nat) (x : PwrGroup) : State := { s with pwr.groups := Store.set {} s.pwr.groups g x }

/-- What PWR holds of a die. -/
def State.pwrDie (s : State) (d : Nat) : PwrDie := Store.get {} s.pwr.dies d

/-- PWR's record of a die set. -/
def State.putPwrDie (s : State) (d : Nat) (x : PwrDie) : State := { s with pwr.dies := Store.set {} s.pwr.dies d x }

/-! ### The level of a group (R417, R418, R421) -/

/-- The level applied to a group. -/
def State.level (s : State) (g : Nat) : Nat := s.fget pgThr (F.thr.GRP_LEVEL g)

/-- The phase a group has reported last. -/
def State.groupPhase (s : State) (g : Nat) : Nat := s.fget pgThr (F.thr.GRP_PHASE g)

/-- The highest level whose clock does not exceed SEQ_FEFF of the group (R418); 0 where none does. -/
def State.feffLevel (s : State) (g : Nat) : Nat :=
  ((List.range 13).reverse.find? fun l => opMHz l ≤ s.fget ⟨.seq, g⟩ F.seq.SEQ_FEFF_EFFECTIVE).getD 0

/-- The preferred level firmware has set for a phase; phase 0 takes DEFAULT_PREF (R421). -/
def State.prefOf (s : State) (phase : Nat) : Nat :=
  if phase = 0 then s.fget pgPwr F.pwr.PWR_CTRL_DEFAULT_PREF else s.fget pgOps (F.ops.PHASE_PREF_LEVEL (phase - 1))

/-- The preferred level in force for a group: 12 under BOOST; what stood at its last phase report while a run is RUNNING (R421). -/
def State.prefNow (s : State) (g : Nat) : Nat :=
  if s.fon pgPwr F.pwr.LEVEL_BOOST then 12
  else if s.running then (s.pwrGroup g).pref.getD (s.prefOf (s.groupPhase g)) else s.prefOf (s.groupPhase g)

/-- The ceiling of a group but for the package level: preference, CLIM, FEFF (R418). -/
def State.ceiling (s : State) (g : Nat) : Nat := min (min (s.prefNow g) (s.fget pgPwr F.pwr.LEVEL_CLIM)) (s.feffLevel g)

/-- The level a group goes to under the package level `l` with every limit of R424, R426, R458 and R464. -/
def State.goalLevel (s : State) (g l : Nat) : Nat :=
  if s.pwr.trip || s.pwr.zero then 0 else min (s.ceiling g) l - s.pwr.current

/-! ### Prediction (R420) -/

/-- The 20th root of `n`, rounded down: `k` bits remain, `r` is what is found above. -/
def root20 : Nat → Nat → Nat → Nat
  | 0, r, _ => r
  | k + 1, r, n => root20 k (if (r + 2 ^ k) ^ 20 ≤ n then r + 2 ^ k else r) n

/-- `2^((T − 85) / 20)` in units of `2^-20`, rounded down (log 41). -/
def thetaOf (t : Nat) : Nat := root20 30 0 (2 ^ (t + 315))

/-- The common denominator of a prediction in mW: `k`, `l`, `θ` and the split of coefficient 15 are exact over it. -/
def predictDen : Nat := 1600 * 750 ^ 3 * 2 ^ 20 * 548

/-- The part of the modelled power, before CAL, that does not depend on work: the fixed floor of coefficient 15 (34.8 W of 54.8 W scaling
with temperature) and the groups' leakage at the levels `lv`. -/
def State.idlePower (s : State) (lv : Nat → Nat) : Nat :=
  let th := thetaOf (s.fget pgPwr F.pwr.TJ_CFG_TJ_NOW)
  s.fget pgThr (F.thr.COEF_VALUE 15) * (348 * th + 200 * 2 ^ 20) * 1600 * 750 ^ 3
    + ((List.range 64).map fun g => s.fget pgThr (F.thr.COEF_VALUE 14) * opMilliV (lv g) ^ 3 * th * 1600 * 548).foldl (· + ·) 0

/-- Modelled package power over `predictDen` at package level `l`, before CAL: `grp g` is a group's normalised dynamic power in mW, `unc d`
a die's uncore power in mW. -/
def State.modelPower (s : State) (grp unc : Nat → Nat) (l : Nat) : Nat :=
  let lv (g : Nat) : Nat := s.goalLevel g l
  s.idlePower lv
    + ((List.range 64).map fun g => grp g * opMHz (lv g) * opMilliV (lv g) ^ 2 * 750 * 2 ^ 20 * 548).foldl (· + ·) 0
    + (unc 0 + unc 1) * predictDen

/-- CAP − HEADROOM in mW. -/
def State.budget (s : State) : Nat := 1000 * (s.fget pgPwr F.pwr.PWR_CAP_CAP_W - s.fget pgPwr F.pwr.PWR_CAP_HEADROOM_W)

/-- A modelled power, calibrated, is at most `mw`. -/
def State.fits (s : State) (model mw : Nat) : Bool := model * s.fget pgPwr F.pwr.CAL_RATIO ≤ mw * predictDen * 32768

/-- The phase an evaluation takes for a source: its forecast phase once the planned time has come, else its current one (R420). -/
def State.phaseAt (s : State) (src t : Nat) : Nat :=
  match s.pwr.planned.find? fun n => n.src == src && n.at_ ≤ t with
  | some n => n.phase
  | none => if src < 64 then s.groupPhase src else (s.pwrDie (src - 64)).phase

/-- Learned group power of a phase in mW; a phase never learned predicts none (R420). -/
def State.estGroup (s : State) (p : Nat) : Nat :=
  let v := s.fget pgOps (F.ops.EST_GROUP_MW p)
  if v = 0xFFFF then 0 else v

/-- Learned uncore power of a phase in mW. -/
def State.estUncore (s : State) (p : Nat) : Nat :=
  let v := s.fget pgOps (F.ops.EST_UNCORE_10MW p)
  if v = 0xFFFF then 0 else 10 * v

/-- The highest ceiling of any group: no package level above it has a further effect (log 42). -/
def State.topCeiling (s : State) : Nat := (List.range 64).foldl (fun m g => max m (s.ceiling g)) 0

/-- The highest package level from 0 to a bound for which a modelled power satisfies `ok`; 0 where none does. -/
def highest (bound : Nat) (ok : Nat → Bool) : Nat := ((List.range (bound + 1)).reverse.find? ok).getD 0

/-- The package level that R420 chooses with the phases as they stand at TIME `t`, held by the limit of R426. -/
def State.chooseLevel (s : State) (t : Nat) : Nat :=
  min s.pwr.limit (highest s.topCeiling fun l =>
    s.fits (s.modelPower (fun g => s.estGroup (s.phaseAt g t)) (fun d => s.estUncore (s.phaseAt (64 + d) t)) l) s.budget)

/-! ### Reasons (R427 to R429) -/

/-- The reason code of a group. Where levels stand at 0 for a fatal fault or the power-fail warning it is the package level that binds
(log 43). -/
def State.reasonOf (s : State) (g : Nat) : Nat :=
  let x := s.pwrGroup g
  let top := min (s.prefOf (s.groupPhase g)) (s.feffLevel g)
  let l := s.fget pgPwr F.pwr.LEVEL_PKG_LEVEL
  let c := s.ceiling g
  if s.fon pgDom (F.dom.DOM_STRETCH g) then 7
  else if s.pwr.current ≠ 0 ∧ 0 < min c l then 6
  else if s.pwr.trip ∨ (s.pwr.limit ≤ l ∧ l < c) then 5
  else if s.pwr.zero ∨ l < c then 4
  else if s.fget pgPwr F.pwr.LEVEL_CLIM < min (s.prefNow g) (s.feffLevel g) then 3
  else if x.target.isSome ∧ s.level g < top then 2
  else if s.prefNow g < s.feffLevel g then 1
  else 0

/-- A throttle record written to the ring, or dropped where it is full; the sequence number advances either way (R429). -/
def State.putThrottle (s : State) (g reason : Nat) : State :=
  if !s.fon pgThr F.thr.THR_CTRL_RING_EN then s else
  let n := 2 ^ s.fget pgThr F.thr.THR_RING_SIZE_LOG2
  let h := s.fget pgThr F.thr.THR_RING_HEAD_HEAD % n
  let seq := s.pwr.ringSeq
  let s := { s with pwr.ringSeq := (seq + 1) % 2 ^ 32 }
  if (h + 1) % n = s.fget pgThr F.thr.THR_RING_TAIL_TAIL % n then s.bump pgThr F.thr.THR_DROPPED_COUNT 1 else
  let img := placeAt 0 0 64 s.time.toNat + placeAt 8 0 6 g + placeAt 8 8 3 reason + placeAt 8 12 4 (s.level g)
    + placeAt 8 16 8 (s.groupPhase g) + placeAt 0xC 0 32 seq
  let s := (s.devWrite .firmware (s.fget pgThr F.thr.THR_RING_BASE_ADDR + 16 * h) (leBytes 16 img)).1
  s.fput pgThr F.thr.THR_RING_HEAD_HEAD ((h + 1) % n)

/-- The time a group has spent under its reason so far, added to the reason's counter and, for a throttle, to the group's (R427). -/
def State.chargeReason (s : State) (g : Nat) : State :=
  let r := s.fget pgThr (F.thr.GRP_REASON g)
  let n := s.uptime - (s.pwrGroup g).since
  let s := s.putPwrGroup g { s.pwrGroup g with since := s.uptime }
  if r = 0 then s else
    let s := s.bump pgThr (F.thr.THR_NS_GROUP_NS (r - 1)) n
    if r < 2 then s else
      let m := Store.get 0 s.pwr.thrNs g + n
      { s.bump pgThr (F.thr.GRP_THR_US g) (m / 1000) with pwr.thrNs := Store.set 0 s.pwr.thrNs g (m % 1000) }

/-- The reason of a group as it stands now shown; a change into or out of a throttle is recorded (R428). -/
def State.noteReason (s : State) (g : Nat) : State :=
  let old := s.fget pgThr (F.thr.GRP_REASON g)
  let r := s.reasonOf g
  if r = old then s else
    let s := (s.chargeReason g).fput pgThr (F.thr.GRP_REASON g) r
    if 2 ≤ old ∨ 2 ≤ r then s.putThrottle g r else s

/-! ### Applying levels (R419) -/

/-- A group's clock switches to a level; its domain shows the frequency (R441). -/
def State.setLevel (s : State) (g l : Nat) : State :=
  (s.fput pgThr (F.thr.GRP_LEVEL g) l).fput pgDom (F.dom.DOM_MHZ g) (opMHz l)

/-- A group goes where the package level leads it: a lower level at once, also during a raising ramp; a higher one by a ramp, whose end
is RAMP_COMPLETE. -/
def State.moveGroup (s : State) (g : Nat) : State :=
  let goal := s.goalLevel g (s.fget pgPwr F.pwr.LEVEL_PKG_LEVEL)
  let c := s.level g
  let s := if goal < c then s.setLevel g goal else s
  let s := s.putPwrGroup g { s.pwrGroup g with target := if c < goal then some goal else none }
  s.noteReason g

/-- Every group goes where the package level leads it. -/
def State.moveGroups (s : State) : State := (List.range 64).foldl (fun s g => s.moveGroup g) s

/-- The package level set, and the groups moved, where tile logic runs (R438: changes made asleep take effect at the wake). -/
def State.setPackage (s : State) (l : Nat) : State :=
  if s.pwrState = 0 then (s.fput pgPwr F.pwr.LEVEL_PKG_LEVEL l).moveGroups else s

/-- An evaluation of the package level (R420). -/
def State.powerEval (s : State) : State := s.setPackage (s.chooseLevel s.time.toNat)

/-- RAMP_COMPLETE (R419): the voltage has reached its target and the clock switches. -/
def execRampComplete (g : Fin 64) (s : State) : Host.Outcome State Fault Refusal :=
  match (s.pwrGroup g).target with
  | none => .next s
  | some t => .next (((s.setLevel g t).putPwrGroup g { s.pwrGroup g with target := none }).noteReason g)

/-! ### Phases (R191, R420 to R422) -/

/-- A learned value moved an eighth of the way to a mean; the first mean sets it (R422). -/
def learn (est mean : Nat) : Nat :=
  if est = 0xFFFF then min mean 0xFFFE else (((est : Int) + ((mean : Int) - est) / 8).toNat) % 0xFFFF

/-- What a group or a die drew in the phase it leaves is learned. -/
def State.learnPhase (s : State) (src : Nat) : State :=
  if src < 64 then
    let x := s.pwrGroup src
    if x.ticks = 0 then s else
      let f := F.ops.EST_GROUP_MW (s.groupPhase src)
      s.fput pgOps f (learn (s.fget pgOps f) (x.sum / x.ticks))
  else
    let x := s.pwrDie (src - 64)
    if x.ticks = 0 then s else
      let f := F.ops.EST_UNCORE_10MW x.phase
      s.fput pgOps f (learn (s.fget pgOps f) (x.sum / x.ticks / 10))

/-- A group or a die enters a phase: the level it prefers is the one that stands now (R421). -/
def State.enterPhase (s : State) (src phase : Nat) : State :=
  if src < 64 then
    (s.fput pgThr (F.thr.GRP_PHASE src) phase).putPwrGroup src
      { s.pwrGroup src with pref := some (s.prefOf phase), sum := 0, ticks := 0 }
  else s.putPwrDie (src - 64) { s.pwrDie (src - 64) with phase := phase, sum := 0, ticks := 0 }

/-- PHASE_REPORT (R191, R420): the oldest report on its way reaches PWR. -/
def execPhaseReport (s : State) : Host.Outcome State Fault Refusal :=
  match s.agate.reports with
  | [] => .next s
  | n :: rest =>
    let left : List PhaseNote := s.pwr.planned.filter fun x => !(x.src == n.src && x.at_ ≤ s.time.toNat)
    let s := { s with agate.reports := rest, pwr.planned := left }
    .next (((s.learnPhase n.src).enterPhase n.src n.phase).powerEval)

/-- PHASE_FORECAST (R191, R420): the oldest forecast on its way reaches PWR and is kept for its planned time. One within 20 µs is evaluated
now: a package level it raises is taken at once, so that the ramps end in time; one it lowers waits for FORECAST_TIME. -/
def execPhaseForecast (s : State) : Host.Outcome State Fault Refusal :=
  match s.agate.forecasts with
  | [] => .next s
  | n :: rest =>
    let s := { s with agate.forecasts := rest, pwr.planned := s.pwr.planned ++ [n] }
    if s.time.toNat + 20000 < n.at_ then .next s
    else
      let l := s.chooseLevel (max s.time.toNat n.at_)
      .next (if s.fget pgPwr F.pwr.LEVEL_PKG_LEVEL < l then s.setPackage l else s)

/-- FORECAST_TIME (R420): the planned time of a forecast phase has come. -/
def execForecastTime (s : State) : Host.Outcome State Fault Refusal :=
  .next (if s.pwr.planned.any fun n => n.at_ ≤ s.time.toNat then s.powerEval else s)

/-! ### The cap loop and calibration (R423) -/

/-- The mean of a list; 0 of none. -/
def meanOf (xs : List Nat) : Nat := xs.foldl (· + ·) 0 / max 1 xs.length

/-- Modelled power at a package level with the activity of the last 10 µs. -/
def State.activePower (s : State) (l : Nat) : Nat :=
  s.modelPower (fun g => meanOf (s.pwrGroup g).recent) (fun d => meanOf (s.pwrDie d).recent) l

/-- CAL every millisecond: measured over modelled energy, smoothed as EST is. -/
def State.calibrate (s : State) : State :=
  if s.pwr.capTicks < 100 then s else
    let m := s.pwr.model.foldl (· + ·) 0
    let s := { s with pwr.capTicks := 0 }
    if m = 0 then s else
      let ratio : Int := (s.pwr.window.foldl (· + ·) 0 * 32768 / m : Nat)
      let old : Int := s.fget pgPwr F.pwr.CAL_RATIO
      s.fput pgPwr F.pwr.CAL_RATIO (min 0xFFFF (old + (ratio - old) / 8).toNat)

/-- The package level after a tick with `p10` measured (R423). -/
def State.capLevel (s : State) (p10 : Nat) : Nat :=
  let l := s.fget pgPwr F.pwr.LEVEL_PKG_LEVEL
  let cap := 1000 * s.fget pgPwr F.pwr.PWR_CAP_CAP_W
  let past := (s.pwr.window.take 99).foldl (· + ·) 0
  let n := min 99 s.pwr.window.length + 1
  let step := if s.budget < p10 then l - 1 else l
  if cap * n < past + p10 then min step (highest l fun k => s.fits (s.activePower k) (cap * n - past))
  else if s.budget < p10 then step
  else if l < min s.pwr.limit s.topCeiling && s.fits (s.activePower (l + 1)) s.budget then l + 1 else l

/-- CAP_TICK (R423): the 10 µs tick of the cap loop, with the calibrated measured power of the last 10 µs in mW. -/
def execCapTick (p10 : BitVec 32) (s : State) : Host.Outcome State Fault Refusal :=
  let p := p10.toNat
  let m := s.activePower (s.fget pgPwr F.pwr.LEVEL_PKG_LEVEL) / predictDen
  let s := { s with pwr.window := (p :: s.pwr.window).take 100, pwr.model := (m :: s.pwr.model).take 100,
                    pwr.capTicks := s.pwr.capTicks + 1, pwr.powerSum := s.pwr.powerSum + p, pwr.powerTicks := s.pwr.powerTicks + 1 }
  let s := (s.fput pgPwr F.pwr.PKG_MW_MW (meanOf s.pwr.window)).fput pgPwr F.pwr.PKG_PEAK_MW_MW (max (s.fget pgPwr F.pwr.PKG_PEAK_MW_MW) p)
  let s := s.calibrate
  .next (s.setPackage (s.capLevel p))

/-! ### Learning and energy (R422, R430, R431) -/

/-- Energy added to a counter of 64 or 32 bits whose count is `unit` nJ; what is below one count is kept (R431). -/
def State.addEnergy (s : State) (key : Nat) (f : Fld) (unit nj : Nat) : State :=
  let e := Store.get 0 s.pwr.energy key + nj * s.fget pgPwr F.pwr.CAL_RATIO
  { s.bump pgThr f (e / (unit * 32768)) with pwr.energy := Store.set 0 s.pwr.energy key (e % (unit * 32768)) }

/-- The energy of 1 µs charged: `dyn g` a group's dynamic power and `unc d` a die's uncore power in mW. Leakage and the fixed floor are charged
to OTHER, the floor to the dies in equal parts (log 44). -/
def State.chargeEnergy (s : State) (dyn unc : Nat → Nat) : State :=
  let th := thetaOf (s.fget pgPwr F.pwr.TJ_CFG_TJ_NOW)
  let leak (g : Nat) : Nat := s.fget pgThr (F.thr.COEF_VALUE 14) * opMilliV (s.level g) ^ 3 * th / (750 ^ 3 * 2 ^ 20)
  let floor_ := s.fget pgThr (F.thr.COEF_VALUE 15) * (348 * th + 200 * 2 ^ 20) / (548 * 2 ^ 20)
  let sum (xs : List Nat) (f : Nat → Nat) : Nat := (xs.map f).foldl (· + ·) 0
  let grp (d : Nat) : List Nat := (List.range 32).map (32 * d + ·)
  let work := sum (List.range 64) dyn + unc 0 + unc 1
  let rest := sum (List.range 64) leak + floor_
  let s := s.addEnergy 0 F.thr.ENERGY_PKG_UJ 1000 (work + rest)
  let s := s.addEnergy 1 F.thr.ENERGY_DIE0_UJ 1000 (sum (grp 0) dyn + sum (grp 0) leak + unc 0 + floor_ / 2)
  let s := s.addEnergy 2 F.thr.ENERGY_DIE1_UJ 1000 (sum (grp 1) dyn + sum (grp 1) leak + unc 1 + (floor_ - floor_ / 2))
  let s := if s.running
    then (s.addEnergy (16 + s.agate.tenant) (F.thr.ENERGY_TENANT_UJ s.agate.tenant) 1000 work).addEnergy 3 F.thr.ENERGY_OTHER_UJ 1000 rest
    else s.addEnergy 3 F.thr.ENERGY_OTHER_UJ 1000 (work + rest)
  let charge (s : State) (p nj : Nat) : State := s.addEnergy (64 + p) (F.thr.PHASE_ENERGY_MJ p) 1000000 nj
  let s := (List.range 64).foldl (fun s g => charge s (s.groupPhase g) (dyn g + leak g)) s
  [0, 1].foldl (fun s d => charge s (s.pwrDie d).phase (unc d)) s

/-- LEARN_TICK (R422, R431): the microsecond's dynamic power of each group and uncore power of each die, in mW. -/
def execLearnTick (dyn : List (BitVec 20)) (unc : List (BitVec 24)) (s : State) : Host.Outcome State Fault Refusal :=
  let on := s.fon pgPwr F.pwr.PWR_CTRL_LEARN_EN
  let dynOf (g : Nat) : Nat := (dyn.getD g 0).toNat
  let uncOf (d : Nat) : Nat := (unc.getD d 0).toNat
  let s := (List.range 64).foldl (fun s g =>
    let x := s.pwrGroup g
    let v := opMilliV (s.level g)
    let norm := dynOf g * (1600 * 750 ^ 2) / (opMHz (s.level g) * v ^ 2)
    s.putPwrGroup g { x with sum := x.sum + (if on then norm else 0), ticks := x.ticks + (if on then 1 else 0),
                             recent := (norm :: x.recent).take 10 }) s
  let s := [0, 1].foldl (fun s d =>
    let x := s.pwrDie d
    s.putPwrDie d { x with sum := x.sum + (if on then uncOf d else 0), ticks := x.ticks + (if on then 1 else 0),
                           recent := (uncOf d :: x.recent).take 10 }) s
  .next (s.chargeEnergy dynOf uncOf)

/-! ### Limits (R424 to R426) -/

/-- CURRENT_ALARM (R424): every group two levels lower. -/
def execCurrentAlarm (s : State) : Host.Outcome State Fault Refusal :=
  .next { s with pwr.alarm := true, pwr.current := min 12 (s.pwr.current + 2) }.moveGroups

/-- CURRENT_RELEASE (R424): one level released; the alarm has been clear for 100 µs. -/
def execCurrentRelease (s : State) : Host.Outcome State Fault Refusal :=
  .next { s with pwr.alarm := false, pwr.current := s.pwr.current - 1 }.moveGroups

/-- DROOP (R425): the group's clock runs at half rate. -/
def execDroop (g : Fin 64) (s : State) : Host.Outcome State Fault Refusal :=
  .next ((s.fset pgDom (F.dom.DOM_STRETCH g) true).noteReason g)

/-- DROOP_END (R425). -/
def execDroopEnd (g : Fin 64) (s : State) : Host.Outcome State Fault Refusal :=
  .next ((s.fset pgDom (F.dom.DOM_STRETCH g) false).noteReason g)

/-- THERMAL_TICK (R426): the hottest sensor reads `tj` °C in group `g`: above TJ_LIMIT the package level falls by one, at 3 °C below it or
less it rises by one. -/
def execThermalTick (tj : BitVec 8) (g : Fin 64) (s : State) : Host.Outcome State Fault Refusal :=
  let s := (s.fput pgPwr F.pwr.TJ_CFG_TJ_NOW tj.toNat).fput pgPwr F.pwr.TJ_CFG_TJ_GROUP g
  let lim := s.fget pgPwr F.pwr.TJ_CFG_TJ_LIMIT
  let l := s.fget pgPwr F.pwr.LEVEL_PKG_LEVEL
  if lim < tj.toNat then .next ({ s with pwr.limit := l - 1 }.setPackage (l - 1))
  else if tj.toNat + 3 ≤ lim ∧ s.pwr.limit < 12 then
    let s := { s with pwr.limit := s.pwr.limit + 1 }
    .next (s.setPackage (s.chooseLevel s.time.toNat))
  else .next s

/-- THERMAL_TRIP (R426): a sensor of group `g` at 110 °C or above; hardware sets every group to level 0, in every power state. -/
def execThermalTrip (tj : BitVec 8) (g : Fin 64) (s : State) : Host.Outcome State Fault Refusal :=
  let s := (s.fput pgPwr F.pwr.TJ_CFG_TJ_NOW tj.toNat).fput pgPwr F.pwr.TJ_CFG_TJ_GROUP g
  .next ((({ s with pwr.trip := true }.moveGroups).event pgPwr 10).logEvent pgPwr lcThermalTrip 0 tj.toNat)

/-- THERMAL_TRIP_RELEASE (R426): every sensor reads below 100 °C. -/
def execThermalTripRelease (s : State) : Host.Outcome State Fault Refusal :=
  .next (if s.pwr.trip then ({ s with pwr.trip := false }.moveGroups).powerEval else s)

/-! ### Power shifting (R432 to R434) -/

/-- What the period has seen of a communicator. -/
def State.period (s : State) (c : Nat) : CommPeriod := Store.get {} s.pwr.period c

/-- A period record set. -/
def State.putPeriod (s : State) (c : Nat) (x : CommPeriod) : State := { s with pwr.period := Store.set {} s.pwr.period c x }

/-- The slack reports on their way taken into the period (R257). -/
def State.takeSlack (s : State) : State :=
  let xs : List Slack := s.slack
  xs.foldl (fun s x =>
    let p := s.period x.comm
    s.putPeriod x.comm { p with ops := p.ops + 1, least := some (min x.wait (p.least.getD x.wait)),
                                lasts := Store.set 0 p.lasts x.rank (Store.get 0 p.lasts x.rank + 1) }) { s with slack := [] }

/-- SLACK_NS of a communicator: the least WAIT_NS of the period (R432). -/
def State.slackNs (s : State) (c : Nat) : Nat := (s.period c).least.getD 0xFFFFFFFF

/-- The rank that was last most often, the lowest of several. -/
def lastRank (xs : List (Nat × Nat)) : Nat := (xs.foldl (fun (b : Nat × Nat) x => if b.2 < x.2 then x else b) (0, 0)).1

/-- The hint of a communicator to each of its other members (R432, R433). -/
def State.sendHint (s : State) (c : Nat) : State :=
  let d := c / 16
  let k := c % 16
  let p := s.period c
  let r := lastRank p.lasts
  let payload := placeAt 0 0 64 s.time.toNat + placeAt 8 0 5 c + placeAt 8 8 6 r + placeAt 8 14 1 1
    + placeAt 8 16 4 (s.fget pgPwr F.pwr.LEVEL_PKG_LEVEL) + placeAt 0xC 0 32 (s.slackNs c)
    + placeAt 0x10 0 16 (s.pwr.powerSum / max 1 s.pwr.powerTicks / 1000) + placeAt 0x10 16 16 (s.fget pgPwr F.pwr.PWR_CAP_CAP_W)
    + placeAt 0x14 0 16 (min 0xFFFF (Store.get 0 p.lasts r)) + placeAt 0x14 16 16 (min 0xFFFF p.ops)
  (s.others d k).foldl (fun s rank =>
    let peer := (s.members d k).getD rank 0
    match (s.pairs d peer)[0]? with
    | none => s
    | some (a, b) =>
      let (f, s) := s.ctlFrame a 8 (s.fget (pgComm d) (F.comm.PR_MAC_MAC_BASE peer) + b) 6 payload
      (s.sendFrame a 6 f 1).bump pgPwr F.pwr.HINTS_TX_COUNT 1) s

/-- Half of a communicator's other members or more have named this chip (R434). -/
def State.named (s : State) (c : Nat) : Bool :=
  let n := (s.others (c / 16) (c % 16)).length
  0 < n && n ≤ 2 * (s.period c).namers.length

/-- CLIM after a period (R434). -/
def State.nextClim (s : State) (cs : List Nat) : Nat :=
  let clim := s.fget pgPwr F.pwr.LEVEL_CLIM
  let lo := s.fget pgPwr F.pwr.PWR_CTRL_SHIFT_FLOOR
  if cs.isEmpty then clim
  else if cs.all fun c => s.fget pgPwr F.pwr.SLACK_HIGH_NS ≤ s.slackNs c then (if lo < clim then clim - 1 else clim)
  else if cs.any fun c => s.slackNs c < s.fget pgPwr F.pwr.SLACK_LOW_NS then min 12 (clim + 1) else clim

/-- SHIFT_PERIOD_END (R433, R434). -/
def execShiftPeriodEnd (s : State) : Host.Outcome State Fault Refusal :=
  if !s.fon pgPwr F.pwr.PWR_CTRL_SHIFT_EN then .next { s.takeSlack with pwr.period := [] } else
  let s := s.takeSlack
  let cs := bitList 32 (s.fget pgPwr F.pwr.SHIFT_CFG_COMM_MASK)
  let s := (cs.filter fun c => (s.period c).ops != 0).foldl (fun s c => s.sendHint c) s
  let s := s.fput pgPwr F.pwr.LEVEL_CLIM (s.nextClim cs)
  let was := s.fon pgPwr F.pwr.LEVEL_BOOST
  let calls := cs.any fun c => s.named c
  let quiet := if calls then 0 else s.pwr.quiet + 1
  let now := calls || (was && quiet < 2)
  let s := { s with pwr.period := [], pwr.quiet := quiet, pwr.powerSum := 0, pwr.powerTicks := 0 }.fset pgPwr F.pwr.LEVEL_BOOST now
  .next ((if was != now then s.event pgPwr 11 else s).powerEval)

/-- A valid POWER_HINT from the chip with a MAC_BASE (R432, R434): one that names this chip's rank as last counts towards BOOST. -/
def State.powerHint (s : State) (sender c : Nat) (last : Option Nat) : State :=
  let d := c / 16
  let k := c % 16
  let s := s.bump pgPwr F.pwr.HINTS_RX_COUNT 1
  match (s.members d k).findIdx? fun p => s.fget (pgComm d) (F.comm.PR_MAC_MAC_BASE p) == sender with
  | none => s
  | some r =>
    if last = some (s.commRank d k) ∧ !(s.period c).namers.contains r then
      s.putPeriod c { s.period c with namers := (s.period c).namers ++ [r] }
    else s

/-- POWER_HINT (R434): the hint of a communicator, with LAST_RANK where LAST_VALID. -/
def execPowerHint (sender : BitVec 48) (c : Fin 32) (last : Option (Fin 64)) (s : State) : Host.Outcome State Fault Refusal :=
  .next (s.powerHint sender.toNat c (last.map (·.val)))

/-! ### NAP and STANDBY (R436 to R440) -/

/-- A connection is CONNECTING, OPEN or CLOSING, or an entry has started. -/
def State.xptBusy (s : State) : Bool :=
  !s.xpt.entries.isEmpty
  || s.xpt.live.any fun x => match s.ctxPeek x.1 with
    | some c => [3, 4, 5].contains (cget c CX.state)
    | none => false

/-- An object of the Shelf tier. -/
def State.shelfObj (s : State) (a : Nat) : Bool :=
  match winOf a with
  | .shelf _ _ => true
  | .object h _ => (s.obj h).any fun o => o.tier == 1
  | _ => false

/-- A MOVE or migration that reads or writes a Shelf object. -/
def State.shelfMoves (s : State) : Bool :=
  s.tiers.moves.any (fun m => s.shelfObj (moveSrc m.desc) || s.shelfObj (moveDst m.desc))
  || s.tiers.migs.any fun m => m.tier == 1 || (s.obj m.handle).any fun o => o.tier == 1

/-- The refusers of R437 that hold against NAP (2) or STANDBY (3). -/
def State.refusers (s : State) (goal : Nat) : Nat :=
  let sb := goal = 3
  let bits : List Bool := [
    !s.agateIdle,
    sb && (s.agate.job.isSome || !s.host.admitted.isEmpty || (List.range 1024).any fun q => (s.jobHead q).isSome),
    if sb then !(s.tiers.moves.isEmpty && s.tiers.migs.isEmpty && s.tiers.queue.isEmpty && s.tiers.drv.isEmpty && s.tiers.fwr.isEmpty)
      else s.shelfMoves,
    sb && s.xptBusy,
    sb && s.col.any fun x => !(x.2.queue.isEmpty && x.2.waiting.isEmpty && x.2.running.isEmpty),
    sb && (s.attic.install.isSome || s.attic.selWrite.isSome),
    sb && (s.onyx.mbx.isSome || (List.range 16).any fun t => [1, 3, 4, 5].contains (s.fget (pgKs t) F.ks.KS_STAT_STATE)),
    sb && s.hasTwin && twState s != 2]
  (bits.zipIdx.map fun x => if x.1 then 2 ^ x.2 else 0).foldl (· + ·) 0

/-- The result of a PWR_CMD. -/
def State.pwrResult (s : State) (st refusers : Nat) : State :=
  (s.fput pgPwr F.pwr.PWR_STATE_RESULT st).fput pgPwr F.pwr.PWR_STATE_REFUSERS refusers

/-- A PWR_CMD that is discarded and counted (R438). -/
def State.pwrDiscard (s : State) : State := s.bump pgPwr (F.com.EVT_CNT 7) 1

/-- A command to sleep, from ACTIVE or NAP (R437): refused, or the entry begins. A disabled page refuses it (R43). -/
def State.sleep (s : State) (goal : Nat) : State :=
  let m := s.refusers goal
  if m ≠ 0 ∨ !s.enabled pgPwr then ((s.pwrResult stAccess m).bump pgPwr F.pwr.REFUSED_COUNT 1).event pgPwr 9 stAccess
  else { s.pwrResult stDone 0 with pwr.goal := goal }.setPwr 1

/-- NAP (R437, R438). -/
def execNap (r : Requester) (s : State) : Host.Outcome State Fault Refusal :=
  .next (s.hubAdmit r pgPwr 0x48 fun s => if s.pwrState = 0 then s.sleep 2 else s.pwrDiscard)

/-- STANDBY (R437, R438). -/
def execStandby (r : Requester) (s : State) : Host.Outcome State Fault Refusal :=
  .next (s.hubAdmit r pgPwr 0x48 fun s => if s.pwrState = 0 ∨ s.pwrState = 2 then s.sleep 3 else s.pwrDiscard)

/-- Isolation of a page's domain raised or released (R40, R439). -/
def State.isolate (s : State) (b : Bool) (ps : List Page) : State := ps.foldl (fun s p => s.fset p F.com.ISOLATED b) s

/-- The clock domains from `lo` to below `hi` isolated and off, or back (R441). -/
def State.domains (s : State) (b : Bool) (lo hi : Nat) : State :=
  ((List.range hi).filter (lo ≤ ·)).foldl (fun s k => (s.fset pgDom (F.dom.DOM_ISOLATED k) b).fset pgDom (F.dom.DOM_OFF k) b) s

/-- Every page of some types. -/
def pagesOf (ts : List PageType) : List Page := ts.flatMap fun t => (List.range t.count).map fun i => ⟨t, i⟩

/-- The pages of the tile logic and its sequencers. -/
def tilePages : List Page := pagesOf [.til, .seq]

/-- The blocks STANDBY powers down, which return in their reset state (R436). -/
def standbyTypes : List PageType :=
  [.til, .seq, .mxe, .vec, .vst, .net, .seam, .agt, .late, .tal, .dp, .col, .comm, .xpt, .cong, .ctx, .win, .tir, .mq, .eth, .gl, .ms,
   .atc, .slot, .mgt]

/-- Pages that STANDBY isolates and whose contents stand: those of retained domains, and the job queues. -/
def retainedTypes : List PageType := [.cel, .rgn, .ccr, .jq, .elog]

/-- Whether a register key belongs to a page of some types; the queue registers of the XPT count as its page's. -/
def keyIn (ts : List PageType) (k : Nat) : Bool :=
  if 0x10000000 ≤ k / 8 then ts.contains .xpt
  else match pageAt (k / 8) with
    | some p => ts.contains p.ty
    | none => false

/-- The fields of the slots page that selectors fill: they come from the Attic itself. -/
def selectorKey (k : Nat) : Bool :=
  let o := k / 8 - 0x61000
  0x61000 ≤ k / 8 && k / 8 < 0x62000 && 0x100 ≤ o && o % 32 < 0x18

/-- The resident contexts written back to their table (R438). -/
def State.storeContexts (s : State) : State :=
  let rs : List (Nat × Option Nat) := s.xpt.ctx
  let s := s.xpt.writing.foldl (fun s x => s.ctxStore x.1 x.2) s
  rs.foldl (fun s x => match x.2 with | some c => s.ctxStore x.1 c | none => s) s

/-- What STANDBY takes from the blocks it powers down (R436): Cellar, control-core memory, Onyx, TIME, PWR and CLK keep theirs, and so do the
object table and the windows' and contexts' tables, which lie in the Cellar. -/
def State.powerDown (s : State) : State :=
  let maps := (List.range 64).map fun g => (g, s.fget ⟨.seq, g⟩ F.seq.SEQ_PHYS_PHYS_ID)
  let s := s.storeContexts
  let live := s.xpt.live
  let s := { s with
    regs := s.regs.filter fun x => !(keyIn standbyTypes x.1) || selectorKey x.1,
    shelf := [], tiles := [], summaries := [], slotHeld := [], slotDone := [],
    agate := { retiring := s.agate.retiring }, col := [], slack := [], xpt := { live := live },
    net := { site := s.net.site }, attic.keys := [], attic.repl := [], tiers.queue := [] }
  let s := maps.foldl (fun s x => s.showGroup x.1 x.2) s
  (List.range 32).foldl (fun s k => s.fset pgSlot (F.slot.SL_STAT_KEY_READY k) false) s

/-- An output pin asserted or released (R470, R474). -/
def State.drive (s : State) (p : Pin) (b : Bool) : State :=
  if s.outPins.contains p = b then s
  else { s with outPins := if b then s.outPins ++ [p] else s.outPins.filter (· ≠ p), out := s.out ++ [.pin p b] }

/-- The domains of STANDBY isolated and powered down, the Cellar in self-refresh, the switched rails released (R436, R439, R441, R471). -/
def State.standbyDown (s : State) : State :=
  let s := s.powerDown
  let s := ((s.isolate true (pagesOf (standbyTypes ++ retainedTypes))).domains true 0 67).domains true 75 83
  let s := ((s.domains true 87 88).domains true 93 100)
  let s := (List.range 8).foldl (fun s c => s.fset (pgCel c) F.cel.CEL_STAT_SELF_REFRESH true) s
  ((s.drive .enAttic false).drive .enSerdes false).drive .enCore1 false |>.drive .enCore0 false

/-- STATE_ENTRY_COMPLETE (R438): a refuser that has come up meanwhile ends the entry; else the domains are isolated and powered down. -/
def execStateEntryComplete (s : State) : Host.Outcome State Fault Refusal :=
  if s.pwrState ≠ 1 then .next s else
  let m := s.refusers s.pwr.goal
  if m ≠ 0 then .next (s.abortEntry m)
  else if s.pwr.goal = 2 then
    .next ((((s.isolate true tilePages).domains true 0 64).bump pgPwr F.pwr.ENTRIES_NAP_COUNT 1).setPwr 2)
  else
    .next ((s.standbyDown.bump pgPwr F.pwr.ENTRIES_STANDBY_COUNT 1).setPwr 3)

/-- A wake from STANDBY begins at stage 1 (R440, R471). -/
def State.wakeBegin (s : State) : State :=
  ((((s.stageOne.drive .enAttic true).drive .enCore0 true).drive .enCore1 true).drive .enSerdes true).setPwr 4

/-- WAKE (R438). -/
def execWake (r : Requester) (s : State) : Host.Outcome State Fault Refusal :=
  .next (s.hubAdmit r pgPwr 0x48 fun s =>
    match s.pwrState with
    | 1 => s.abortEntry 0
    | 2 => (s.pwrResult stDone 0).setPwr 4
    | 3 => (s.pwrResult stDone 0).wakeBegin
    | _ => s.pwrDiscard)

/-- WAKE_N (R474, R475): a falling edge ends STANDBY, or the entry to it; it is ignored in every other state. -/
def execWakeN (s : State) : Host.Outcome State Fault Refusal :=
  if s.pwrState = 3 then .next s.wakeBegin
  else if s.pwrState = 1 ∧ s.pwr.goal = 3 then .next (s.abortEntry 0)
  else .next s

/-- NAP_AUTO_WAKE (R438): an access or command that needs the tile logic wakes a package in NAP. -/
def execNapAutoWake (s : State) : Host.Outcome State Fault Refusal := .next s.napWake

/-- What waited for the wake is done, oldest first (R438). -/
def State.doHeld (s : State) : State :=
  let ws : List HeldWork := s.pwr.held
  ws.foldl (fun s w => match w with
    | .load => s.loadNow 0
    | .start => s.startNow 0
    | .span f t span wr waits late => s.spanNow f t span wr waits late
    | .cxl m x wr => s.cxlNow m x wr) { s with pwr.held := [] }

/-- NAP_WAKE_DONE (R438): the package is ACTIVE again; changes of CAP, PHASE_PREF and CLIM made asleep take effect. -/
def execNapWakeDone (s : State) : Host.Outcome State Fault Refusal :=
  if s.pwrState ≠ 4 ∨ s.pwr.goal = 3 then .next s
  else .next (({ (s.isolate false tilePages).domains false 0 64 with pwr.goal := 0 }.setPwr 0).powerEval.doHeld)

/-- The end of a wake through the stages (R436, R438, R440): isolation and resets are released; after STANDBY the servo is in HOLDOVER, and
after an entry that was aborted what waited in NAP is done. -/
def State.standbyLeft (s : State) : State :=
  let slept := s.pwr.from_ == 3
  let s := (s.isolate false (pagesOf (standbyTypes ++ retainedTypes))).domains false 0 100
  let s := (List.range 8).foldl (fun s c => s.fset (pgCel c) F.cel.CEL_STAT_SELF_REFRESH false) s
  let s := if slept then { s with tbase.good := 0 }.servoState 2 else s
  let s := ({ s with pwr.goal := 0, pwr.stage := 0 }.setPwr 0).powerEval
  if slept then s else s.doHeld

end Sys2Proof.Machine
end

