-- ==== Sys2Proof/Machine/Tenants.lean ====
section
/-! DEFINITION. Tenant key slots (R408 to R410, R416) and the debug grant (R413). -/

namespace Sys2Proof.Machine

/-- The state of a tenant slot: 0 FREE, 1 ACTIVATING, 2 ACTIVE, 3 REVOKING, 4 ZEROISING, 5 SCRUBBING. -/
def State.ksState (s : State) (t : Nat) : Nat := s.fget (pgKs t) F.ks.KS_STAT_STATE

/-- A slot enters a state, which is logged (R463). -/
def State.setKs (s : State) (t st : Nat) : State :=
  (s.fput (pgKs t) F.ks.KS_STAT_STATE st).logEvent (pgKs t) lcTenantState 0 (t + 2 ^ 4 * st)

/-- The status of the slot's last command. -/
def State.ksResult (s : State) (t st : Nat) : State := s.fput (pgKs t) F.ks.KS_STAT_RESULT st

/-- The key a slot holds. -/
def State.ksKey (s : State) (t : Nat) : Option TenantKey := Store.get none s.onyx.keys t

/-- The ACTIVATE held at a slot while it scrubs. -/
def State.ksHeld (s : State) (t : Nat) : Option TenantKey := Store.get none s.onyx.heldAct t

/-- ACTIVATE is refused with ACCESS (R408): the slot's state, an ACTIVATE held, the same TENANT_TAG active elsewhere, the debug state; and
while the page is disabled (R43). -/
def State.ksBarred (s : State) (t tag : Nat) : Bool :=
  !(s.ksState t == 0 || s.ksState t == 5) || (s.ksHeld t).isSome
  || ((List.range 16).any fun u => u != t && s.ksState u == 2 && s.fget (pgKs u) F.ks.KS_TAG_TENANT_TAG == tag)
  || s.fon pgMbx F.mbx.BOOT_STAT_DEBUG || !s.enabled (pgKs t)

/-- KS_ACTIVATE (R401, R408): the package is checked when the command arrives, then the slot; a scrubbing slot holds the command. -/
def execKsActivate (r : Requester) (t : Fin 16) (s : State) : Host.Outcome State Fault Refusal :=
  .next (s.hubAdmit r (pgKs t) 0x40 fun s =>
    match s.package (pgKs t) 0x72 (s.fget (pgKs t) F.ks.KS_SRC_ADDR) (s.fget (pgKs t) F.ks.KS_LEN_LENGTH) with
    | (s, .error st) => s.ksResult t st
    | (s, .ok (d, pl)) =>
      let k : TenantKey := ⟨leNat pl, fieldAt d 8 0 32, fieldAt d 4 0 16⟩
      if s.ksBarred t k.tag then s.ksResult t stAccess
      else if k.gen = s.fget (pgKs t) F.ks.KS_LAST_GEN_GEN then s.ksResult t 0x81
      else if s.ksState t = 5 then { s with onyx.heldAct := Store.set none s.onyx.heldAct t.val (some k) }
      else { s with onyx.keys := Store.set none s.onyx.keys t.val (some k) }.setKs t 1)

/-- A slot's soft reset that waits for the slot ends (R416). -/
def State.ksResetEnds (s : State) (t : Nat) : State :=
  if Store.get false s.onyx.resetWait t then
    ({ s with onyx.resetWait := Store.set false s.onyx.resetWait t false }.fset (pgKs t) F.com.RESET_BUSY false).event (pgKs t) 3
  else s

/-- ACTIVATION_DONE (R408): the keys are derived and written to the key bus. -/
def execActivationDone (t : Fin 16) (s : State) : Host.Outcome State Fault Refusal :=
  match s.ksKey t with
  | none => .next s
  | some k =>
    if s.ksState t ≠ 1 then .next s else
    let s := ((s.setKs t 2).ksResult t stDone).fput (pgKs t) F.ks.KS_STAT_KEY_GEN k.gen
    .next ((s.fput (pgKs t) F.ks.KS_TAG_TENANT_TAG k.tag).event (pgKs t) 8 stDone)

/-- The slot's keys cleared. -/
def State.dropTenantKey (s : State) (t : Nat) : State := { s with onyx.keys := Store.set none s.onyx.keys t none }

/-- The steps 1 to 3 of R409: the slot is REVOKING, its work refused or aborted, its connections closed. -/
def State.revokeActive (s : State) (t : Nat) (scrub : Bool) : State :=
  let s := { s with onyx.scrub := Store.set false s.onyx.scrub t scrub }.fput (pgKs t) F.ks.KS_T_REVOKE_TIME s.time.toNat
  let s := ((s.fput (pgKs t) F.ks.KS_LANDED_COUNT 0).ksResult t stDone).setKs t 3
  ((s.jobsRevoke t).abortMigs t).xptRevoke t

/-- A REVOKE of a slot, by its state (R408). -/
def State.revoke (s : State) (t : Nat) (scrub : Bool) : State :=
  match s.ksState t with
  | 1 => (((s.fput (pgKs t) F.ks.KS_T_REVOKE_TIME s.time.toNat).dropTenantKey t).ksResult t stAborted).setKs t 0
  | 2 => s.revokeActive t scrub
  | 5 => if (s.ksHeld t).isSome then ({ s with onyx.heldAct := Store.set none s.onyx.heldAct t none }.fput (pgKs t) F.ks.KS_T_REVOKE_TIME s.time.toNat).ksResult t stAborted
    else s.bump (pgKs t) (F.com.EVT_CNT 7) 1
  | _ => s.bump (pgKs t) (F.com.EVT_CNT 7) 1

/-- KS_REVOKE (R408, R409). -/
def execKsRevoke (r : Requester) (t : Fin 16) (scrub : Bool) (s : State) : Host.Outcome State Fault Refusal :=
  .next (s.hubAdmit r (pgKs t) 0x40 fun s => s.revoke t scrub)

/-- REVOKE_LANDED (R408, R409): what was admitted has landed, `n` bursts and placements of it under the old key; the Shelves are
zero-filled once the removed run's operations have ended, and the key is cleared. -/
def execRevokeLanded (t : Fin 16) (n : BitVec 32) (s : State) : Host.Outcome State Fault Refusal :=
  if s.ksState t ≠ 3 ∨ (s.agate.fillDue ∧ !s.tilesIdle) then .next s else
  let s := s.fput (pgKs t) F.ks.KS_LANDED_COUNT n.toNat
  let s := { s with shelf := if s.agate.fillDue then [] else s.shelf, agate.fillDue := false }
  .next ((s.dropTenantKey t).setKs t 4)

/-- The handles of a removed tenant whose CREATE or DESTROY still waits. -/
def State.waitingHandles (s : State) (t : Nat) : List Nat :=
  (s.tiers.objects.filter fun e => match e.2 with
    | some o => o.cls < 2 && o.owner == t && (o.st == .creating || o.st == .destroying)
    | none => false).map (·.1)

/-- The object commands of these handles that still wait end with ABORTED. -/
def State.abortObjCmds (s : State) (hs : List Nat) : State :=
  hs.foldl (fun s h =>
    let mine (c : ObjCmd) : Bool := c.handle == h && c.ready.isNone
    (s.readyCmd false mine stAborted).readyCmd true mine stAborted) s

/-- ZEROISED (R408, R263, R277, R369): every copy of the key is gone; its generation is retired. -/
def execZeroised (t : Fin 16) (s : State) : Host.Outcome State Fault Refusal :=
  if s.ksState t ≠ 4 then .next s else
  let s := ((s.freeTenant t).abortObjCmds (s.waitingHandles t)).xptForget t
  let s := (s.fput (pgKs t) F.ks.KS_LAST_GEN_GEN (s.fget (pgKs t) F.ks.KS_STAT_KEY_GEN)).fput (pgKs t) F.ks.KS_T_ZERO_TIME s.time.toNat
  let s := (s.fput (pgKs t) F.ks.KS_STAT_KEY_GEN 0).fput (pgKs t) F.ks.KS_TAG_TENANT_TAG 0
  let s := (s.setKs t (if Store.get false s.onyx.scrub t.val then 5 else 0)).event (pgKs t) 9
  .next (s.ksResetEnds t)

/-- The bytes of a stack's region `j`, if it is VALID under the key of slot `t`: its extent in 2 MiB units. -/
def State.scrubSpan (s : State) (t c j : Nat) : Option (Nat × Nat) :=
  if s.fon (pgRgn c) (F.rgn.RG_CFG_VALID j) && s.fget (pgRgn c) (F.rgn.RG_CFG_KEY j) == t then
    some (s.fget (pgRgn c) (F.rgn.RG_SPAN_BASE j), s.fget (pgRgn c) (F.rgn.RG_SPAN_LIMIT j))
  else none

/-- A stack's offsets that a scrub of slot `t` covers, as (from, to) in bytes. -/
def State.scrubRuns (s : State) (t c : Nat) : List (Nat × Nat) :=
  (List.range 64).filterMap fun j => (s.scrubSpan t c j).map fun x => (x.1 * 2 ^ 21, x.2 * 2 ^ 21)

/-- Stack offsets in a run of a list. -/
def inRuns (rs : List (Nat × Nat)) (o : Nat) : Bool := rs.any fun r => r.1 ≤ o && o < r.2

/-- SCRUB_DONE (R410): every VALID region of the slot, tag areas included, holds zero ciphertext; a held ACTIVATE proceeds as from FREE
(refused in the debug state, as from FREE). -/
def execScrubDone (t : Fin 16) (s : State) : Host.Outcome State Fault Refusal :=
  if s.ksState t ≠ 5 then .next s else
  let runs (c : Nat) : List (Nat × Nat) := s.scrubRuns t c
  let bytes := ((List.range 8).flatMap fun c => (runs c).map fun r => r.2 - r.1).foldl (· + ·) 0
  let scrubs := ((List.range 8).flatMap fun c => (runs c).map fun r => (c * 2 ^ 36 + r.1, c * 2 ^ 36 + r.2)).foldl
    (fun m r => addRun r.1 r.2 m) s.tiers.scrubs
  let cells := s.tiers.cellar.filter fun x => !inRuns (runs (x.1 / 2 ^ 32)) (x.1 % 2 ^ 32 * 16)
  let tags := s.tiers.tags.filter fun x => !inRuns (runs (x.1 / 2 ^ 33)) (x.1 % 2 ^ 33 * 8)
  let s := { s with tiers.scrubs := scrubs, tiers.cellar := cells, tiers.tags := tags }
  let s := (s.fput (pgKs t) F.ks.KS_SCRUB_BYTES bytes).event (pgKs t) 10
  match s.ksHeld t with
  | none => .next (s.setKs t 0)
  | some k =>
    let s := { s with onyx.heldAct := Store.set none s.onyx.heldAct t.val none }
    if s.fon pgMbx F.mbx.BOOT_STAT_DEBUG then .next ((s.ksResult t stAccess).setKs t 0)
    else .next ({ s with onyx.keys := Store.set none s.onyx.keys t.val (some k) }.setKs t 1)

/-! ### The debug grant (R413) -/

/-- Bytes of a debug token. -/
def tokenLen : Nat := 576

/-- The checks of a debug token (R413, R49; where the header's fields lie is the model's, log 31): the first failing status. -/
def State.tokenCheck (s : State) (bs : List Byte) (len : Nat) : Nat :=
  match checkStruct 64 (leNat (bs.take 64)) with
  | .failed => stCheckFailed
  | .clean d | .corrected d =>
    let signedBy (m : Nat) : Bool := Config.pssVerify m (bs.take 64) (slice bs 64 512)
    (firstFailure [
      (!s.versionOk pgMbx (fieldAt d 0 0 4), stVersion),
      (reservedSet 64 d [(0, 0, 4), (0, 8, 8), (4, 0, 8), (8, 0, 32), (0xC, 0, 32), (0x10, 0, 32), (0x14, 0, 32), (0x3C, 0, 10)],
        stReservedSet),
      (fieldAt d 0 8 8 != 0x74 || fieldAt d 4 0 8 == 0 || 2 < fieldAt d 4 0 8, stFormat),
      (len != tokenLen, stLenRange),
      (fieldAt d 8 0 64 != s.fget pgMbx F.mbx.SERIAL_SERIAL || fieldAt d 0x10 0 64 != s.fget pgMbx F.mbx.DEBUG_NONCE_NONCE, 0x82),
      (!signedBy (Config.part 9) && !(s.enrolled && signedBy (s.onyx.ivk.getD (Config.part 1))), stAuth)]).getD stDone

/-- A fresh DEBUG_NONCE, after every attempt. -/
def State.freshNonce (s : State) : State :=
  let (n, s) := s.draw
  s.fput pgMbx F.mbx.DEBUG_NONCE_NONCE n

/-- DEBUG_GRANT (R413): with the DRBG stopped it ends with ABORTED (R393, log 94); an accepted token revokes every ACTIVE or ACTIVATING slot; the command ends (MAILBOX_CMD_DONE) once each has left
ZEROISING. -/
def execDebugGrant (r : Requester) (s : State) : Host.Outcome State Fault Refusal :=
  .next (s.mailbox r 8 fun s a len =>
    if s.onyx.drbgStopped then s.mbxBegin 8 stAborted .none else
    match s.devRead .firmware a tokenLen with
    | (s, .error st) => s.freshNonce.mbxBegin 8 st .none
    | (s, .ok bs) =>
      let st := s.tokenCheck bs len
      let s := s.freshNonce.mbxBegin 8 st (.debug bs)
      if st = stDone then (List.range 16).foldl (fun s t => if s.ksState t = 1 ∨ s.ksState t = 2 then s.revoke t false else s) s else s)

end Sys2Proof.Machine
end

