-- ==== Sys2Proof/Machine/Reset.lean ====
section
/-! DEFINITION. Soft resets (R45): how each block's held work ends with ABORTED, and which fields of a page return to their reset
values. -/

namespace Sys2Proof.Machine

/-! ### The fields of a page -/

/-- Page types whose read-only fields show something a soft reset of the page does not touch: what a boot found, the state of a link, of
retained contents or of a controller outside the block (log 12). -/
def showsOutside (t : PageType) : Bool :=
  [PageType.hst, .lnk, .mbx, .ks, .pwr, .ops, .thr, .dom, .wake, .atc, .slot, .elog, .cel, .rgn, .ccr, .net, .seam, .seq].contains t

/-- The field of a page with a bit offset is kept: VERSION_SELECT, the counters, ISOLATED, what the page's chapter names, the twin link's
registers, read-only fields of `showsOutside`. -/
def keptField (t : PageType) (o : Nat) : Bool :=
  if o < 0x40 * 8 then o == 0x8 * 8 + 4 || o == 0xC * 8 + 2 || 0x20 * 8 ≤ o
  else (t == .eth && 0x200 * 8 ≤ o && o < 0x240 * 8)
    || (pageFields t).any fun f => (f.keep || (f.access == .ro && showsOutside t))
      && (List.range f.count).any fun i => (f.fld i).off * 8 + (f.fld i).lo == o

/-- Whether a register key lies in a page; the queue registers of the XPT count as its page's. -/
def inPage (p : Page) (k : Nat) : Bool :=
  (p.base * 8 ≤ k && k < (p.base + 0x1000) * 8) || (p.ty == .xpt && 0x10000000 ≤ k / 8)

/-- Every field of a page returned to its reset value, but for those kept (R45). -/
def State.returnFields (s : State) (p : Page) : State :=
  { s with regs := s.regs.filter fun x => !inPage p x.1 || (x.1 / 8 < 0x10000000 && keptField p.ty (x.1 - p.base * 8)) }

/-! ### Tiles (R83, R97, R104, R133, R157) -/

/-- The bytes a RUN's descriptor may write (R133). -/
def runWriteRange (d : Nat) (p : ProgSlot) : List Nat :=
  match (p.entries[VD.entry d]?).bind fun e => p.stream e with
  | none => []
  | some (a, b, c) =>
    let keep (w : Nat) : Bool := VI.op w == 0x39 || VI.op w == 0x3B || VI.op w == 0x50
    (runAccesses d (a.filter keep, b.filter keep, c.filter keep)).flatMap fun x =>
      (List.range x.2.2.2.1).map fun i => shelfKey (unsignedOf 32 (x.1 + (x.2.2.1 : Int)) + i)

/-- The write range of the RUN that a tile's reset ends holds unspecified bytes. -/
def State.spoilRun (s : State) (t : Nat) (r : VecRun) : State :=
  if descOpcode r.desc ≠ 2 then s else
  match (s.tile t).prog (VD.pslot r.desc) with
  | none => s
  | some p =>
    let ks := runWriteRange r.desc p
    let (bs, s) := s.junk ks.length
    s.shelfPut (ks.zip bs)

/-- The work of a tile ended (R83, R133): running and queued operations with ABORTED, sets zero, slots empty, landing buffers EMPTY in
generation 0 with their contents as they were. -/
def State.tileReset (s : State) (t : Nat) : State :=
  let s := s.withdraw t fun _ => true
  let u := s.tile t
  let s := u.started.foldl (fun s o => s.mxeAborted t o.desc) s
  let s := match u.vrun with
    | some r => (s.vecAborted t r.desc).spoilRun t r
    | none => s
  let fills : List Fill := s.agate.fills.map fun f => if f.tile = t then { f with gen := 16 } else f
  let s := { s with agate.fills := fills }.returnFields (tilPage t)
  s.putTile t {}

/-! ### Engines and queues -/

/-- The Agate engines emptied: a run ends with ABORTED, a load is dropped, the stores are discarded (R43, R45). -/
def State.agateReset (s : State) : State :=
  let s := if s.running then s.endRun stAborted else s
  let s := if s.agtState 0 = 1 then s.jobLoaded stAborted else s
  { s with agate := { retiring := s.agate.retiring, lastTenant := s.agate.lastTenant, fillDue := s.agate.fillDue,
                      notices := s.agate.notices, fills := s.agate.fills, vimages := s.agate.vimages } }.setAgt 0

/-- What the tier manager runs ended with ABORTED: MOVEs, migrations, queued descriptors (R272, R278). -/
def State.movesAbort (s : State) (which : Move → Bool) : State :=
  let ms : List Move := s.tiers.moves.filter which
  ms.foldl (fun s m =>
    let (bs, s) := s.junk (moveLen m.desc)
    ((s.devWrite .firmware (moveDst m.desc) bs).1).noteRun stAborted)
    { s with tiers.moves := s.tiers.moves.filter fun m => !which m }

/-- Every running migration ended with ABORTED. -/
def State.migsAbort (s : State) : State :=
  let ms : List Migration := s.tiers.migs
  ms.foldl (fun s m => s.migFailed m stAborted) (s.putMigs [])

/-- Every waiting object command ended with ABORTED. -/
def State.objCmdsAbort (s : State) (fw : Bool) : State :=
  let n := (s.ringCmds fw).length
  (List.range n).foldl (fun s _ => s.readyCmd fw (fun c => c.ready.isNone) stAborted) s

/-- A job queue emptied: waiting entries, its run and its ADMITs end with ABORTED; its rings begin anew. -/
def State.queueReset (s : State) (q : Nat) : State :=
  let s := State.abortJobs q 4096 s
  let mine := match s.agate.job with
    | some (k, _, _) => k == q
    | none => false
  let s := if mine && s.running then s.endRun stAborted else s
  let as : List Admitted := s.host.admitted.filter fun a => a.queue == q
  let s := as.foldl (fun s a => (s.unpin a.pins).putRecord ⟨a.queue, a.opId, stAborted, 3, a.index, 0, 0⟩)
    { s with host.admitted := s.host.admitted.filter fun a => a.queue != q }
  { s with host.waiting := s.host.waiting.filter (fun r => r.queue != q), host.seqs := Store.set 0 s.host.seqs q 0,
           host.passes := Store.set false s.host.passes q false, host.unsignalled := Store.set 0 s.host.unsignalled q 0 }

/-- A port's queues, rings and lane state dropped. -/
def State.portReset (s : State) (n : Nat) : State :=
  let s := if s.linkUp n then s.linkFalls n else s.flushQueues n
  let p := s.port n
  s.putPort n { oper := p.oper, pend := p.pend, cycles := p.cycles }

/-- A tenant slot's page acts as a REVOKE without scrub; what it must wait for is remembered (R416). -/
def State.revokeForReset (s : State) (t : Nat) : State :=
  let st := s.ksState t
  let s := if st = 1 ∨ st = 2 ∨ st = 5 && (s.ksHeld t).isSome then s.revoke t false else s
  { s with onyx.resetWait := Store.set false s.onyx.resetWait t (s.ksState t == 3 || s.ksState t == 4) }

/-- What a soft reset of a page ends and discards (R45). -/
def State.abortWork (s : State) (p : Page) : State :=
  let n := p.inst
  match p.ty with
  | .til => s.tileReset n
  | .seq => if s.running then s.endRun stAborted else s
  | .agt => s.agateReset
  | .late => { s with agate.lateSeq := Store.set 0 s.agate.lateSeq n 0 }
  | .dp => { s with slotHeld := s.slotHeld.filter fun x => x.1 / 64 != n }
  | .vst => { s with agate.vimages := s.agate.vimages.filter fun x => x.1 / 256 != n }
  | .col => s.colReset n
  | .comm => s.colReset n
  | .hst => { s with hub.eqSeq := 0, hub.eqPass := false, hub.unreported := [] }
  | .jq => s.queueReset n
  | .mbx => match s.onyx.mbx with
    | some c => { s with onyx.mbx := none }.mbxReport c.op stAborted
    | none => s
  | .ks => s.revokeForReset n
  | .pwr => s.abortEntry 0
  | .thr => { s with pwr.ringSeq := 0 }
  | .servo => { s with tbase.integral := 0, tbase.good := 0 }
  | .atc => match s.attic.install with
    | some i => s.installEnds i stAborted
    | none => s
  | .tir => { (s.movesAbort fun _ => true).migsAbort with tiers.queue := [] }
  | .mq => { ((s.migsAbort).objCmdsAbort false).objCmdsAbort true with
      tiers.drv := [], tiers.fwr := [], tiers.drvOut := [], tiers.fwOut := [], tiers.drvSeq := 0, tiers.fwSeq := 0 }
  | .mgt => { s with net.mgt := [] }
  | .xpt => s.xptReset
  | .win => { s with xpt.wins := [], xpt.winCmd := none }
  | .eth => s.portReset n
  | .gl => s.putPort n { s.port n with oper := none, pend := none, cycles := 0 }
  | .ms => { s with net.saks := s.net.saks.filter (fun x => x.1 / 8 != n), net.rxPn := s.net.rxPn.filter fun x => x.1 / 4 != n }
  | _ => s

/-- A soft reset begins (R45): work ends, fields return, RESET_BUSY is set. -/
def State.softReset (s : State) (p : Page) : State :=
  ((s.abortWork p).returnFields p).fset p F.com.RESET_BUSY true

/-- A soft reset completes (R45): RESET_BUSY clears and RESET_DONE is set. -/
def State.resetEnds (s : State) (p : Page) : State := (s.fset p F.com.RESET_BUSY false).event p 3

/-- Whether a soft reset that runs must still wait: the Attic controller for its selector write (R304), a tenant slot for its keys (R416). -/
def State.resetWaits (s : State) (p : Page) : Bool :=
  match p.ty with
  | .atc => s.attic.selWrite.isSome
  | .ks => Store.get false s.onyx.resetWait p.inst
  | _ => false

end Sys2Proof.Machine
end

