-- ==== Sys2Proof/Machine/Boot.lean ====
section
/-! DEFINITION. Start-up, faults and the loss of power (R448 to R465, R470 to R476): resets, boot stages, wake stages, characterisation
and the mapping of groups, the site section, die faults, fatal faults, watchdogs, the power-fail warning. -/

namespace Sys2Proof.Machine

def pgCcr (d : Nat) : Page := ⟨.ccr, d⟩
def pgSeam : Page := ⟨.seam, 0⟩
def pgNet (d : Nat) : Page := ⟨.net, d⟩

/-! ### Resets (R448, R461, R465) -/

/-- A register that shows what the Attic holds: selectors, wear, the log's newest and oldest entry. -/
def atticKey (k : Nat) : Bool :=
  selectorKey k || k == F.atc.ATC_WEAR_MAX_CYCLES.key pgAtc || k == F.atc.ATC_WEAR_BLOCK.key pgAtc || k == F.elog.LOG_HEAD_SEQ.key pgElog
  || k == F.elog.LOG_OLDEST_SEQ.key pgElog

/-- A selector write that a loss of power cuts leaves the old selection or the new one, each whole (R297): which is free. -/
def State.cutSelector (s : State) : State :=
  match s.attic.selWrite with
  | none => s
  | some w =>
    let (n, s) := s.draw
    if n % 2 = 1 then s.putSelector w.slot w.rcd else s

/-- The log after a loss of power: the entry whose program had begun is torn, those that waited were never written (R461). -/
def State.cutLog (s : State) : EventLog :=
  match s.log.prog with
  | none => { entries := s.log.entries, torn := s.log.torn }
  | some (seq, _) => { entries := Store.set none s.log.entries seq (some 3), torn := s.log.torn + 1 }

/-- The number of the next boot: one more than the newest entry's (R461). -/
def State.nextBoot (s : State) : Nat :=
  let b := s.fget pgElog F.elog.BOOT_PROGRESS_BOOT
  if s.fget pgElog F.elog.LOG_WRITES_COUNT = 0 then b else (b + 1) % 2 ^ 16

/-- Every domain in reset (R448, R465): what the Attic, the identity partition and host memory hold stays. -/
def State.toReset (s : State) : State :=
  let pins := s.outPins
  let s := pins.foldl (fun s p => s.drive p false) s.cutSelector
  let site := s.net.siteNext.foldl (fun m x => Store.set none m x.1 x.2) s.net.site
  let boot := s.nextBoot
  let s1 : State := {
    pending := s.pending, out := s.out, hostMem := s.hostMem, freeCtr := s.freeCtr
    regs := s.regs.filter fun x => atticKey x.1
    attic := { s.attic with keys := [], install := none, selWrite := none, repl := [] }
    net := { site := site }
    onyx := { ivk := s.onyx.ivk, suk := s.onyx.suk, policy := s.onyx.policy, siteChain := s.onyx.siteChain }
    log := s.cutLog }
  let s1 := s1.fput pgElog F.elog.BOOT_PROGRESS_BOOT boot
  (List.range 32).foldl (fun s k =>
    (s.fset pgSlot (F.slot.SL_STAT_KEY_READY k) false).fset pgSlot (F.slot.SL_STAT_PROGRAMMING k) false) s1

/-- COLD_RESET (R448): power applied, or RESET_N low. -/
def execColdReset (s : State) : Host.Outcome State Fault Refusal := .next s.toReset

/-- POWER_LOSS (R465). -/
def execPowerLoss (s : State) : Host.Outcome State Fault Refusal := .next s.toReset

/-- RESET_RELEASE (R449, R471): the climb starts from stage RESET, which switches the Attic's rails on. -/
def execResetRelease (s : State) : Host.Outcome State Fault Refusal :=
  if s.boot.held then .next ({ s with boot.held := false, uptime := 0 }.drive .enAttic true) else .next s

/-! ### Fatal faults (R458) -/

/-- A fatal fault has occurred since the last cold reset. -/
def State.fatalNow (s : State) : Bool := s.fon (pgCcr 0) F.ccr.FAULT_STAT_FATAL

/-- The engines stop; no job that was outstanding receives a record. -/
def State.stopAll (s : State) : State :=
  let s := { s with agate.job := none, agate.jobStart := none, host.admitted := [], host.services := [] }
  if s.running then s.endRun stAborted else if s.agtState 0 = 1 then s.setAgt 0 else s

/-- A tenant revoked by the fault controller: as under R409, but queued job entries receive no record. -/
def State.fatalRevoke (s : State) (t : Nat) : State :=
  if s.ksState t ≠ 2 then s else
  let s := { s with onyx.scrub := Store.set false s.onyx.scrub t false }.fput (pgKs t) F.ks.KS_T_REVOKE_TIME s.time.toNat
  let s := ((s.fput (pgKs t) F.ks.KS_LANDED_COUNT 0).ksResult t stDone).setKs t 3
  (s.abortMigs t).xptRevoke t

/-- A fatal fault (R458). The first cause stands. -/
def State.fatal (s : State) (cause : Nat) : State :=
  if s.fatalNow then s else
  let s := ({ s.stopAll with pwr.zero := true }.moveGroups).drive .faultN true
  let s := (s.fset pgHst F.hst.HOST_STAT_READY false).fset (pgCcr 0) F.ccr.FAULT_STAT_FATAL true
  let s := (s.fput (pgCcr 0) F.ccr.FAULT_STAT_FATAL_CAUSE cause).event (pgCcr 0) 9
  let s := (List.range 16).foldl (fun s t => s.fatalRevoke t) s
  let s := { s with attic.keys := [], net.saks := [], net.rxPn := [] }
  let s := (List.range 32).foldl (fun s k => s.fset pgSlot (F.slot.SL_STAT_KEY_READY k) false) s
  s.logEvent (pgCcr 0) lcFatal 0 cause

/-! ### Boot stages (R449 to R451) -/

/-- The boot stage under way: 0 none. -/
def State.stageNow (s : State) : Nat :=
  if s.boot.held ∨ s.fatalNow then 0
  else if s.fon pgElog F.elog.BOOT_PROGRESS_FAILED then s.boot.failedAt.getD 0
  else if s.fget pgElog F.elog.BOOT_PROGRESS_STAGE < 7 then s.fget pgElog F.elog.BOOT_PROGRESS_STAGE + 1 else 0

/-- A stage completed: recorded with its time since the release of reset, and logged. -/
def State.stageDone (s : State) (k : Nat) : State :=
  let us := s.uptime / 1000
  ((s.fput pgElog F.elog.BOOT_PROGRESS_STAGE k).fput pgElog (F.elog.BOOT_US_US (k - 1)) us).logEvent pgElog lcBootStage 0
    (k + 2 ^ 8 * min us (2 ^ 24 - 1))

/-- A boot fails in stage `k` (R451): after SELFTEST or CELLAR the modules still train; before, the fault output is driven. -/
def State.bootFails (s : State) (k st : Nat) : State :=
  let s := ((s.fset pgElog F.elog.BOOT_PROGRESS_FAILED true).fput pgElog F.elog.BOOT_PROGRESS_FAIL_STATUS st).logEvent pgElog lcBootFail st k
  let late := k = 4 ∨ k = 5
  let s := { s with log.open_ := true, boot.failedAt := if late then some 6 else none, boot.links := late }
  if k ≤ 3 then s.drive .faultN true else s

/-- Every condition of R450. -/
def State.mayBeReady (s : State) : Bool :=
  s.fget pgMbx F.mbx.BOOT_STAT_FAIL == 0 && s.fget (pgCcr 0) F.ccr.CORE_STAT_RUNNING == 3 && s.fget (pgCcr 1) F.ccr.CORE_STAT_RUNNING == 3
  && s.fget pgSeam F.seam.SEAM_STAT_CH_UP == 0xFF && (List.range 8).all (fun c => s.fon (pgCel c) F.cel.CEL_STAT_TRAINED)
  && s.fget pgHst F.hst.HOST_STAT_MODULES_UP != 0

/-- HOST_STAT.READY set where R450 holds: the last stage. -/
def State.tryReady (s : State) : State :=
  if s.mayBeReady then
    let s := (s.fset pgHst F.hst.HOST_STAT_READY true).stageDone 7
    { s with log.open_ := true }
  else s

/-- SELECTOR_EMPTY logged for the slots with no good selector copy (R295). -/
def State.logEmptySlots (s : State) : State :=
  (List.range 32).foldl (fun s k =>
    if s.fon pgSlot (F.slot.SL_STAT_EMPTY k) then s.logEvent pgSlot lcSelectorEmpty 0 (0x61 + 2 ^ 8 * k) else s) s

/-- The running image: ACTIVE, or the other on a fallback; its SVN and the digests of its header and components (R396, R397). -/
def State.runImage (s : State) (fallback : Bool) : Nat × Nat × List Byte × List (List Byte) :=
  let im := if fallback then 1 - s.fwActive else s.fwActive
  match Store.get none s.attic.bundles im with
  | some (_, svn, bs) =>
    (im, svn, digestOf (bs.take 0x340), (List.range 3).map fun j => let c := component bs j; digestOf (slice bs c.1 c.2.1))
  | none => (im, Config.part (18 + im) % 2 ^ 16, leBytes 64 (Config.part 20), [11, 12, 13].map fun k => leBytes 64 (Config.part k))

/-- BOOT_STAT, FW_FLOOR and the measurements of a boot (R397, R399). -/
def State.measureBoot (s : State) (fallback : Bool) : State :=
  let (im, svn, hdr, cs) := s.runImage fallback
  let first := s.attic.fwActive.isNone && Store.get none s.attic.bundles im == none
  let s := if first then s else
    ((s.fput pgMbx F.mbx.BOOT_STAT_IMAGE im).fset pgMbx F.mbx.BOOT_STAT_FALLBACK fallback).fput pgMbx F.mbx.BOOT_STAT_SVN svn
  let s := match s.attic.fwFloor with
    | some f => s.fput pgMbx F.mbx.FW_FLOOR_FLOOR f
    | none => s
  let s := if s.onyx.ivk.isSome then s.fset pgMbx F.mbx.BOOT_STAT_ENROLLED true else s
  let s := ((s.extendMeas 0 (leBytes 64 (Config.part 10))).extendMeas 1 (cs.getD 0 [])).extendMeas 1 hdr
  let s := (s.extendMeas 2 (cs.getD 1 [])).extendMeas 3 (cs.getD 2 [])
  let (cfg, s) := if s.net.site.isEmpty then (Config.part 14, s) else s.draw
  let s := (s.extendMeas 4 (leBytes 64 cfg)).extendMeas 5 (digestOf (Config.chain 0))
  let (ev, s) := s.draw
  let s := if fallback then s.extendMeas 6 (leBytes 64 ev) else s
  s.fset pgMbx F.mbx.BOOT_STAT_POLICY_MET s.policyMet

/-- Stage ONYX done (R397): the configuration record shown where registers show it, keys 16 and 17 and the debug nonce drawn, the cores
released. -/
def State.onyxUp (s : State) (b : BootReport) : State :=
  let s := { s with boot.recordBad := b.record.val }
  let s := if b.record = 0 then s else s.logEvent pgElog lcConfigBad 0 b.record.val
  let (k16, s) := s.draw
  let (k17, s) := s.draw
  let s := ({ s with onyx.key16 := k16, onyx.key17 := k17 }.freshNonce).measureBoot b.fallback
  let s := (List.range 17).foldl (fun s i => s.fput pgThr (F.thr.COEF_VALUE i) (s.record (200 + i))) s
  let s := (s.fput pgTwin F.eth.TWIN_CFG_PORTS (s.record 2)).fput pgTwin F.eth.TWIN_CFG_SECONDARY (s.record 3)
  (s.fput (pgCcr 0) F.ccr.CORE_STAT_RUNNING 3).fput (pgCcr 1) F.ccr.CORE_STAT_RUNNING 3

/-- Wake stage 1 begins: the rails are switched on, in R471's order. -/
def State.railsUp (s : State) : State :=
  { ((((s.drive .enCore0 true).drive .enCore1 true).drive .enSerdes true).drive .enHbmC true).drive .enHbmQ true with pwr.stage := 1 }

/-! ### Mapping (R453) -/

/-- Logical groups from `k` on of a die backed in ascending order, `taken` the spares taken so far; it ends at one that finds no group. -/
def State.mapDie (s : State) (d : Nat) : Nat → Nat → List Nat → List (Nat × Nat)
  | 0, _, _ => []
  | n + 1, k, taken =>
    let own := 34 * d + k
    let spare := [34 * d + 32, 34 * d + 33].find? fun p => s.qualifies p && !taken.contains p
    match (if s.qualifies own then some own else spare) with
    | none => []
    | some p => (32 * d + k, p) :: s.mapDie d n (k + 1) (if p = own then taken else p :: taken)

/-- Both dies have a group for each of their logical groups. -/
def State.allMapped (s : State) : Bool := (s.mapDie 0 32 0 []).length == 32 && (s.mapDie 1 32 0 []).length == 32

/-- The logical groups mapped and shown, spares logged. -/
def State.mapGroups (s : State) : State :=
  (s.mapDie 0 32 0 [] ++ s.mapDie 1 32 0 []).foldl (fun s x =>
    let s := s.showGroup x.1 x.2
    if x.2 % 34 < 32 then s else s.logEvent ⟨.seq, x.1⟩ lcSpareMapped 0 (x.1 + 2 ^ 8 * x.2)) s

/-- Every physical group has ended its characterisation. -/
def State.allMeasured (s : State) : Bool := (List.range 68).all fun p => Store.get 0 s.boot.measured p != 0

/-- BOOT_STAGE_COMPLETE (R449): the stage under way ends with what it found. -/
def execBootStageComplete (b : BootReport) (s : State) : Host.Outcome State Fault Refusal :=
  match s.stageNow with
  | 1 => .next (s.logEmptySlots.stageDone 1)
  | 2 =>
    if b.fail = 0 then .next (((s.onyxUp b).stageDone 2).railsUp)
    else .next ((s.fput pgMbx F.mbx.BOOT_STAT_FAIL b.fail.val).bootFails 2 stAuth)
  | 3 =>
    if s.pwr.stage = 0 ∧ s.fget pgWake F.wake.WAKE_STAT_STAGE = 4 then
      let s := (List.range 64).foldl (fun s g => s.setLevel g 9) { s with shelf := [] }
      .next ((s.stageDone 3).fput pgSeam F.seam.SEAM_STAT_CH_UP 0xFF)
    else .next s
  | 4 =>
    if !s.allMeasured then .next s else
    .next (if s.allMapped then s.mapGroups.stageDone 4 else s.mapGroups.bootFails 4 stAccess)
  | 5 =>
    let s := (List.range 8).foldl (fun s c => s.fset (pgCel c) F.cel.CEL_STAT_TRAINED (bitAt b.trained.toNat c)) s
    if b.trained = 0xFF#8 then .next { s.stageDone 5 with boot.links := true } else .next (s.bootFails 5 stTierFail)
  | 6 =>
    let s' := { s.stageDone 6 with boot.failedAt := none }
    .next (if s.fon pgElog F.elog.BOOT_PROGRESS_FAILED then s' else s'.tryReady)
  | 7 => .next s.tryReady
  | _ => .next s

/-- BOOT_STAGE_TIMEOUT (R449, R451): the stages with a timeout of their own. -/
def execBootStageTimeout (s : State) : Host.Outcome State Fault Refusal :=
  let k := s.stageNow
  .next (if k = 1 ∨ k = 2 ∨ k = 4 ∨ k = 5 then s.bootFails k stTimeout else s)

/-! ### Wake stages (R440) -/

/-- The wake of STANDBY is under way. -/
def State.standbyWakes (s : State) : Bool := s.pwrState == 4 && s.pwr.goal == 3

/-- WAKE_STAGE_READY (R440): the stage's time recorded; the next stage starts, or the domains are out of reset. -/
def execWakeStageReady (s : State) : Host.Outcome State Fault Refusal :=
  let k := s.pwr.stage
  if k = 0 ∨ !(s.standbyWakes || s.stageNow == 3) then .next s else
  let s := (s.fput pgWake (F.wake.WAKE_T_TIME (k - 1)) s.time.toNat).fput pgWake F.wake.WAKE_STAT_STAGE k
  if k < 4 then .next { s with pwr.stage := k + 1 }
  else .next (if s.standbyWakes then s.standbyLeft else { s with pwr.stage := 0 })

/-- WAKE_STAGE_TIMEOUT (R440): domain `dom` failed; what was raised is isolated again, and where the wake had begun from an entry that was
aborted the package is in STANDBY as after the entry. -/
def execWakeStageTimeout (dom : Fin 100) (s : State) : Host.Outcome State Fault Refusal :=
  if s.pwr.stage = 0 ∨ !(s.standbyWakes || s.stageNow == 3) then .next s else
  let s := (s.fset pgWake F.wake.WAKE_STAT_FAILED true).fput pgWake F.wake.WAKE_STAT_FAIL_DOMAIN dom.val
  let s := if s.standbyWakes && s.pwr.from_ != 3 then s.standbyDown else s
  let s := (({ s with pwr.stage := 0 }.drive .enSerdes false).drive .enCore1 false).drive .enCore0 false
  let s := s.fput pgPwr F.pwr.PWR_STATE_RESULT stTimeout
  if s.standbyWakes then .next ((s.drive .enAttic false).setPwr 3)
  else .next (((s.drive .enHbmQ false).drive .enHbmC false).event pgPwr 8 stTimeout |>.bootFails 3 stTimeout)

/-! ### Characterisation (R452) -/

/-- The candidate clocks in MHz, highest first. -/
def candidates : List Nat := [1750, 1700, 1650, 1600, 1550, 1500, 1450]

/-- A group ends its characterisation with MEASURED `mhz`: what R452 logs. A group of the record's retired ones is not logged as unqualified,
nor one that fails every candidate as drifted (log 46). -/
def State.groupEnds (s : State) (p mhz : Nat) : State :=
  let s := { s with boot.measured := Store.set 0 s.boot.measured p (mhz + 1) }
  let c := pgCcr (p / 34)
  let fmax := s.recordFmax p
  if s.retired p then s
  else if !s.qualifies p then s.logFrom c (p / 34) 0 lcGroupUnqualified 0 (p + 2 ^ 16 * mhz)
  else if mhz + 100 ≤ fmax then s.logFrom c (p / 34) 0 lcFmaxDrift 0 (p + 2 ^ 8 * mhz + 2 ^ 20 * fmax)
  else s

/-- CHAR_TRIAL_END (R452): a trial of a physical group at its present candidate ends. -/
def execCharTrialEnd (p : Fin 68) (pass : Bool) (s : State) : Host.Outcome State Fault Refusal :=
  if s.stageNow ≠ 4 ∨ Store.get 0 s.boot.measured p.val ≠ 0 then .next s else
  let g : CharGroup := Store.get {} s.boot.trials p.val
  let g' : CharGroup := if pass then { g with passed := g.passed + 1 } else ⟨g.failed + 1, 0⟩
  let s := { s with boot.trials := Store.set {} s.boot.trials p.val g' }
  if g'.passed = 3 then .next (s.groupEnds p (candidates.getD g'.failed 0))
  else if g'.failed = 7 then .next (s.groupEnds p 0)
  else .next s

/-! ### The site section (R455) -/

/-- A SITE_CMD of CCR[0]: discarded while a command runs. -/
def State.siteCmd (s : State) (r : Requester) (act : State → State) : State :=
  s.hubAdmit r (pgCcr 0) 0x58 fun s =>
    if s.fon (pgCcr 0) F.ccr.SITE_RESULT_BUSY then s.bump (pgCcr 0) (F.com.EVT_CNT 7) 1 else act s

/-- A command that ends at once with a status. -/
def State.siteEnds (s : State) (st : Nat) : State :=
  ((s.fput (pgCcr 0) F.ccr.SITE_RESULT_STATUS st).fset (pgCcr 0) F.ccr.SITE_RESULT_BUSY false).event (pgCcr 0) 11 st

/-- A write of the site section begins. -/
def State.siteWrite (s : State) (c : SiteCmd) : State := { s with boot.site := some c }.fset (pgCcr 0) F.ccr.SITE_RESULT_BUSY true

/-- Spares of a die that qualify and back nothing, less those that pending retirements will take. -/
def State.freeSpares (s : State) (d : Nat) : Nat :=
  ([34 * d + 32, 34 * d + 33].filter fun p => s.qualifies p && !s.backs p && !s.agate.retiring.contains p).length
    - (s.agate.retiring.filter fun p => p / 34 == d && s.backs p).length

/-- SITE_RETIRE (R455, R19). -/
def execSiteRetire (r : Requester) (p : Fin 68) (persist : Bool) (s : State) : Host.Outcome State Fault Refusal :=
  .next (s.siteCmd r fun s =>
    if s.freeSpares (p / 34) = 0 ∨ !s.enabled (pgCcr 0) then s.siteEnds stAccess
    else
      let s := if s.agate.retiring.contains p.val then s else { s with agate.retiring := s.agate.retiring ++ [p.val] }
      if persist then s.siteWrite ⟨1, p, true, stDone, []⟩ else s.siteEnds stDone)

/-- SITE_RESTORE (R455). -/
def execSiteRestore (r : Requester) (p : Fin 68) (s : State) : Host.Outcome State Fault Refusal :=
  .next (s.siteCmd r fun s =>
    let retired := s.retired p || bitAt (s.recordNext 1) p || s.agate.retiring.contains p.val
    if !retired ∨ !s.enabled (pgCcr 0) then s.siteEnds stAccess else s.siteWrite ⟨2, p, false, stDone, []⟩)

/-- Bits of the PARAMS block that must be zero: bytes 0 to 0x13 and what R454 does not list. -/
def paramsReserved (v : Nat) : Bool :=
  reservedSet 64 v [(0x14, 0, 10), (0x14, 12, 4), (0x18, 0, 32), (0x1C, 0, 16), (0x20, 0, 128), (0x30, 0, 128)]

/-- SITE_PARAMS (R455). -/
def execSiteParams (r : Requester) (s : State) : Host.Outcome State Fault Refusal :=
  .next (s.siteCmd r fun s =>
    if !s.enabled (pgCcr 0) then s.siteEnds stAccess else
    match s.devRead .firmware (s.fget (pgCcr 0) F.ccr.SITE_SRC_ADDR) 64 with
    | (s, .error st) => s.siteEnds st
    | (s, .ok bs) =>
      if paramsReserved (leNat bs) then s.siteEnds stReservedSet else s.siteWrite ⟨3, 0, false, stDone, bs⟩)

/-- The record's site section as a PARAMS block leaves it. -/
def State.putParams (s : State) (v : Nat) : State :=
  let f (off lo w : Nat) : Nat := fieldAt v off lo w
  let xs : List (Nat × Nat) := [(2, f 0x14 0 8), (3, f 0x14 8 1), (4, f 0x14 9 1), (5, f 0x14 12 3), (6, f 0x14 15 1),
    (7, f 0x18 0 32 + 2 ^ 32 * f 0x1C 0 16), (8, bitsOf v (8 * 0x20) 128), (9, bitsOf v (8 * 0x30) 128)]
  xs.foldl (fun s x => s.putRecordNext x.1 x.2) s

/-- SITE_DONE (R455): the site section is written, under SITE_SEQ + 1. -/
def execSiteDone (s : State) : Host.Outcome State Fault Refusal :=
  match s.boot.site with
  | none => .next s
  | some c =>
    let s := { s with boot.site := none }.putRecordNext 0 ((s.recordNext 0 + 1) % 2 ^ 32)
    let v := s.recordNext 1
    let s := match c.op with
      | 1 => s.putRecordNext 1 (if bitAt v c.phys then v else v + 2 ^ c.phys)
      | 2 => s.putRecordNext 1 (if bitAt v c.phys then v - 2 ^ c.phys else v)
      | _ => s.putParams (leNat c.block)
    .next (s.siteEnds c.status)

/-! ### Die faults (R149, R457) -/

/-- A migration's copy touches a die: a Cellar stack or a Shelf of it. -/
def State.migOnDie (s : State) (d : Nat) (m : Migration) : Bool :=
  let place (tier mask at_ : Nat) : Bool :=
    (tier == 2 && (bitList 8 mask).any fun c => c / 4 == d) || (tier == 1 && at_ / 2 ^ 21 / 128 == d)
  place m.tier m.mask m.place || match s.obj m.handle with
    | some o => place o.tier o.mask o.place
    | none => false

/-- Die faults of the last second, newest first. -/
def State.recentFaults (s : State) (d : Nat) : List Nat := (Store.get [] s.boot.faults d).filter fun t => s.uptime < t + 1000000000

/-- A die fault (R457): the run and the die's work end; the fourth within a second is fatal. -/
def State.dieFault (s : State) (d col row : Nat) : State :=
  let c := pgCcr d
  let s := { s with boot.faults := Store.set [] s.boot.faults d (s.uptime :: s.recentFaults d) }
  let s := ((s.fset c F.ccr.FAULT_STAT_DIE_FAULT true).bump c F.ccr.DIE_FAULTS_COUNT 1).fput c F.ccr.FAULT_STAT_RECENT
    (min 255 (s.recentFaults d).length)
  let s := ((s.event c 8).logEvent c lcDieFault 0 (d + 2 ^ 4 * col + 2 ^ 8 * row))
  let s := if s.running then s.endRun stAborted else s
  let s := (List.range 128).foldl (fun s t => s.softReset (tilPage (128 * d + t))) s
  let s := s.softReset (pgCol d)
  let s := if d = 1 then State.abortQueue 4095 4096 (State.abortQueue 4094 4096 s) else s
  let s := s.movesAbort fun m => m.die == d
  let ms : List Migration := s.tiers.migs.filter fun m => s.migOnDie d m
  let s := ms.foldl (fun s m => s.migFailed m stAborted) (s.putMigs (s.tiers.migs.filter fun m => !s.migOnDie d m))
  if 4 ≤ (s.recentFaults 0).length + (s.recentFaults 1).length then s.fatal 6 else s

/-- NET_PACKET (R149): the header of a packet that die `d` receives at a router, over the crossbar or network, or over the seam. -/
def execNetPacket (d : Fin 2) (col row : Fin 6) (seam : Bool) (h : HeaderCheck) (s : State) : Host.Outcome State Fault Refusal :=
  let p := if seam then pgSeam else pgNet d
  match h with
  | .clean => .next s
  | .corrected => .next ((s.bump p (if seam then F.seam.SEAM_HDR_CORR_COUNT else F.net.NET_HDR_CORR_COUNT) 1).event p 8)
  | .failed => .next (((s.bump p (if seam then F.seam.SEAM_HDR_FAIL_COUNT else F.net.NET_HDR_FAIL_COUNT) 1).event p 9).dieFault d col row)

/-- DIE_FAULT_CLEAR (R457): every transaction outstanding on the die has ended; the resets of its blocks are complete. -/
def execDieFaultClear (d : Fin 2) (s : State) : Host.Outcome State Fault Refusal :=
  if !s.fon (pgCcr d) F.ccr.FAULT_STAT_DIE_FAULT then .next s else
  let ps := pgCol d :: (List.range 128).map fun t => tilPage (128 * d + t)
  let s := ps.foldl (fun s p => if s.resetting p then s.resetEnds p else s) s
  .next (s.fset (pgCcr d) F.ccr.FAULT_STAT_DIE_FAULT false)

/-! ### The fatal causes (R426, R458, R470, R476) -/

/-- PG_FALL (R470): a power-good input falls while no power state changes and the rails are up. -/
def execPgFall (s : State) : Host.Outcome State Fault Refusal :=
  if s.boot.held ∨ s.pwrState = 1 ∨ s.pwrState = 4 ∨ s.fget pgElog F.elog.BOOT_PROGRESS_STAGE < 3 then .next s else .next (s.fatal 4)

/-- SEAM_CHANNEL_DOWN (R458): a seam channel leaves CH_UP. -/
def execSeamChannelDown (c : Fin 8) (s : State) : Host.Outcome State Fault Refusal :=
  let v := s.fget pgSeam F.seam.SEAM_STAT_CH_UP
  if s.fget pgElog F.elog.BOOT_PROGRESS_STAGE < 3 ∨ !bitAt v c then .next s
  else .next ((s.fput pgSeam F.seam.SEAM_STAT_CH_UP (v - 2 ^ c.val)).fatal 5)

/-- REFCLK_STOP (R476): treated as REGULATOR. -/
def execRefclkStop (s : State) : Host.Outcome State Fault Refusal := if s.boot.held then .next s else .next (s.fatal 4)

/-- OVER_TEMP (R426, R474): a comparator drives THERM_SHDN_N, independently of firmware. -/
def execOverTemp (s : State) : Host.Outcome State Fault Refusal :=
  let s := s.drive .thermShdnN true
  if s.boot.held then .next s else .next (s.fatal 7)

/-! ### Watchdogs (R459) -/

/-- WD_KICK (R459, R468): the bits written kick the cores of a die's pair. -/
def execWdKick (r : Requester) (d : Fin 2) (cores : BitVec 2) (s : State) : Host.Outcome State Fault Refusal :=
  .next (s.hubAdmit r (pgCcr d) 0x48 fun s =>
    let w := s.fget (pgCcr d) F.ccr.CORE_STAT_WD_WARNED
    s.fput (pgCcr d) F.ccr.CORE_STAT_WD_WARNED (w &&& (3 - cores.toNat)))

/-- CORE_WATCHDOG_EXPIRY (R459): a warning, and on the second expiry a fatal fault. -/
def execCoreWatchdogExpiry (c : Fin 4) (s : State) : Host.Outcome State Fault Refusal :=
  let p := pgCcr (c / 2)
  let k := c.val % 2
  if !bitAt (s.fget p F.ccr.CORE_STAT_RUNNING) k then .next s else
  let w := s.fget p F.ccr.CORE_STAT_WD_WARNED
  let s := s.bump p F.ccr.WD_EXPIRIES_COUNT 1
  if bitAt w k then .next (s.fatal 1)
  else .next (((s.fput p F.ccr.CORE_STAT_WD_WARNED (w + 2 ^ k)).event p 10).logFrom p (c / 2) 0 lcWatchdog 0 c.val)

/-- PWR_WATCHDOG_EXPIRY (R459): 1 ms without a tick of the cap loop, once PWR has been released. -/
def execPwrWatchdogExpiry (s : State) : Host.Outcome State Fault Refusal :=
  if s.boot.held ∨ s.fget pgElog F.elog.BOOT_PROGRESS_STAGE < 2 then .next s else .next (s.fatal 2)

/-- ONYX_WATCHDOG_EXPIRY (R449, R459): in stage ONYX it is that stage's timeout. -/
def execOnyxWatchdogExpiry (s : State) : Host.Outcome State Fault Refusal :=
  if s.boot.held ∨ s.stageNow = 1 then .next s
  else if s.stageNow = 2 then .next (s.bootFails 2 stTimeout)
  else .next (s.fatal 3)

/-! ### The power-fail warning (R464, R475) -/

/-- POWER_FAIL_WARNING (R464): every group at level 0; the Attic writes one POWER_FAIL entry and starts no other program. -/
def execPowerFailWarning (s : State) : Host.Outcome State Fault Refusal :=
  if s.log.pwrFail then .next s
  else .next { ({ s with pwr.zero := true }.moveGroups).logEvent pgPwr lcPowerFail with log.pwrFail := true }

/-- POWER_FAIL_RELEASE (R475): service goes on; levels are chosen again, and programs start again. -/
def execPowerFailRelease (s : State) : Host.Outcome State Fault Refusal :=
  if !s.log.pwrFail then .next s else
  let s := { s with log.pwrFail := false, pwr.zero := s.fatalNow }.powerEval
  match s.log.prog, s.log.wait with
  | none, e :: rest => .next ({ s with log.wait := rest }.logStart e)
  | _, _ => .next s

end Sys2Proof.Machine
end

