-- ==== Sys2Proof/Machine/Frames.lean ====
section
/-! DEFINITION. What a fabric port does with a frame it receives: the table of R310, MACsec's checks (R327) and control frames (R322). -/

namespace Sys2Proof.Machine

/-! ### Control frames (R322) -/

/-- The fields of a control frame's payload, by subtype (R323, R324, R329, R432); bits outside them are reserved. A subtype of 0 has no
payload of the spec's. -/
def ctlFields : Nat → List (Nat × Nat × Nat)
  | 1 => [(0, 0, 16), (0, 16, 3)]
  | 2 | 3 | 4 => [(0, 0, 64), (8, 0, 32), (0xC, 0, 4)]
  | 5 | 6 => [(0, 0, 64), (8, 0, 3)]
  | 7 => [(0, 0, 64), (8, 0, 3), (8, 8, 8)]
  | 8 => [(0, 0, 64), (8, 0, 5), (8, 8, 7), (8, 16, 4), (0xC, 0, 32), (0x10, 0, 32), (0x14, 0, 32)]
  | _ => [(0, 0, 64), (8, 0, 64), (0x10, 0, 64), (0x18, 0, 32)]

/-- A structure after its check, none where it cannot be put right. -/
def checked (n v : Nat) : Option Nat :=
  match checkStruct n v with
  | .clean d | .corrected d => some d
  | .failed => none

/-- A control frame's header and payload; none where it is to be counted in CTL_BAD. -/
def ctlParse (f : Frame) : Option (Nat × Nat) :=
  if f.data.length < 48 then none else
  match checked 16 (leNat (f.data.take 16)), checked 32 (leNat (slice f.data 16 32)) with
  | some h, some p =>
    if reservedSet 16 h [(0, 0, 4), (0, 8, 8), (4, 0, 32), (8, 0, 32), (0xC, 0, 8), (0xC, 8, 3), (0xC, 16, 16)]
      || reservedSet 32 p ((0x1C, 0, 9) :: ctlFields (fieldAt h 0 8 8)) || fieldAt h 0 0 4 != 1 || 9 ≤ fieldAt h 0 8 8 then none
    else some (h, p)
  | _, _ => none

/-- SENDER of a control header. -/
def ctlSender (h : Nat) : Nat := fieldAt h 8 0 32 + 2 ^ 32 * fieldAt h 0xC 16 16

/-- The heartbeat in a payload (R329). -/
def beatOf (p : Nat) : Heartbeat :=
  ⟨fieldAt p 0 0 64, fieldAt p 8 0 32, Fin.ofNat 4 (fieldAt p 0xC 0 2), fieldAt p 0xC 2 1 == 1, fieldAt p 0xC 3 1 == 1⟩

/-- A valid control frame at the twin logic, the shedding logic or PWR, or in the exception ring (R310, R322). -/
def State.ctlTake (s : State) (n h p : Nat) (f : Frame) (secure : Bool) (limit wire : Nat) : State :=
  let sender := ctlSender h
  match fieldAt h 0 8 8 with
  | 0 => s.toRing n f false true secure 3 wire limit
  | 1 => s.hello n (fieldAt p 0 0 16)
  | 2 => s.heartbeat n sender (beatOf p)
  | 3 => s.probed n sender
  | 4 => s.probeReplied sender
  | 5 => s.shedRequested n sender (fieldAt p 0 0 64) (fieldAt p 8 0 3)
  | 6 => s.shedAcked n
  | 7 => s.shedRefused n
  | _ => s.powerHint sender (fieldAt p 8 0 5) (if fieldAt p 8 14 1 = 1 then some (fieldAt p 8 8 6) else none)

/-! ### MACsec (R327) -/

/-- The checks of a protected frame: the counter it is counted in, or none where it passes. -/
def State.msCheck (s : State) (n : Nat) (p : Secured) : Option Fld :=
  if p.sci ≠ s.fget (pgMs n) F.ms.MS_RX_SCI_SCI ∨ !s.fon (pgMs n) (F.ms.MS_SA_RX_VALID p.an) then some F.ms.MS_IN_NO_SA_COUNT
  else if p.pn + s.fget (pgMs n) F.ms.MS_REPLAY_WINDOW ≤ Store.get 0 s.net.rxPn (4 * n + p.an) then some F.ms.MS_IN_LATE_COUNT
  else if !p.icvOk then some F.ms.MS_IN_NOT_VALID_COUNT
  else none

/-- A protected frame accepted: counted, the highest packet number received kept. -/
def State.msAccept (s : State) (n : Nat) (p : Secured) : State :=
  let k := 4 * n + p.an
  { s with net.rxPn := Store.set 0 s.net.rxPn k (max p.pn (Store.get 0 s.net.rxPn k)) }.bump (pgMs n) F.ms.MS_IN_OK_COUNT 1

/-- A protected frame refused: counted; a wrong ICV raises event 8. -/
def State.msRefuse (s : State) (n : Nat) (c : Fld) (p : Secured) : State :=
  let s := s.bump (pgMs n) c 1
  if c = F.ms.MS_IN_NOT_VALID_COUNT ∧ !p.icvOk then s.event (pgMs n) 8 else s

/-! ### The table of R310 -/

/-- MAX_FRAME_RX (R309). -/
def State.maxFrame (s : State) (n : Nat) : Nat := s.fget (pgEth n) F.eth.PORT_CFG_MAX_PAYLOAD + 26 + if s.msOn n then 32 else 0

/-- The port takes frames for an address (R310). -/
def State.forPort (s : State) (n dst : Nat) : Bool :=
  dst == s.macBase + n || dst == 0xFFFFFFFFFFFF || dst == lldpMac || dst == 0x011B19000000
  || (List.range 4).any fun k => s.fon (pgEth n) (F.eth.MCAST_VALID k) && s.fget (pgEth n) (F.eth.MCAST_ADDR k) == dst

/-- A frame of another peer than the twin on a twin port (R329). -/
def State.foreignOnTwin (s : State) (n src : Nat) : Bool :=
  s.twinPort n && !(s.twinMac ≤ src && src < s.twinMac + 8)

/-- A frame delivered is counted with its bytes on the wire. -/
def State.countRx (s : State) (n wire : Nat) : State :=
  (s.bump (pgEth n) F.eth.RX_FRAMES_COUNT 1).bump (pgEth n) F.eth.RX_BYTES_COUNT wire

/-- PTP over Ethernet or UDP (R321, R333). -/
def isPtp (f : Frame) : Bool :=
  f.ety == 0x88F7 || match udpOf f with
    | some g => g.port == 319 || g.port == 320
    | none => false

/-- REASON of a frame that no engine takes: EAPOL, PTP, else unclaimed (R333). -/
def ringReason (f : Frame) : Nat := if f.ety = 0x888E then 4 else if isPtp f then 5 else 1

/-- Rules 8 to 11: a frame that has passed every check goes to the engine that claims it, else to the exception ring. -/
def State.deliver (s : State) (n : Nat) (f : Frame) (secure : Bool) (wire : Nat) : State :=
  if f.ety = s.fget ⟨.col, n / 4⟩ F.col.COL_CFG_ETHERTYPE then
    State.passFences 1 16 (State.passFences 0 16 ((s.countRx n wire).colFrame n f))
  else if f.ety = s.fget (pgEth n) F.eth.CTL_ETHERTYPE_TYPE then
    match ctlParse f with
    | none => s.bump (pgEth n) F.eth.CTL_BAD_COUNT 1
    | some (h, p) => (s.countRx n wire).ctlTake n h p f secure (s.maxFrame n) wire
  else if (s.camernFrame f).isSome then (s.countRx n wire).cmrnFrame n f
  else (s.countRx n wire).toRing n f false true secure (ringReason f) wire (s.maxFrame n)

/-- Rules 6 and 7: MACsec's checks (R327, R321). -/
def State.unprotect (s : State) (n : Nat) (a : Arrival) (wire : Nat) : State :=
  if !s.msOn n then s.deliver n a.wire false wire else
  match a.prot with
  | none =>
    if a.wire.ety ≠ 0x888E ∧ !s.ptpClear n a.wire then s.bump (pgMs n) F.ms.MS_IN_UNTAGGED_COUNT 1
    else s.deliver n a.wire false wire
  | some p =>
    match s.msCheck n p with
    | some c => s.msRefuse n c p
    | none => (s.msAccept n p).deliver n p.clear true wire

/-- A frame received by a fabric port, handled by the first rule of R310 that applies. -/
def State.receive (s : State) (n : Nat) (a : Arrival) : State :=
  let wire := frameLen a.wire
  if s.maxFrame n < wire then
    ((s.bump (pgEth n) F.eth.RX_TRUNC_COUNT 1).event (pgEth n) 10).toRing n a.wire true a.fcsOk false 2 wire (s.maxFrame n)
  else if !a.fcsOk then s.bump (pgEth n) F.eth.RX_FCS_ERR_COUNT 1
  else if wire < 64 then s.bump (pgEth n) F.eth.RX_RUNT_COUNT 1
  else if !s.forPort n a.wire.dst || s.foreignOnTwin n a.wire.src then s.bump (pgEth n) F.eth.RX_FILTERED_COUNT 1
  else if a.wire.ety = 0x8808 then s.bump (pgEth n) F.eth.RX_PAUSE_COUNT 1
  else s.unprotect n a wire

/-- A frame received by the management port (R334, R340): it has no engines, so a good frame goes to its ring. -/
def State.receiveMgt (s : State) (a : Arrival) : State :=
  let wire := frameLen a.wire
  if !a.fcsOk then s.bump pgMgt F.mgt.RX_FCS_ERR_COUNT 1
  else if wire < 64 then s
  else (s.bump pgMgt F.mgt.RX_FRAMES_COUNT 1).toRing 8 a.wire (decide (1522 < wire)) true false
    (if 1522 < wire then 2 else ringReason a.wire) wire 1522

/-- FRAME_RECEIVE (R310): a frame arrives at port `n` (8: the management port). A port that is disabled or down discards it (R43). -/
def execFrameReceive (n : Fin 9) (a : Arrival) (s : State) : Host.Outcome State Fault Refusal :=
  if !s.enabled (ringPage n) || (n.val < 8 && !s.linkUp n) then .next s
  else if n.val = 8 then .next (s.receiveMgt a)
  else .next (s.receive n a)

end Sys2Proof.Machine
end

