-- ==== Sys2Proof/Machine/Training.lean ====
section
/-! DEFINITION. What Oneisor does with a shard's two words (R219, R222, R224, R225): the gradient stamp, the epoch flip, the classes after
an interrupted step. -/

namespace Sys2Proof.Machine

/-! ### The words (R219) -/

/-- The epoch word of a shard object at an address, and its gradient stamp (R217). -/
def epochAt (shard : Nat) : Nat := shard + 0x40
def stampAt (shard : Nat) : Nat := shard + 0x48

namespace EW
def step (w : Nat) : Nat := fieldAt w 0 0 32
/-- ACTIVE of an epoch word, VALID of a stamp. -/
def flag (w : Nat) : Nat := fieldAt w 4 7 1
def layout (w : Nat) : Nat := fieldAt w 4 8 16
end EW

/-- An epoch word or gradient stamp with its CHECK. -/
def shardWord (step flag layout : Nat) : Nat := withCheck 8 (placeAt 0 0 32 step + placeAt 4 7 1 flag + placeAt 4 8 16 layout)

/-- The layout epoch of communicator `k` of die `d`: its CUR_EPOCH (R250). -/
def State.layoutEpoch (s : State) (d k : Nat) : Nat := s.fget (pgComm d) (F.comm.CM_EPOCH_CUR_EPOCH k)

/-- A word of a shard read; none where it cannot be read or its CHECK finds what it cannot put right. -/
def State.shardRead (s : State) (a : Nat) : State × Option Nat :=
  match s.devRead .firmware a 8 with
  | (s, .ok bs) => (s, checked 8 (leNat bs))
  | (s, .error _) => (s, none)

/-- Oneisor logs a word it cannot read (R225); the entry is of Oneisor's own codes, which the spec leaves to it (log 47). -/
def State.shardLog (s : State) : State :=
  let (v, s) := s.draw
  s.logEvent pgTir (0x8000 + v % 2 ^ 15) (v / 2 ^ 15 % 2 ^ 8) (v / 2 ^ 23 % 2 ^ 32)

/-- A word of a shard written in one 8-byte write, then the tally advanced by Oneisor. -/
def State.shardWrite (s : State) (a w d t : Nat) : State :=
  match s.devWrite .firmware a (leBytes 8 w) with
  | (s, .error _) => s
  | (s, .ok _) => let (src, s) := s.oneisorSrc; s.advanceTally d t 1 src

/-! ### The rows -/

/-- GRADIENT_STAMP (R222): the reduce-scatter of step `step` into the shard at `shard` has completed on communicator `k` of die `d`; the
stamp tally is (`td`, `t`). -/
def execGradientStamp (d : Fin 2) (k : Fin 16) (shard : BitVec 52) (step : BitVec 32) (td : Fin 2) (t : Fin 4096) (s : State) :
    Host.Outcome State Fault Refusal :=
  .next (s.shardWrite (stampAt shard.toNat) (shardWord step.toNat 1 (s.layoutEpoch d k)) td t)

/-- EPOCH_FLIP (R222): on COMMIT of step `step`, once each tally of `waits` ((die, tally), count) has reached its count, the inactive slot
of the shard becomes the active one; the flip tally is (`td`, `t`). -/
def execEpochFlip (d : Fin 2) (k : Fin 16) (shard : BitVec 52) (step : BitVec 32) (waits : List ((Fin 2 × Fin 4096) × BitVec 32))
    (td : Fin 2) (t : Fin 4096) (s : State) : Host.Outcome State Fault Refusal :=
  if !waits.all (fun w => w.2.toNat ≤ s.tally w.1.1 w.1.2) then .next s
  else match s.shardRead (epochAt shard.toNat) with
    | (s, none) => .next s.shardLog
    | (s, some w) => .next (s.shardWrite (epochAt shard.toNat) (shardWord step.toNat (1 - EW.flag w) (s.layoutEpoch d k)) td t)

/-- The classes of R224, from the epoch word, the stamp, the communicator's layout epoch and the step that was interrupted. -/
def classify (ew gs layout last : Nat) : ShardClass :=
  if EW.layout ew ≠ layout then .fenced
  else if EW.step ew = last then .regather
  else if EW.step ew + 1 = last then
    if EW.flag gs = 1 ∧ EW.step gs = last ∧ EW.layout gs = EW.layout ew then .commitPending else .rerunStep
  else .lost

/-- CLASSIFY (R224): before the next run, after the interrupted step `last`. -/
def execClassify (d : Fin 2) (k : Fin 16) (shard : BitVec 52) (last : BitVec 32) (s : State) : Host.Outcome State Fault Refusal :=
  let (s, ew) := s.shardRead (epochAt shard.toNat)
  let (s, gs) := s.shardRead (stampAt shard.toNat)
  match ew, gs with
  | some ew, some gs =>
    .next { s with out := s.out ++ [Out.shard shard.toNat (classify ew gs (s.layoutEpoch d k) last.toNat)] }
  | _, _ => .next { s.shardLog with out := s.shardLog.out ++ [Out.shard shard.toNat .lost] }

end Sys2Proof.Machine
end

