-- ==== Sys2Proof/Machine/Hub.lean ====
section
/-! DEFINITION. The register hub (R27 to R46): which fields an access meets, what a read delivers, how a write is judged and applied,
split 64-bit accesses, isolated pages, and the rows that every page has. -/

namespace Sys2Proof.Machine

/-! ### The fields an access meets -/

/-- The common page words of R34 to R39. -/
def commonFields : List FieldDef :=
  [⟨fun _ => ⟨0x000, 0, 32, 0⟩, 0, 1, .ro, false, false, false⟩,
   ⟨fun _ => ⟨0x004, 0, 32, 0⟩, 0, 1, .ro, false, false, false⟩,
   ⟨fun _ => F.com.ENABLE, 0, 1, .rw, false, false, false⟩,
   ⟨fun _ => ⟨0x008, 1, 1, 0⟩, 0, 1, .wo, false, false, false⟩,
   ⟨fun _ => F.com.VERSION_SELECT, 0, 1, .rw, true, true, false⟩,
   ⟨fun _ => F.com.ENABLED, 0, 1, .ro, false, false, false⟩,
   ⟨fun _ => F.com.RESET_BUSY, 0, 1, .ro, false, false, false⟩,
   ⟨fun _ => F.com.ISOLATED, 0, 1, .ro, false, false, false⟩,
   ⟨fun _ => F.com.EVT_STAT, 0, 1, .rw1c, false, false, false⟩,
   ⟨fun _ => F.com.EVT_MASK, 0, 1, .rw, false, false, false⟩,
   ⟨fun _ => ⟨0x018, 0, 32, 0⟩, 0, 1, .wo, false, false, false⟩,
   ⟨fun _ => F.com.CAUSE_FIRST_BIT, 0, 1, .ro, false, false, false⟩,
   ⟨fun _ => F.com.CAUSE_FORCED, 0, 1, .ro, false, false, false⟩,
   ⟨fun _ => F.com.CAUSE_VALID, 0, 1, .ro, false, false, false⟩,
   ⟨fun _ => F.com.CAUSE_STATUS, 0, 1, .ro, false, false, false⟩,
   ⟨fun _ => F.com.CAUSE_DETAIL, 0, 1, .ro, false, false, false⟩,
   ⟨F.com.EVT_CNT, 4, 8, .rw, false, true, false⟩]

/-- The instance-count words of the host-control page (R32). -/
def instanceCounts : FieldDef := ⟨fun k => ⟨0x100 + 4 * k, 0, 32, 0⟩, 4, 42, .ro, false, false, false⟩

/-- Every field of a page. -/
def allFields (t : PageType) : List FieldDef :=
  commonFields ++ pageFields t ++ if t = .hst then [instanceCounts] else []

/-- The fields of one row of a map that bytes `[off, off + n)` of the page meet, with their row. -/
def FieldDef.met (d : FieldDef) (off n : Nat) : List (FieldDef × Fld) :=
  let k0 := if d.stride = 0 then 0 else (off - 8 - (d.fld 0).off) / d.stride
  ((List.range (if d.stride = 0 then 1 else 17)).map (k0 + ·)).filterMap fun k =>
    let f := d.fld k
    if k < d.count ∧ 8 * f.off + f.lo < 8 * (off + n) ∧ 8 * off < 8 * f.off + f.lo + f.width then some (d, f) else none

/-- The fields an access meets. -/
def fieldsMet (t : PageType) (off n : Nat) : List (FieldDef × Fld) := (allFields t).flatMap fun d => d.met off n

/-- A number moved from field position `from_` to position `to_`. -/
def moveBits (x from_ to_ : Nat) : Nat := (x <<< (to_ - from_)) >>> (from_ - to_)

/-- The bits of an access that some field covers; the others are RSV (R33, R42). -/
def coverOf (hits : List (FieldDef × Fld)) (off n : Nat) : Nat :=
  hits.foldl (fun m h => m ||| moveBits ((2 ^ h.2.width - 1) <<< h.2.lo) (8 * off) (8 * h.2.off)) 0 % 2 ^ (8 * n)

/-- The register at an offset is 64 bits wide: (its low half starts there). -/
def wideLow (t : PageType) (off : Nat) : Bool := (fieldsMet t off 4).any fun h => h.1.wide && (h.2.off == off)

/-! ### Where a field is held -/

/-- The page that holds an offset's fields: every ETH page maps the one set of twin registers (R337). -/
def homePage (p : Page) (off : Nat) : Page := if p.ty = .eth ∧ 0x200 ≤ off ∧ off < 0x240 then pgTwin else p

/-- A field as it is held: the Q_ registers of the XPT act on the queue the requester has selected (R371). -/
def State.heldFld (s : State) (r : Requester) (p : Page) (f : Fld) : Fld :=
  if p.ty = .xpt ∧ 0x4C ≤ f.off ∧ f.off < 0x6C then qf (Store.get 0 s.hub.qsel r.key) f else f

/-- Capability bits of a page (R102, R143, R144, R444). -/
def blockCap : PageType → Nat
  | .til => 0x0F1F
  | .vec => 0x4480
  | .ops => 0x000D
  | _ => 0

/-- ID of a page (R34, R32). -/
def idWord (p : Page) : Nat :=
  placeAt 0 20 12 p.ty.code + placeAt 0 16 4 1 + placeAt 0 8 8 (Config.boot p.ty.code 0 8) + placeAt 0 0 8 p.inst

/-- The value of a field of an access, as a read finds it. -/
def State.fieldValue (s : State) (r : Requester) (p : Page) (f : Fld) : Nat :=
  if f.off = 0 then idWord p
  else if f.off = 4 then 0x0002 + 2 ^ 16 * blockCap p.ty
  else match p.ty with
    | .hst => if 0x100 ≤ f.off ∧ f.off < 0x1A8 then
          (globalPages ++ [PageType.jq, .agt, .late, .tal, .ccr, .dp, .col, .comm, .mxe, .vec, .vst, .net, .seq, .til]).foldl
            (fun n t => if t.code = (f.off - 0x100) / 4 then t.count else n) 0
        else s.fget p f
    | .tim => if f = F.tim.TIME_TIME then s.time.toNat else s.fget p f
    | .jq => if f = F.jq.QUEUE_INDEX_INDEX then p.inst else s.fget p f
    | .eth => if f = F.eth.PORT_MAC_MAC then s.macBase + p.inst else s.fget (homePage p f.off) f
    | .xpt => if f = F.xpt.Q_SEL_QUEUE then Store.get 0 s.hub.qsel r.key else s.fget p (s.heldFld r p f)
    | _ => s.fget p f

/-! ### Reads -/

/-- What a read of `n` bytes of a page finds (R14, R28, R40, R41). -/
def State.pageRead (s : State) (r : Requester) (p : Page) (off n : Nat) : Nat :=
  if s.isolated p && off != 0 && off != 4 && off != 0xC then 0
  else if 0xE00 ≤ off then 0
  else (fieldsMet p.ty off n).foldl (fun v h =>
    if h.1.access = .wo then v
    else v + moveBits (s.fieldValue r p h.2 <<< h.2.lo) (8 * off) (8 * h.2.off) % 2 ^ (8 * n)) 0

/-- What a read of the BAR finds: a page, the MSI-X structures (R27), zero elsewhere. -/
def State.barRead (s : State) (r : Requester) (a n : Nat) : Nat :=
  if 0x3000000 ≤ a ∧ a < 0x3008000 then
    let k := (a - 0x3000000) / 4
    s.msixWord k + if n = 8 then 2 ^ 32 * s.msixWord (k + 1) else 0
  else if 0x3008000 ≤ a ∧ a < 0x3008100 then
    (List.range (8 * n)).foldl (fun v i => if Store.get false s.hub.pba (8 * (a - 0x3008000) + i) then v + 2 ^ i else v) 0
  else match pageAt a with
    | some p => s.pageRead r p (a % 0x1000) n
    | none => 0

/-- Bytes delivered to the requester. -/
def State.deliverRead (s : State) (a n v : Nat) : State := { s with out := s.out ++ [Out.read a (leBytes n v)] }

/-! ### Rows that take a register -/

/-- The word written has a bit that no field covers (R42). -/
def setsRsv (t : PageType) (o v : Nat) : Bool := (v &&& (2 ^ 32 - 1 - coverOf (fieldsMet t o 4) o 4)) != 0

/-- A word that a row of its own takes: the registers of those rows, by page type; a word with an RSV bit set is REGISTER_WRITE's to
discard, but for CTRL and the event registers, whose rows carry every bit (R38, R42). -/
def ownRow (p : Page) (o v : Nat) : Bool :=
  o == 0x008 || o == 0x010 || o == 0x018 || (!setsRsv p.ty o v && match p.ty with
    | .hst => o == 0x58
    | .lnk => o == 0x44 && v != 0
    | .jq => o == 0x58 || o == 0x64
    | .mbx => o == 0x40 && 1 ≤ v % 16 && v % 16 ≤ 8
    | .ks | .comm => o == 0x40 && (v >>> (if p.ty = .comm then 4 else 0)) % 4 != 0 && (v >>> (if p.ty = .comm then 4 else 0)) % 4 != 3
    | .pwr => o == 0x48 && v % 4 != 0
    | .tim | .servo => o == 0x48
    | .atc => o == 0x40 && 1 ≤ v % 8 && v % 8 ≤ 4
    | .elog => o == 0x6C || o == 0xA4
    | .mq => o == 0x4C || o == 0x68 || o == 0x7C || o == 0x98
    | .mgt => o == 0x50 || o == 0xA4
    | .eth => o == 0xA4 || (o == 0x54 && v % 4 != 3) || (o == 0x204 && v % 4 != 0 && v % 4 != 3) || o == 0x208
    | .gl => o == 0x44 && v != 0
    | .xpt => o == 0x44 || o == 0x64 || (o == 0x4C && bitAt v 1)
    | .ctx => o == 0x48 && 1 ≤ v / 2 ^ 20 % 16 && v / 2 ^ 20 % 16 ≤ 6
    | .win => o == 0x40 && 1 ≤ v / 2 ^ 16 % 8 && v / 2 ^ 16 % 8 ≤ 3
    | .agt => p.inst == 0 && o == 0x40 && v != 0
    | .tal => o == 0x40
    | .ccr => (o == 0x48 && v != 0) || (p.inst == 0 && o == 0x58 && v % 4 != 0)
    | .dp => 0x400 ≤ o && o % 32 == 4 && bitAt v 0
    | .mxe | .vec => (o == 0x48 || o == 0x58) && bitAt v 31
    | .col => o == 0x58 && bitAt v 31
    | _ => false)

/-- A word that a command register discards because it names no command (R39: counted). -/
def noCommand (p : Page) (o v : Nat) : Bool :=
  !ownRow p o v && match p.ty with
    | .mbx | .ks | .comm | .atc | .win => o == 0x40
    | .pwr | .ctx => o == 0x48
    | .eth => o == 0x204
    | .ccr => o == 0x58
    | _ => false

/-! ### How a write is judged (R42, and the ranges the register maps give) -/

/-- LOG2 of a ring of 2^4 to 2^12 entries. -/
def log2Ok (v : Nat) : Bool := 4 ≤ v && v ≤ 12

/-- The host ranges of two apertures meet. -/
def State.aperturesMeet (s : State) (a b : Nat) : Bool :=
  let lo (k : Nat) : Nat := s.fget pgTir (F.tir.AP_BASE_HOST k)
  let hi (k : Nat) : Nat := lo k + 4096 * s.fget pgTir (F.tir.AP_PAGES_PAGES k)
  a != b && s.fon pgTir (F.tir.AP_CFG_VALID a) && s.fon pgTir (F.tir.AP_CFG_VALID b) && lo a < hi b && lo b < hi a

/-- A host range lies in aperture `k`, in whole or in part. -/
def State.apertureMeets (s : State) (k lo len : Nat) : Bool :=
  let b := s.fget pgTir (F.tir.AP_BASE_HOST k)
  s.fon pgTir (F.tir.AP_CFG_VALID k) && lo < b + 4096 * s.fget pgTir (F.tir.AP_PAGES_PAGES k) && b < lo + len

/-- Aperture `k` holds an object, or a running MOVE or fill uses it (R282). -/
def State.apertureUsed (s : State) (k : Nat) : Bool :=
  let uses (a len : Nat) : Bool := match winOf a with
    | .boxroom h => s.apertureMeets k h len
    | _ => false
  s.tiers.objects.any (fun x => match x.2 with
    | some o => o.tier == 4 && uses o.place (sealedLen o.size o.protect)
    | none => false)
  || s.tiers.moves.any (fun m => uses (moveSrc m.desc) (moveLen m.desc) || uses (moveDst m.desc) (moveLen m.desc))
  || s.agate.fills.any fun f => uses f.src 1

/-- Two VALID regions of a controller meet. -/
def State.regionsMeet (s : State) (p : Page) (i j : Nat) : Bool :=
  i != j && s.fon p (F.rgn.RG_CFG_VALID i) && s.fon p (F.rgn.RG_CFG_VALID j)
  && s.fget p (F.rgn.RG_SPAN_BASE i) < s.fget p (F.rgn.RG_SPAN_LIMIT j) && s.fget p (F.rgn.RG_SPAN_BASE j) < s.fget p (F.rgn.RG_SPAN_LIMIT i)

/-- A communicator of the die that is not FREE names a peer (R234). -/
def State.peerNamed (s : State) (d p : Nat) : Bool :=
  (List.range 16).any fun k => s.commState d k != 0 && bitAt (s.fget (pgComm d) (F.comm.CM_MASK_MASK k)) p

/-- What the register maps say against a write that would turn state `s` into `s'`: each condition with its reasons, 1 RSV_WRITE, 2
VERSION_REJECT, 4 LOCKED_WRITE, 8 a discard that sets no event. -/
def pageRules (s s' : State) (r : Requester) (p : Page) (off n v : Nat) : List (Bool × Nat) :=
  let met (lo hi : Nat) : Bool := off < hi && lo < off + n
  let now (f : Fld) : Nat := s'.fget p f
  let changed (f : Fld) : Bool := s'.fget p f != s.fget p f
  let i16 := (off - 0x400) / 16
  match p.ty with
  | .hst => [(met 0x50 0x54 && !log2Ok (now F.hst.EQ_CFG_LOG2), 8),
      (met 0x60 0x68 && (bitAt (now F.hst.EVT_ROUTE_ROUTE) 0 || 2 ^ 42 ≤ now F.hst.EVT_ROUTE_ROUTE), 1)]
  | .jq => [(met 0x40 0x44 && (!log2Ok (now F.jq.JQ_CFG_SQ_LOG2) || !log2Ok (now F.jq.JQ_CFG_CQ_LOG2)), 8)]
  | .mbx => [(s.fon p F.mbx.MBX_RESULT_BUSY && (changed F.mbx.MBX_SRC_ADDR || changed F.mbx.MBX_LEN_LENGTH), 4)]
  | .ks => [((s.ksState p.inst == 1 || (s.ksHeld p.inst).isSome) && changed F.ks.KS_SRC_ADDR, 4)]
  | .pwr => [(met 0x40 0x44 && (now F.pwr.PWR_CAP_CAP_W < 250 || 850 < now F.pwr.PWR_CAP_CAP_W), 2),
      (met 0x50 0x54 && (now F.pwr.TJ_CFG_TJ_LIMIT < 70 || 105 < now F.pwr.TJ_CFG_TJ_LIMIT), 2)]
  | .ops => [((List.range n).any (fun i => 0x401 ≤ off + i && off + i < 0x500 && 12 < now (F.ops.PHASE_PREF_LEVEL (off + i - 0x401))), 1)]
  | .thr => [(met 0x808 0x80C && (now F.thr.THR_RING_SIZE_LOG2 < 6 || 16 < now F.thr.THR_RING_SIZE_LOG2), 2)]
  | .tim => [(met 0x50 0x54 && s.fget pgServo F.servo.SERVO_CTRL_MODE != 0, 8)]
  | .servo => [(met 0x40 0x44 && now F.servo.SERVO_CTRL_MODE == 3, 1),
      (met 0x60 0x64 && (now F.servo.PPS_OUT_CFG_WIDTH_MS == 0 || 200 < now F.servo.PPS_OUT_CFG_WIDTH_MS), 1)]
  | .atc => [(s.fon p F.atc.ATC_RESULT_BUSY && (changed F.atc.ATC_SRC_ADDR || changed F.atc.ATC_SRC_LEN_LENGTH), 4)]
  | .slot => let k := (off - 0x100) / 32
    [(0x100 ≤ off && s.fon p (F.slot.SL_SVC_REPLACING k) && changed (F.slot.SL_CFG_REPL_MODE k), 4)]
  | .tir => [(met 0x400 0x800 && s.apertureUsed i16, 4), (met 0x400 0x800 && now (F.tir.AP_BASE_HOST i16) % 4096 != 0, 1),
      (met 0x400 0x800 && s'.fon p (F.tir.AP_CFG_VALID i16) && now (F.tir.AP_CFG_MODULES i16) == 0, 1),
      (met 0x400 0x800 && (List.range 64).any fun b => s'.aperturesMeet i16 b, 8)]
  | .mq => [((met 0x48 0x4C && !log2Ok (now F.mq.MQ_CFG_LOG2)) || (met 0x60 0x64 && !log2Ok (now F.mq.CQ_CFG_LOG2))
      || (met 0x78 0x7C && !log2Ok (now F.mq.FQ_CFG_LOG2)) || (met 0x90 0x94 && !log2Ok (now F.mq.FCQ_CFG_LOG2)), 2)]
  | .mgt => [((met 0x40 0x44 && now F.mgt.MGT_CFG_SPEED == 3) || (met 0x88 0x8C && !log2Ok (now F.mgt.RXQ_CFG_LOG2))
      || (met 0xA0 0xA4 && !log2Ok (now F.mgt.TXQ_CFG_LOG2)), 8),
      (met 0x40 0x44 && now F.mgt.MGT_CFG_SPEED == 2 && now F.mgt.MGT_CFG_FULL_DUPLEX == 0, 1)]
  | .xpt => let q (f : Fld) : Fld := s.heldFld r p f
    [(s.fon p (q F.xpt.Q_CTRL_ENABLE) && (changed (q F.xpt.Q_CTRL_TENANT) || changed (q F.xpt.Q_CTRL_WQ_LOG2)
        || changed (q F.xpt.Q_CTRL_CQ_LOG2) || changed (q F.xpt.Q_WQ_BASE_ADDR) || changed (q F.xpt.Q_CQ_BASE_ADDR)), 4),
     (met 0x4C 0x50 && (!log2Ok (now (q F.xpt.Q_CTRL_WQ_LOG2)) || !log2Ok (now (q F.xpt.Q_CTRL_CQ_LOG2))), 8)]
  | .rgn => let j := (off - 0x100) / 16
    [(met 0x100 0x500 && s.fget p (F.rgn.RG_USE_OBJECTS j) != 0, 4), (met 0x100 0x500 && 17 < now (F.rgn.RG_CFG_KEY j), 1),
     (met 0x100 0x500 && (List.range 64).any fun i => s'.regionsMeet p j i, 1)]
  | .eth => [(met 0x54 0x58 && now F.eth.SHED_CTRL_TARGET == 3, 8), ((met 0x40 0x44 && (now F.eth.PORT_CFG_WIDTH == 3 || now F.eth.PORT_CFG_MAX_PAYLOAD < 1500
        || 9216 < now F.eth.PORT_CFG_MAX_PAYLOAD))
      || (met 0x88 0x8C && !log2Ok (now F.eth.RXQ_CFG_LOG2)) || (met 0xA0 0xA4 && !log2Ok (now F.eth.TXQ_CFG_LOG2)), 8)]
  | .agt => [(met 0x48 0x50 && !s.agateIdle, 4),
      (p.inst == 1 && (met 0x40 0x44 || met 0x48 0x50 || met 0x58 0x5C || met 0x60 0x68) && v != 0, 1)]
  | .late => [(met 0x50 0x54 && (now F.late.RING_SIZE_LOG2 < 6 || 16 < now F.late.RING_SIZE_LOG2), 2)]
  | .tal => [(0x100 ≤ off && off % 8 == 0 && off < 0x900 && !s.agateIdle, 4)]
  | .ccr => [(met 0x44 0x48 && (now F.ccr.WD_CFG_MS == 0 || 1000 < now F.ccr.WD_CFG_MS), 2),
      (s.fon p F.ccr.SITE_RESULT_BUSY && changed F.ccr.SITE_SRC_ADDR, 4), (p.inst == 1 && met 0x58 0x70 && v != 0, 1)]
  | .dp => let k := (off - 0x400) / 32
    [(0x400 ≤ off && off % 32 == 0 && s.fget p (F.dp.SLOT_STAT_COUNT k) != 0, 4), (0x400 ≤ off && off % 32 == 0 && 256 < now (F.dp.SLOT_CFG_EXPECT k), 1)]
  | .comm => let k := (off - 0x100) / 32
    [(met 0x100 0x300 && (off - 0x100) % 32 < 12 && s.commState p.inst k != 0, 4), (met 0x400 0x800 && s.peerNamed p.inst i16, 4)]
  | _ => []

/-! ### Writes -/

/-- A field takes its bits of a written value. -/
def State.takeBits (s : State) (r : Requester) (p : Page) (off n v : Nat) (f : Fld) : State :=
  let m := moveBits (2 ^ (8 * n) - 1) (8 * f.off + f.lo) (8 * off) % 2 ^ f.width
  let x := moveBits v (8 * f.off + f.lo) (8 * off) &&& m
  let h := s.heldFld r p f
  if p.ty = .xpt ∧ f = F.xpt.Q_SEL_QUEUE then { s with hub.qsel := Store.set 0 s.hub.qsel r.key x }
  else if p.ty = .tim ∧ f = F.tim.FREQ_ADJ_ADJ then s.putAdj (signedOf 32 x)
  else s.fput (homePage p off) h ((s.fget (homePage p off) h &&& (2 ^ f.width - 1 - m)) ||| x)

/-- A written 1 clears bits of an RW1C field. -/
def State.clearBits (s : State) (p : Page) (off n v : Nat) (f : Fld) : State :=
  let m := moveBits (v % 2 ^ (8 * n)) (8 * f.off + f.lo) (8 * off) % 2 ^ f.width
  s.fput p f (s.fget p f &&& (2 ^ f.width - 1 - m))

/-- The fields of an access take a written value. -/
def State.takeWrite (s : State) (r : Requester) (p : Page) (off n v : Nat) (hits : List (FieldDef × Fld)) : State :=
  hits.foldl (fun s h => match h.1.access with
    | .rw => s.takeBits r p off n v h.2
    | .rw1c => s.clearBits p off n v h.2
    | _ => s) s

/-- What follows a write of some registers. -/
def State.afterWrite (s s0 : State) (p : Page) (off n : Nat) : State :=
  let met (lo hi : Nat) : Bool := off < hi && lo < off + n
  let s := if met 0x10 0x14 && s.fget p F.com.EVT_STAT == 0 then s.fset p F.com.CAUSE_VALID false else s
  let s := if met 0x10 0x18 then s.afterLine s0 p else s
  match p.ty with
  | .pwr => if met 0x40 0x44 then s.powerEval else s
  | .ops => if met 0x400 0x500 then s.powerEval else s
  | .mbx => if met 0x68 0x6C then s.showMeas else s
  | .gl => if met 0x40 0x44 then s.showGates p.inst else s
  | _ => s

/-- The reasons for which a write is discarded (R42): 0 where it takes effect. -/
def State.judge (s s' : State) (r : Requester) (p : Page) (off n v : Nat) (hits : List (FieldDef × Fld)) : Nat :=
  let rsv := (v % 2 ^ (8 * n) &&& (2 ^ (8 * n) - 1 - coverOf hits off n)) != 0
  let lock := s.fon p F.com.ENABLED && hits.any fun h => h.1.static && h.1.access == .rw && s'.fget p h.2 != s.fget p h.2
  let rules : List (Bool × Nat) := [(rsv, 1), (lock, 4), (noCommand p off (v % 2 ^ 32) || (n == 8 && noCommand p (off + 4) (v / 2 ^ 32 % 2 ^ 32)), 8)] ++ pageRules s s' r p off n v
  rules.foldl (fun m x => if x.1 then m ||| x.2 else m) 0

/-- A write of `n` bytes to a page that the hub lets through to the block (R42). -/
def State.pageWrite (s : State) (r : Requester) (p : Page) (off n v : Nat) : State :=
  if 0xE00 ≤ off ∧ off < 0xF00 then s.discard p off 0 else
  let hits := fieldsMet p.ty off n
  let s1 := s.takeWrite r p off n v hits
  let why := s.judge s1 r p off n v hits
  if why = 0 then s1.afterWrite s p off n else s.discard p off (why % 8)

/-- A write of the BAR after the requester's holds are dealt with (R28, R40, R45, R438). -/
def State.barWrite (s : State) (r : Requester) (a n v : Nat) : State :=
  if 0x3000000 ≤ a ∧ a < 0x3008000 then
    let s := s.msixWrite ((a - 0x3000000) / 4) v
    if n = 8 then s.msixWrite ((a - 0x3000000) / 4 + 1) (v / 2 ^ 32) else s
  else if 0x3008000 ≤ a ∧ a < 0x3008100 then s
  else match pageAt a with
    | none => s.hostReject
    | some p => s.hubAdmit r p (a % 0x1000) fun s => s.pageWrite r p (a % 0x1000) n v

/-- The offset of an access lies where the model refuses it: the CXL component registers of a link page, and the debug offsets while
the debug state is granted (R391, R41). -/
def State.refuses (s : State) (a : Nat) : Option Refusal :=
  match pageAt a with
  | none => none
  | some p =>
    let o := a % 0x1000
    if p.ty = .lnk ∧ 0x400 ≤ o ∧ o < 0x800 then some (.cxlComponentRegister a)
    else if 0xE00 ≤ o ∧ o < 0xF00 ∧ s.fon pgMbx F.mbx.BOOT_STAT_DEBUG = true then some (.debugRegister a)
    else none

/-- The lower half a requester has written of the register whose upper half is at `a` (R29). -/
def State.heldLow (s : State) (r : Requester) (a : Nat) : Option Nat :=
  match Store.get none s.hub.held r.key with
  | some (b, v) => if b + 4 = a then some v else none
  | none => none

/-- A 32-bit access at the low half of a 64-bit register of a page that is there. -/
def isLowHalf (a : Nat) : Bool :=
  match pageAt a with
  | some p => a % 8 == 0 && wideLow p.ty (a % 0x1000)
  | none => false

/-- UNASSIGNED_ACCESS (R28): an access where no page and no MSI-X structure is. -/
def execUnassignedAccess (r : Requester) (a : BitVec 26) (write : Bool) (s : State) : Host.Outcome State Fault Refusal :=
  let a := a.toNat
  if (pageAt a).isSome || (0x3000000 ≤ a && a < 0x3008100) then .next s
  else if write then .next (s.releaseHolds r).hostReject
  else .next ((s.releaseHolds r).deliverRead a 4 0)

/-- UNSUPPORTED_ACCESS (R29): `n` bytes at `a` that are no aligned 32-bit or 64-bit access; it ends with Unsupported Request. -/
def execUnsupportedAccess (r : Requester) (a : BitVec 26) (n : Nat) (s : State) : Host.Outcome State Fault Refusal :=
  if aligned a.toNat n then .next s else .next (s.releaseHolds r).hostReject

/-- SPLIT_LOW_READ (R29): an aligned read of 4 or 8 bytes; 32 bits of a lower half capture the upper half for the requester's next
read, and any other access releases the capture. -/
def execSplitLowRead (r : Requester) (a : BitVec 26) (wide : Bool) (s : State) : Host.Outcome State Fault Refusal :=
  let a := a.toNat
  let n := if wide then 8 else 4
  match s.refuses a with
  | some x => .refused x
  | none =>
    if !aligned a n then .next s else
    let cap := match Store.get none s.hub.captured r.key with
      | some (b, v) => if !wide ∧ b + 4 = a then some v else none
      | none => none
    let s := s.releaseHolds r
    match cap with
    | some v => .next (s.deliverRead a 4 v)
    | none =>
      let s := s.deliverRead a n (s.barRead r a n)
      if !wide && isLowHalf a then
        .next { s with hub.captured := Store.set none s.hub.captured r.key (some (a, s.barRead r (a + 4) 4)) }
      else .next s

/-- SPLIT_LOW_WRITE (R29): a 32-bit write of the lower half of a 64-bit register is held until the same requester writes the upper
half. -/
def execSplitLowWrite (r : Requester) (a : BitVec 26) (v : BitVec 32) (s : State) : Host.Outcome State Fault Refusal :=
  let a := a.toNat
  match s.refuses a with
  | some x => .refused x
  | none =>
    if !isLowHalf a || s.isolated ((pageAt a).getD pgHst) then .next s
    else
      let s := s.releaseHolds r
      .next { s with hub.held := Store.set none s.hub.held r.key (some (a, v.toNat)) }

/-- ISOLATED_PAGE_ACCESS (R40): ID, CAP and STAT come from the shadow, other reads are zero, writes are counted and discarded. -/
def execIsolatedPageAccess (r : Requester) (a : BitVec 26) (write : Bool) (s : State) : Host.Outcome State Fault Refusal :=
  let a := a.toNat / 4 * 4
  match pageAt a with
  | none => .next s
  | some p =>
    if !s.isolated p then .next s
    else if write then .next (s.releaseHolds r).hostReject
    else
      let s := s.releaseHolds r
      .next (s.deliverRead a 4 (s.pageRead r p (a % 0x1000) 4))

/-! ### CTRL (R36, R43, R45, R46) -/

/-- Why a CTRL word is discarded: a set RSV bit (BLOCK_CTRL is one on every page, R33), a generation that is not in GEN_MASK, a changed
VERSION_SELECT while the block is enabled. -/
def State.ctrlReasons (s : State) (p : Page) (w : Nat) : Nat :=
  let vs := w / 16 % 16
  (if w / 4 % 4 != 0 || w / 256 != 0 then 1 else 0) + (if bitAt 0x0002 vs then 0 else 2)
    + (if s.fon p F.com.ENABLED && vs != s.fget p F.com.VERSION_SELECT then 4 else 0)

/-- A CTRL word written: SOFT_RESET ignores ENABLE; STAT.ENABLED follows a 1 at once (R44). -/
def State.ctrlWrite (s : State) (r : Requester) (p : Page) (w : Nat) : State :=
  s.hubAdmit r p 0x008 fun s =>
    let why := s.ctrlReasons p w
    if why ≠ 0 then s.discard p 0x008 why
    else if bitAt w 1 then (s.fput p F.com.VERSION_SELECT (w / 16)).softReset p
    else
      let s := (s.fput p F.com.VERSION_SELECT (w / 16)).fset p F.com.ENABLE (bitAt w 0)
      if bitAt w 0 then s.fset p F.com.ENABLED true else s

/-- ENABLE (R46): a CTRL word with ENABLE 1 and SOFT_RESET 0. -/
def execEnable (r : Requester) (p : Page) (w : BitVec 32) (s : State) : Host.Outcome State Fault Refusal :=
  if bitAt w.toNat 0 && !bitAt w.toNat 1 then .next (s.ctrlWrite r p w.toNat) else .next s

/-- DISABLE (R43): a CTRL word with ENABLE 0 and SOFT_RESET 0. -/
def execDisable (r : Requester) (p : Page) (w : BitVec 32) (s : State) : Host.Outcome State Fault Refusal :=
  if !bitAt w.toNat 0 && !bitAt w.toNat 1 then .next (s.ctrlWrite r p w.toNat) else .next s

/-- SOFT_RESET (R45): a CTRL word with SOFT_RESET 1. -/
def execSoftReset (r : Requester) (p : Page) (w : BitVec 32) (s : State) : Host.Outcome State Fault Refusal :=
  if bitAt w.toNat 1 then .next (s.ctrlWrite r p w.toNat) else .next s

/-- Started work that keeps STAT.ENABLED at 1 after a disable (R43). -/
def State.stillWorks (s : State) (p : Page) : Bool :=
  match p.ty with
  | .til => !(s.tile p.inst).started.isEmpty || (s.tile p.inst).vrun.isSome
  | .agt | .seq => s.running
  | .col => !(s.colEng p.inst).running.isEmpty
  | .xpt => !s.xpt.entries.isEmpty
  | .tir => !s.tiers.moves.isEmpty
  | .mq => !s.tiers.migs.isEmpty
  | .atc => s.attic.install.isSome
  | .mbx => s.onyx.mbx.isSome
  | _ => false

/-- ENABLED_CLEARED (R43): the started work has ended. -/
def execEnabledCleared (p : Page) (s : State) : Host.Outcome State Fault Refusal :=
  if s.enabled p || s.stillWorks p then .next s else .next (s.fset p F.com.ENABLED false)

/-- RESET_DONE (R45). -/
def execResetDone (p : Page) (s : State) : Host.Outcome State Fault Refusal :=
  if s.resetting p && !s.resetWaits p then .next (s.resetEnds p) else .next s

/-! ### Events -/

/-- EVT_FORCE (R38). -/
def execEvtForce (r : Requester) (p : Page) (bits : BitVec 32) (s : State) : Host.Outcome State Fault Refusal :=
  .next (s.hubAdmit r p 0x018 fun s => s.force p bits.toNat)

/-- EVT_CLEAR (R39): a write of EVT_STAT, which a page takes during a soft reset too (R45). -/
def execEvtClear (r : Requester) (p : Page) (bits : BitVec 32) (s : State) : Host.Outcome State Fault Refusal :=
  let s := s.releaseHolds r
  if s.isolated p || (coreOnly p 0x010 && !r.isCore) then .next s.hostReject
  else .next (s.clearEvents p bits.toNat)

/-- EQ_TAIL_WRITE (R385): room for the lines not yet reported. -/
def execEqTailWrite (r : Requester) (tail : BitVec 12) (s : State) : Host.Outcome State Fault Refusal :=
  .next (s.hubAdmit r pgHst 0x58 fun s =>
    let s := s.fput pgHst F.hst.EQ_TAIL_TAIL tail.toNat
    State.drainUnreported (2 * s.hub.unreported.length + 2) s)

/-- VALID of a first-position record: NF_POS or SAT_POS of a matrix-engine or vector page, SAT_POS of a collective engine (R79, R257). -/
def posValid (t : PageType) (sat : Bool) : Option Fld :=
  match t, sat with
  | .mxe, false => some F.mxe.NF_POS_VALID
  | .mxe, true => some F.mxe.SAT_POS_VALID
  | .vec, false => some F.vec.NF_POS_VALID
  | .vec, true => some F.vec.SAT_POS_VALID
  | .col, true => some F.col.SAT_POS_VALID
  | _, _ => none

/-- NF_RECORD_CLEAR (R80): VALID written as 1; the next event is captured. -/
def execNfRecordClear (r : Requester) (p : Page) (sat : Bool) (s : State) : Host.Outcome State Fault Refusal :=
  match posValid p.ty sat with
  | none => .next s
  | some f =>
    let s := s.releaseHolds r
    if s.isolated p then .next s.hostReject else .next (s.fset p f false)

end Sys2Proof.Machine
end

