-- ==== Sys2Proof/Machine/RegWrite.lean ====
section
/-! DEFINITION. REGISTER_WRITE (R42): a write of any register, with the effect of the row that a word of its own has, and a 64-bit write
that covers such a word and another (R29, R30). -/

namespace Sys2Proof.Machine

/-- The state a meaning answers. -/
def State.after (s : State) (x : Host.Outcome State Fault Refusal) : State :=
  match x with
  | .next t => t
  | _ => s

/-- The commands whose bits a command word sets, lowest first (log 14). -/
def State.setBits (s : State) (v : Nat) (acts : List (State → Host.Outcome State Fault Refusal)) : State :=
  (List.range acts.length).foldl (fun s b => if bitAt v b then s.after ((acts.getD b .next) s) else s) s

/-- A MBX_CMD word that names a command (R403). -/
def State.mbxWord (s : State) (r : Requester) (v : Nat) : State :=
  let k : Fin 16 := Fin.ofNat 16 (v / 16)
  s.after (match v % 16 with
    | 1 => execEnrol r s
    | 2 => execFwUpdate r s
    | 3 => execFwActivate r s
    | 4 => execFwRaiseFloor r s
    | 5 => execCakImport r s
    | 6 => execCakDelete r k s
    | 7 => execExtendM r k s
    | _ => execDebugGrant r s)

/-- A CTX_CMD word that names a command (R346). -/
def State.ctxWord (s : State) (r : Requester) (v : Nat) : State :=
  let c : BitVec 20 := BitVec.ofNat 20 v
  s.after (match v / 2 ^ 20 % 16 with
    | 1 => execCtxCreate r c s
    | 2 => execListen r c s
    | 3 => execConnect r c s
    | 4 => execCtxClose r c s
    | 5 => execCtxFree r c s
    | _ => execCtxRead r c s)

/-- A SITE_CMD word that names a command (R455); a group that does not exist has no spare and is not retired. -/
def State.siteWord (s : State) (r : Requester) (v : Nat) : State :=
  let g := v / 2 ^ 8 % 2 ^ 7
  if v % 4 = 3 then s.after (execSiteParams r s)
  else if 68 ≤ g then s.siteCmd r fun s => s.siteEnds stAccess
  else if v % 4 = 1 then s.after (execSiteRetire r (Fin.ofNat 68 g) (bitAt v 16) s)
  else s.after (execSiteRestore r (Fin.ofNat 68 g) s)

/-- A MDIO_CMD word (R334): what the PHY answers to a read is free here; the row MDIO_CMD takes it as an operand. -/
def State.mdioWord (s : State) (r : Requester) (v : Nat) : State :=
  let (x, s) := s.draw
  s.after (execMdioCmd r (Fin.ofNat 32 v) (Fin.ofNat 32 (v / 32)) (bitAt v 10) (BitVec.ofNat 16 x) s)

/-- A LINK_CTRL word (R377, R391): DISABLE is written, and RETRAIN acts unless it holds the module in DOWN. -/
def State.linkWord (s : State) (r : Requester) (m : Fin 4) (v : Nat) : State :=
  if bitAt v 1 then s.after (execLinkDisable r m s)
  else s.hubAdmit r (pgLnk m) 0x44 fun s =>
    let s := s.fset (pgLnk m) F.lnk.LINK_CTRL_DISABLE false
    s.after (execRetrain r m s)

/-- A Q_CTRL word with ABORT (R354, R371): its other fields are written before the queue's entries end. -/
def State.qctrlWord (s : State) (r : Requester) (p : Page) (v : Nat) : State :=
  s.hubAdmit r p 0x04C fun s =>
    let hits := fieldsMet p.ty 0x04C 4
    let s1 := s.takeWrite r p 0x04C 4 v hits
    let why := s.judge s1 r p 0x04C 4 v hits
    if why = 0 then s1.after (execQAbort r s1) else s.discard p 0x04C (why % 8)

/-- A word that a row of its own takes, with that row's effect; a register of 64 bits takes its whole value. -/
def State.rowWrite (s : State) (r : Requester) (p : Page) (o v : Nat) : State :=
  let n8 : Fin 8 := Fin.ofNat 8 p.inst
  let d : Fin 2 := Fin.ofNat 2 p.inst
  let t : Fin 16 := Fin.ofNat 16 p.inst
  let tail : BitVec 12 := BitVec.ofNat 12 v
  if o = 0x008 then s.ctrlWrite r p v
  else if o = 0x010 then s.after (execEvtClear r p (BitVec.ofNat 32 v) s)
  else if o = 0x018 then s.after (execEvtForce r p (BitVec.ofNat 32 v) s)
  else match p.ty with
  | .hst => s.after (execEqTailWrite r tail s)
  | .lnk => s.linkWord r (Fin.ofNat 4 p.inst) v
  | .jq => let q : Fin 1024 := Fin.ofNat 1024 p.inst
    s.after (if o = 0x58 then execSqDoorbell r q tail s else execCqTailWrite r (.job q) tail s)
  | .mbx => s.mbxWord r v
  | .ks => s.after (if v % 4 = 1 then execKsActivate r t s else execKsRevoke r t (bitAt v 2) s)
  | .comm => let k : Fin 16 := Fin.ofNat 16 v
    s.after (if v / 16 % 4 = 1 then execDefine r d k s else execCommRetire r d k s)
  | .pwr => s.after (if v % 4 = 1 then execNap r s else if v % 4 = 2 then execStandby r s else execWake r s)
  | .tim => s.after (execTimeSet r (BitVec.ofNat 64 v) s)
  | .servo => s.after (execServoOffset r (BitVec.ofNat 32 v) s)
  | .atc => let k : Fin 32 := Fin.ofNat 32 (v / 2 ^ 8)
    s.after (if v % 8 = 1 then execInstall r k s else if v % 8 = 2 then execActivate r k (bitAt v 16) s
      else if v % 8 = 3 then execAtticRetire r k s else execEmpty r k s)
  | .elog => s.after (if o = 0x6C then execLogRead r (BitVec.ofNat 32 v) s
      else execLogAdd r (BitVec.ofNat 16 v) (BitVec.ofNat 8 (v / 2 ^ 16)) s)
  | .mq => s.after (if o = 0x4C ∨ o = 0x7C then execMqDoorbell r (o == 0x7C) tail s
      else execCqTailWrite r (if o = 0x68 then .driver else .firmware) tail s)
  | .mgt => if o = 0x50 then s.mdioWord r v else s.after (execTxqDoorbell r 8 tail s)
  | .eth => if o = 0xA4 then s.after (execTxqDoorbell r (n8.castLE (by decide)) tail s)
      else if o = 0x54 then s.after (execShedTarget r n8 (Fin.ofNat 3 v) s)
      else if o = 0x204 then s.after (if v % 4 = 1 then execSwitchover r s else execResume r s)
      else s.after (execHealthFailed r (bitAt v 0) s)
  | .gl => s.setBits v [execGlLoad r n8, execGlCancel r n8]
  | .xpt => if o = 0x44 then s.after (execWqDoorbell r tail (BitVec.ofNat 12 (v / 2 ^ 12)) s)
      else if o = 0x64 then s.after (execCqTailWrite r .xpt tail s)
      else s.qctrlWord r p v
  | .ctx => s.ctxWord r v
  | .win => let k : BitVec 16 := BitVec.ofNat 16 v
    s.after (if v / 2 ^ 16 % 8 = 1 then execWinOpen r k s else if v / 2 ^ 16 % 8 = 2 then execWinRevoke r k s else execWinRead r k s)
  | .agt => s.setBits v [execLoad r, execStart r, execStop r, execAbort r]
  | .tal => s.after (execTallyAdd r (Fin.ofNat 2 (p.inst / 16)) t (BitVec.ofNat 8 v) (BitVec.ofNat 16 (v / 2 ^ 8)) s)
  | .ccr => if o = 0x48 then s.after (execWdKick r d (BitVec.ofNat 2 v) s) else s.siteWord r v
  | .dp => s.after (execArm r d (Fin.ofNat 64 ((o - 0x404) / 32)) s)
  | .mxe | .vec | .col => s.after (execNfRecordClear r p (o == 0x58) s)
  | _ => s

/-- One word written to a page (R42). -/
def State.wordWrite (s : State) (r : Requester) (p : Page) (o v : Nat) : State :=
  if ownRow p o v then s.rowWrite r p o v else s.hubAdmit r p o fun s => s.pageWrite r p o 4 v

/-- A write of 64 bits to a page (R29, R30): one register whole; or two words, one of them with a row of its own, judged as one write and
taken together, the other word's fields first (log 14, log 16). EVT_STAT and EVT_MASK are taken as one. -/
def State.pairWrite (s : State) (r : Requester) (p : Page) (o v : Nat) : State :=
  let lo := v % 2 ^ 32
  let hi := v / 2 ^ 32
  if wideLow p.ty o && ownRow p o lo then s.rowWrite r p o v
  else if o ≠ 0x010 ∧ (ownRow p o lo || ownRow p (o + 4) hi) then
    s.hubAdmit r p o fun s =>
      let hits := fieldsMet p.ty o 8
      let why := s.judge (s.takeWrite r p o 8 v hits) r p o 8 v hits ||| (if o = 0x008 then s.ctrlReasons p lo else 0)
      if why ≠ 0 then s.discard p o (why % 8)
      else if ownRow p o lo then (s.wordWrite r p (o + 4) hi).wordWrite r p o lo
      else (s.wordWrite r p o lo).wordWrite r p (o + 4) hi
  else s.hubAdmit r p o fun s => s.pageWrite r p o 8 v

/-- REGISTER_WRITE (R42, R29): an aligned write of 4 or 8 bytes. The upper half after a held lower half completes a 64-bit write; a lower
half alone is SPLIT_LOW_WRITE's. -/
def execRegisterWrite (r : Requester) (a : BitVec 26) (wide : Bool) (v : BitVec 64) (s : State) : Host.Outcome State Fault Refusal :=
  let a := a.toNat
  let n := if wide then 8 else 4
  let v := v.toNat % 2 ^ (8 * n)
  match s.refuses a with
  | some x => .refused x
  | none =>
    if !aligned a n || (!wide && isLowHalf a && !s.isolated ((pageAt a).getD pgHst)) then .next s
    else
      let whole (s : State) (a v : Nat) : State := match pageAt a with
        | some p => s.pairWrite r p (a % 0x1000) v
        | none => (s.releaseHolds r).barWrite r a 8 v
      .next (match if wide then none else s.heldLow r a with
        | some lo => whole { s with hub.held := Store.set none s.hub.held r.key none } (a - 4) (lo + 2 ^ 32 * v)
        | none =>
          if wide then whole s a v
          else match pageAt a with
            | some p => s.wordWrite r p (a % 0x1000) v
            | none => (s.releaseHolds r).barWrite r a 4 v)

end Sys2Proof.Machine
end

