-- ==== Sys2Proof/Machine/Dispatch.lean ====
section
/-! DEFINITION. Which meaning each command has: one arm per constructor, one direct call per arm. -/

namespace Sys2Proof.Machine

/-- The effect of a command on the machine (on everything but the queue). -/
def exec (i : Instr) (s : State) : Host.Outcome State Fault Refusal :=
  match i with
  | .registerWrite r a wide v => Sys2Proof.Machine.execRegisterWrite r a wide v s
  | .unassignedAccess r a write => Sys2Proof.Machine.execUnassignedAccess r a write s
  | .unsupportedAccess r a n => Sys2Proof.Machine.execUnsupportedAccess r a n s
  | .splitLowRead r a wide => Sys2Proof.Machine.execSplitLowRead r a wide s
  | .splitLowWrite r a v => Sys2Proof.Machine.execSplitLowWrite r a v s
  | .isolatedPageAccess r a write => Sys2Proof.Machine.execIsolatedPageAccess r a write s
  | .enable r p w => Sys2Proof.Machine.execEnable r p w s
  | .disable r p w => Sys2Proof.Machine.execDisable r p w s
  | .enabledCleared p => Sys2Proof.Machine.execEnabledCleared p s
  | .softReset r p w => Sys2Proof.Machine.execSoftReset r p w s
  | .resetDone p => Sys2Proof.Machine.execResetDone p s
  | .evtForce r p bits => Sys2Proof.Machine.execEvtForce r p bits s
  | .evtClear r p bits => Sys2Proof.Machine.execEvtClear r p bits s
  | .eqTailWrite r tail => Sys2Proof.Machine.execEqTailWrite r tail s
  | .nfRecordClear r p sat => Sys2Proof.Machine.execNfRecordClear r p sat s
  | .mxeSignal t => Sys2Proof.Machine.execMxeSignal t s
  | .clearAcc t => Sys2Proof.Machine.execClearAcc t s
  | .mma t => Sys2Proof.Machine.execMma t s
  | .drain t => Sys2Proof.Machine.execDrain t s
  | .mmaDrain t => Sys2Proof.Machine.execMmaDrain t s
  | .convertT t => Sys2Proof.Machine.execConvertT t s
  | .expandT t => Sys2Proof.Machine.execExpandT t s
  | .mxeOpStart t => Sys2Proof.Machine.execMxeOpStart t s
  | .reductionStepEnter t => Sys2Proof.Machine.execReductionStepEnter t s
  | .drainHandover t => Sys2Proof.Machine.execDrainHandover t s
  | .converterTakeSet t => Sys2Proof.Machine.execConverterTakeSet t s
  | .setFree t => Sys2Proof.Machine.execSetFree t s
  | .tileOpComplete t => Sys2Proof.Machine.execTileOpComplete t s
  | .vecSignal t => Sys2Proof.Machine.execVecSignal t s
  | .run t => Sys2Proof.Machine.execRun t s
  | .bindProg t => Sys2Proof.Machine.execBindProg t s
  | .bindTable t => Sys2Proof.Machine.execBindTable t s
  | .bindComplete t => Sys2Proof.Machine.execBindComplete t s
  | .vecComplete t => Sys2Proof.Machine.execVecComplete t s
  | .nop t => Sys2Proof.Machine.execNop t s
  | .fadd t => Sys2Proof.Machine.execFadd t s
  | .fsub t => Sys2Proof.Machine.execFsub t s
  | .fmul t => Sys2Proof.Machine.execFmul t s
  | .fma t => Sys2Proof.Machine.execFma t s
  | .fmax t => Sys2Proof.Machine.execFmax t s
  | .fmin t => Sys2Proof.Machine.execFmin t s
  | .fabs t => Sys2Proof.Machine.execFabs t s
  | .fneg t => Sys2Proof.Machine.execFneg t s
  | .fscale t => Sys2Proof.Machine.execFscale t s
  | .fsqrt t => Sys2Proof.Machine.execFsqrt t s
  | .frcp t => Sys2Proof.Machine.execFrcp t s
  | .frsqrt t => Sys2Proof.Machine.execFrsqrt t s
  | .iadd t => Sys2Proof.Machine.execIadd t s
  | .isub t => Sys2Proof.Machine.execIsub t s
  | .imul t => Sys2Proof.Machine.execImul t s
  | .andV t => Sys2Proof.Machine.execAndV t s
  | .orV t => Sys2Proof.Machine.execOrV t s
  | .xorV t => Sys2Proof.Machine.execXorV t s
  | .shl t => Sys2Proof.Machine.execShl t s
  | .shra t => Sys2Proof.Machine.execShra t s
  | .cvtif t => Sys2Proof.Machine.execCvtif t s
  | .cvtfi t => Sys2Proof.Machine.execCvtfi t s
  | .fcmplt t => Sys2Proof.Machine.execFcmplt t s
  | .fcmple t => Sys2Proof.Machine.execFcmple t s
  | .fcmpeq t => Sys2Proof.Machine.execFcmpeq t s
  | .fisnf t => Sys2Proof.Machine.execFisnf t s
  | .pand t => Sys2Proof.Machine.execPand t s
  | .por t => Sys2Proof.Machine.execPor t s
  | .pnot t => Sys2Proof.Machine.execPnot t s
  | .selV t => Sys2Proof.Machine.execSelV t s
  | .movV t => Sys2Proof.Machine.execMovV t s
  | .laneid t => Sys2Proof.Machine.execLaneid t s
  | .tblv t => Sys2Proof.Machine.execTblv t s
  | .tbld t => Sys2Proof.Machine.execTbld t s
  | .ld t => Sys2Proof.Machine.execLd t s
  | .st t => Sys2Proof.Machine.execSt t s
  | .ldx t => Sys2Proof.Machine.execLdx t s
  | .stq t => Sys2Proof.Machine.execStq t s
  | .sset t => Sys2Proof.Machine.execSset t s
  | .sld t => Sys2Proof.Machine.execSld t s
  | .sfadd t => Sys2Proof.Machine.execSfadd t s
  | .sfmul t => Sys2Proof.Machine.execSfmul t s
  | .sfmax t => Sys2Proof.Machine.execSfmax t s
  | .sredsum t => Sys2Proof.Machine.execSredsum t s
  | .sredmax t => Sys2Proof.Machine.execSredmax t s
  | .summary t => Sys2Proof.Machine.execSummary t s
  | .ainc t => Sys2Proof.Machine.execAinc t s
  | .xinc t => Sys2Proof.Machine.execXinc t s
  | .xpitch t => Sys2Proof.Machine.execXpitch t s
  | .body t => Sys2Proof.Machine.execBody t s
  | .endV t => Sys2Proof.Machine.execEndV t s
  | .halt t => Sys2Proof.Machine.execHalt t s
  | .summaryMessage k => Sys2Proof.Machine.execSummaryMessage k s
  | .arm r d slot => Sys2Proof.Machine.execArm r d slot s
  | .shelfSpanAccess f t span write waits late => Sys2Proof.Machine.execShelfSpanAccess f t span write waits late s
  | .netPacket d col row seam h => Sys2Proof.Machine.execNetPacket d col row seam h s
  | .dieFaultClear d => Sys2Proof.Machine.execDieFaultClear d s
  | .lbFillWrite k => Sys2Proof.Machine.execLbFillWrite k s
  | .fillComplete k => Sys2Proof.Machine.execFillComplete k s
  | .timeSet r v => Sys2Proof.Machine.execTimeSet r v s
  | .ppsEdge => Sys2Proof.Machine.execPpsEdge s
  | .servoOffset r e => Sys2Proof.Machine.execServoOffset r e s
  | .holdover => Sys2Proof.Machine.execHoldover s
  | .ppsOutPulse => Sys2Proof.Machine.execPpsOutPulse s
  | .load r => Sys2Proof.Machine.execLoad r s
  | .loadDone => Sys2Proof.Machine.execLoadDone s
  | .start r => Sys2Proof.Machine.execStart r s
  | .stop r => Sys2Proof.Machine.execStop r s
  | .abort r => Sys2Proof.Machine.execAbort r s
  | .beatFetch d st upset => Sys2Proof.Machine.execBeatFetch d st upset s
  | .tallyIncrement k => Sys2Proof.Machine.execTallyIncrement k s
  | .waitMetNotice d st => Sys2Proof.Machine.execWaitMetNotice d st s
  | .tallyAdd r d k j n => Sys2Proof.Machine.execTallyAdd r d k j n s
  | .issue d st => Sys2Proof.Machine.execIssue d st s
  | .descriptorDeliver d st => Sys2Proof.Machine.execDescriptorDeliver d st s
  | .fill d st => Sys2Proof.Machine.execFill d st s
  | .release d st => Sys2Proof.Machine.execRelease d st s
  | .decideBeat d st => Sys2Proof.Machine.execDecideBeat d st s
  | .beatEnd d st => Sys2Proof.Machine.execBeatEnd d st s
  | .beatSignal d st => Sys2Proof.Machine.execBeatSignal d st s
  | .decisionEvaluate k guard => Sys2Proof.Machine.execDecisionEvaluate k guard s
  | .decisionArrive d => Sys2Proof.Machine.execDecisionArrive d s
  | .decTimeout k => Sys2Proof.Machine.execDecTimeout k s
  | .watchTimeout d st => Sys2Proof.Machine.execWatchTimeout d st s
  | .phaseReport => Sys2Proof.Machine.execPhaseReport s
  | .phaseForecast => Sys2Proof.Machine.execPhaseForecast s
  | .gradientStamp d k shard step td t => Sys2Proof.Machine.execGradientStamp d k shard step td t s
  | .epochFlip d k shard step waits td t => Sys2Proof.Machine.execEpochFlip d k shard step waits td t s
  | .classify d k shard last => Sys2Proof.Machine.execClassify d k shard last s
  | .define r d k => Sys2Proof.Machine.execDefine r d k s
  | .commRetire r d k => Sys2Proof.Machine.execCommRetire r d k s
  | .colSignal d => Sys2Proof.Machine.execColSignal d s
  | .allReduce d => Sys2Proof.Machine.execAllReduce d s
  | .reduceScatter d => Sys2Proof.Machine.execReduceScatter d s
  | .allGather d => Sys2Proof.Machine.execAllGather d s
  | .broadcast d => Sys2Proof.Machine.execBroadcast d s
  | .permute d => Sys2Proof.Machine.execPermute d s
  | .ringPass d => Sys2Proof.Machine.execRingPass d s
  | .reshard d => Sys2Proof.Machine.execReshard d s
  | .barrier d => Sys2Proof.Machine.execBarrier d s
  | .colOpStart d => Sys2Proof.Machine.execColOpStart d s
  | .ringStepAdmit d ix => Sys2Proof.Machine.execRingStepAdmit d ix s
  | .colDataFrame n f => Sys2Proof.Machine.execColDataFrame n f s
  | .colAck n f => Sys2Proof.Machine.execColAck n f s
  | .colNack n f => Sys2Proof.Machine.execColNack n f s
  | .colRto d ix rank psn => Sys2Proof.Machine.execColRto d ix rank psn s
  | .colAckDelay d ix rank => Sys2Proof.Machine.execColAckDelay d ix rank s
  | .colComplete d ix => Sys2Proof.Machine.execColComplete d ix s
  | .mqDoorbell r fw tail => Sys2Proof.Machine.execMqDoorbell r fw tail s
  | .create fw => Sys2Proof.Machine.execCreate fw s
  | .createComplete fw => Sys2Proof.Machine.execCreateComplete fw s
  | .destroy fw => Sys2Proof.Machine.execDestroy fw s
  | .destroyComplete fw => Sys2Proof.Machine.execDestroyComplete fw s
  | .migrate fw => Sys2Proof.Machine.execMigrate fw s
  | .migrateComplete k f => Sys2Proof.Machine.execMigrateComplete k f s
  | .query fw => Sys2Proof.Machine.execQuery fw s
  | .refill fw => Sys2Proof.Machine.execRefill fw s
  | .refillComplete k f => Sys2Proof.Machine.execRefillComplete k f s
  | .tirSignal => Sys2Proof.Machine.execTirSignal s
  | .move => Sys2Proof.Machine.execMove s
  | .moveComplete k f => Sys2Proof.Machine.execMoveComplete k f s
  | .tierDeadline kind k g => Sys2Proof.Machine.execTierDeadline kind k g s
  | .cellarRead who a len ecc => Sys2Proof.Machine.execCellarRead who a len ecc s
  | .cellarWrite who a bytes => Sys2Proof.Machine.execCellarWrite who a bytes s
  | .atticRead who a len bad => Sys2Proof.Machine.execAtticRead who a len bad s
  | .boxroomAccess who a len write poison => Sys2Proof.Machine.execBoxroomAccess who a len write poison s
  | .install r slot => Sys2Proof.Machine.execInstall r slot s
  | .installComplete bad => Sys2Proof.Machine.execInstallComplete bad s
  | .activate r slot raise => Sys2Proof.Machine.execActivate r slot raise s
  | .atticRetire r slot => Sys2Proof.Machine.execAtticRetire r slot s
  | .empty r slot => Sys2Proof.Machine.execEmpty r slot s
  | .selectorWriteDone corrected => Sys2Proof.Machine.execSelectorWriteDone corrected s
  | .replaceInPlace slot layers => Sys2Proof.Machine.execReplaceInPlace slot layers s
  | .frontAdvance slot => Sys2Proof.Machine.execFrontAdvance slot s
  | .genSwitch slot => Sys2Proof.Machine.execGenSwitch slot s
  | .oldGenDestroy slot => Sys2Proof.Machine.execOldGenDestroy slot s
  | .frameReceive n a => Sys2Proof.Machine.execFrameReceive n a s
  | .frameTransmit n carrier => Sys2Proof.Machine.execFrameTransmit n carrier s
  | .linkUp n lpi => Sys2Proof.Machine.execLinkUp n lpi s
  | .linkDown n => Sys2Proof.Machine.execLinkDown n s
  | .hello n member => Sys2Proof.Machine.execHello n member s
  | .helloTimer n => Sys2Proof.Machine.execHelloTimer n s
  | .heartbeat n sender h => Sys2Proof.Machine.execHeartbeat n sender h s
  | .heartbeatSend n => Sys2Proof.Machine.execHeartbeatSend n s
  | .linkSilent => Sys2Proof.Machine.execLinkSilent s
  | .probeSend => Sys2Proof.Machine.execProbeSend s
  | .probe n sender => Sys2Proof.Machine.execProbe n sender s
  | .probeReply sender => Sys2Proof.Machine.execProbeReply sender s
  | .promoteTimeout => Sys2Proof.Machine.execPromoteTimeout s
  | .fenceTimeout => Sys2Proof.Machine.execFenceTimeout s
  | .promotionComplete => Sys2Proof.Machine.execPromotionComplete s
  | .switchover r => Sys2Proof.Machine.execSwitchover r s
  | .resume r => Sys2Proof.Machine.execResume r s
  | .healthFailed r failed => Sys2Proof.Machine.execHealthFailed r failed s
  | .glLoad r n => Sys2Proof.Machine.execGlLoad r n s
  | .glCancel r n => Sys2Proof.Machine.execGlCancel r n s
  | .gateChange n => Sys2Proof.Machine.execGateChange n s
  | .gateEntryBoundary n => Sys2Proof.Machine.execGateEntryBoundary n s
  | .shedTarget r n target => Sys2Proof.Machine.execShedTarget r n target s
  | .shedReq n sender x target => Sys2Proof.Machine.execShedReq n sender x target s
  | .shedAck n => Sys2Proof.Machine.execShedAck n s
  | .shedNak n => Sys2Proof.Machine.execShedNak n s
  | .shedNoAnswer n => Sys2Proof.Machine.execShedNoAnswer n s
  | .shedSwitch n => Sys2Proof.Machine.execShedSwitch n s
  | .shedRelockFail n => Sys2Proof.Machine.execShedRelockFail n s
  | .lpiEnter n => Sys2Proof.Machine.execLpiEnter n s
  | .lpiWake n => Sys2Proof.Machine.execLpiWake n s
  | .txqDoorbell r n tail => Sys2Proof.Machine.execTxqDoorbell r n tail s
  | .fwTxEntry n => Sys2Proof.Machine.execFwTxEntry n s
  | .mdioCmd r reg phy write answer => Sys2Proof.Machine.execMdioCmd r reg phy write answer s
  | .collision late => Sys2Proof.Machine.execCollision late s
  | .backoffExpiry => Sys2Proof.Machine.execBackoffExpiry s
  | .mkpdu n cak op pdu => Sys2Proof.Machine.execMkpdu n cak op pdu s
  | .ctxCreate r conn => Sys2Proof.Machine.execCtxCreate r conn s
  | .listen r conn => Sys2Proof.Machine.execListen r conn s
  | .connect r conn => Sys2Proof.Machine.execConnect r conn s
  | .ctxClose r conn => Sys2Proof.Machine.execCtxClose r conn s
  | .ctxFree r conn => Sys2Proof.Machine.execCtxFree r conn s
  | .ctxRead r conn => Sys2Proof.Machine.execCtxRead r conn s
  | .writePacket n f => Sys2Proof.Machine.execWritePacket n f s
  | .readReq n f => Sys2Proof.Machine.execReadReq n f s
  | .readResp n f => Sys2Proof.Machine.execReadResp n f s
  | .ackPacket n f => Sys2Proof.Machine.execAckPacket n f s
  | .nackPacket n f => Sys2Proof.Machine.execNackPacket n f s
  | .connectPacket n f => Sys2Proof.Machine.execConnectPacket n f s
  | .accept n f => Sys2Proof.Machine.execAccept n f s
  | .closePacket n f => Sys2Proof.Machine.execClosePacket n f s
  | .closeAck n f => Sys2Proof.Machine.execCloseAck n f s
  | .messageComplete k => Sys2Proof.Machine.execMessageComplete k s
  | .cmrnRto k => Sys2Proof.Machine.execCmrnRto k s
  | .cmrnAckDelay k => Sys2Proof.Machine.execCmrnAckDelay k s
  | .contextFetchDone ns f => Sys2Proof.Machine.execContextFetchDone ns f s
  | .missTimeout k => Sys2Proof.Machine.execMissTimeout k s
  | .wqDoorbell r q tail => Sys2Proof.Machine.execWqDoorbell r q tail s
  | .xptEntryStart q => Sys2Proof.Machine.execXptEntryStart q s
  | .xptSignal ix => Sys2Proof.Machine.execXptSignal ix s
  | .xptWrite ix => Sys2Proof.Machine.execXptWrite ix s
  | .xptRead ix => Sys2Proof.Machine.execXptRead ix s
  | .xptEntryComplete ix => Sys2Proof.Machine.execXptEntryComplete ix s
  | .qAbort r => Sys2Proof.Machine.execQAbort r s
  | .winOpen r ix => Sys2Proof.Machine.execWinOpen r ix s
  | .winRevoke r ix => Sys2Proof.Machine.execWinRevoke r ix s
  | .winRead r ix => Sys2Proof.Machine.execWinRead r ix s
  | .winCmdDone => Sys2Proof.Machine.execWinCmdDone s
  | .sqDoorbell r q tail => Sys2Proof.Machine.execSqDoorbell r q tail s
  | .jobSignal q => Sys2Proof.Machine.execJobSignal q s
  | .jobRun q => Sys2Proof.Machine.execJobRun q s
  | .admitEntry q opens => Sys2Proof.Machine.execAdmitEntry q opens s
  | .admitComplete ix => Sys2Proof.Machine.execAdmitComplete ix s
  | .jobStop q => Sys2Proof.Machine.execJobStop q s
  | .coalTimeout q => Sys2Proof.Machine.execCoalTimeout q s
  | .cxlMemAccess m x write => Sys2Proof.Machine.execCxlMemAccess m x write s
  | .retrain r m => Sys2Proof.Machine.execRetrain r m s
  | .linkDisable r m => Sys2Proof.Machine.execLinkDisable r m s
  | .linkStageAdvance m degraded memEn => Sys2Proof.Machine.execLinkStageAdvance m degraded memEn s
  | .linkStageTimeout m => Sys2Proof.Machine.execLinkStageTimeout m s
  | .moduleDown m => Sys2Proof.Machine.execModuleDown m s
  | .moduleReset m => Sys2Proof.Machine.execModuleReset m s
  | .getVersion fn => Sys2Proof.Machine.execGetVersion fn s
  | .getCapabilities fn => Sys2Proof.Machine.execGetCapabilities fn s
  | .negotiateAlgorithms fn offersRsaPss4096 offersSha512 => Sys2Proof.Machine.execNegotiateAlgorithms fn offersRsaPss4096 offersSha512 s
  | .getDigests fn => Sys2Proof.Machine.execGetDigests fn s
  | .getCertificate fn slot => Sys2Proof.Machine.execGetCertificate fn slot s
  | .challenge fn nonce => Sys2Proof.Machine.execChallenge fn nonce s
  | .getMeasurements fn block sign nonce => Sys2Proof.Machine.execGetMeasurements fn block sign nonce s
  | .spdmUnsupported fn => Sys2Proof.Machine.execSpdmUnsupported fn s
  | .enrol r => Sys2Proof.Machine.execEnrol r s
  | .fwUpdate r => Sys2Proof.Machine.execFwUpdate r s
  | .fwActivate r => Sys2Proof.Machine.execFwActivate r s
  | .fwRaiseFloor r => Sys2Proof.Machine.execFwRaiseFloor r s
  | .cakImport r => Sys2Proof.Machine.execCakImport r s
  | .cakDelete r k => Sys2Proof.Machine.execCakDelete r k s
  | .extendM r k => Sys2Proof.Machine.execExtendM r k s
  | .debugGrant r => Sys2Proof.Machine.execDebugGrant r s
  | .entropyFail => Sys2Proof.Machine.execEntropyFail s
  | .ksActivate r t => Sys2Proof.Machine.execKsActivate r t s
  | .activationDone t => Sys2Proof.Machine.execActivationDone t s
  | .ksRevoke r t scrub => Sys2Proof.Machine.execKsRevoke r t scrub s
  | .revokeLanded t n => Sys2Proof.Machine.execRevokeLanded t n s
  | .zeroised t => Sys2Proof.Machine.execZeroised t s
  | .scrubDone t => Sys2Proof.Machine.execScrubDone t s
  | .nap r => Sys2Proof.Machine.execNap r s
  | .standby r => Sys2Proof.Machine.execStandby r s
  | .wake r => Sys2Proof.Machine.execWake r s
  | .stateEntryComplete => Sys2Proof.Machine.execStateEntryComplete s
  | .napAutoWake => Sys2Proof.Machine.execNapAutoWake s
  | .wakeN => Sys2Proof.Machine.execWakeN s
  | .wakeStageReady => Sys2Proof.Machine.execWakeStageReady s
  | .wakeStageTimeout dom => Sys2Proof.Machine.execWakeStageTimeout dom s
  | .capTick p10 => Sys2Proof.Machine.execCapTick p10 s
  | .learnTick dyn unc => Sys2Proof.Machine.execLearnTick dyn unc s
  | .rampComplete g => Sys2Proof.Machine.execRampComplete g s
  | .currentAlarm => Sys2Proof.Machine.execCurrentAlarm s
  | .currentRelease => Sys2Proof.Machine.execCurrentRelease s
  | .droop g => Sys2Proof.Machine.execDroop g s
  | .droopEnd g => Sys2Proof.Machine.execDroopEnd g s
  | .thermalTick tj g => Sys2Proof.Machine.execThermalTick tj g s
  | .thermalTrip tj g => Sys2Proof.Machine.execThermalTrip tj g s
  | .shiftPeriodEnd => Sys2Proof.Machine.execShiftPeriodEnd s
  | .powerHint sender c last => Sys2Proof.Machine.execPowerHint sender c last s
  | .coldReset => Sys2Proof.Machine.execColdReset s
  | .bootStageComplete b => Sys2Proof.Machine.execBootStageComplete b s
  | .bootStageTimeout => Sys2Proof.Machine.execBootStageTimeout s
  | .charTrialEnd p pass => Sys2Proof.Machine.execCharTrialEnd p pass s
  | .siteRetire r p persist => Sys2Proof.Machine.execSiteRetire r p persist s
  | .siteRestore r p => Sys2Proof.Machine.execSiteRestore r p s
  | .siteParams r => Sys2Proof.Machine.execSiteParams r s
  | .siteDone => Sys2Proof.Machine.execSiteDone s
  | .pgFall => Sys2Proof.Machine.execPgFall s
  | .seamChannelDown c => Sys2Proof.Machine.execSeamChannelDown c s
  | .refclkStop => Sys2Proof.Machine.execRefclkStop s
  | .overTemp => Sys2Proof.Machine.execOverTemp s
  | .wdKick r d cores => Sys2Proof.Machine.execWdKick r d cores s
  | .coreWatchdogExpiry c => Sys2Proof.Machine.execCoreWatchdogExpiry c s
  | .pwrWatchdogExpiry => Sys2Proof.Machine.execPwrWatchdogExpiry s
  | .onyxWatchdogExpiry => Sys2Proof.Machine.execOnyxWatchdogExpiry s
  | .logAdd r code status => Sys2Proof.Machine.execLogAdd r code status s
  | .logProgramDone => Sys2Proof.Machine.execLogProgramDone s
  | .logRead r seq => Sys2Proof.Machine.execLogRead r seq s
  | .powerFailWarning => Sys2Proof.Machine.execPowerFailWarning s
  | .powerFailRelease => Sys2Proof.Machine.execPowerFailRelease s
  | .powerLoss => Sys2Proof.Machine.execPowerLoss s
  | .resetRelease => Sys2Proof.Machine.execResetRelease s
  | .bankKeyRelease bank => Sys2Proof.Machine.execBankKeyRelease bank s
  | .mailboxCmdDone => Sys2Proof.Machine.execMailboxCmdDone s
  | .contextWriteBackDone => Sys2Proof.Machine.execContextWriteBackDone s
  | .connectRetransmit conn => Sys2Proof.Machine.execConnectRetransmit conn s
  | .closeRetransmit conn => Sys2Proof.Machine.execCloseRetransmit conn s
  | .lpiWakeDone n => Sys2Proof.Machine.execLpiWakeDone n s
  | .forecastTime => Sys2Proof.Machine.execForecastTime s
  | .thermalTripRelease => Sys2Proof.Machine.execThermalTripRelease s
  | .cqTailWrite r ring tail => Sys2Proof.Machine.execCqTailWrite r ring tail s
  | .napWakeDone => Sys2Proof.Machine.execNapWakeDone s

end Sys2Proof.Machine
end

