-- ==== Sys2Proof/Laws/Store.lean ====
section
/-! SUPPORT. The laws of the sparse stores: what is read after a write, and that every operation keeps the canonical form. -/

namespace Sys2Proof.Machine

variable {α : Type}

/-- An erased key reads as unlisted. -/
theorem Store.get_erase_self (d : α) (m : List (Nat × α)) (k : Nat) : Store.get d (Store.erase m k) k = d := by
  induction m with
  | nil => rfl
  | cons e m ih =>
    obtain ⟨k', v⟩ := e
    by_cases h : k' = k <;> simp [Store.erase, Store.get, h, ih]

/-- Erasing a key leaves every other one. -/
theorem Store.get_erase_ne (d : α) (m : List (Nat × α)) {k k₂ : Nat} (h : k ≠ k₂) :
    Store.get d (Store.erase m k) k₂ = Store.get d m k₂ := by
  induction m with
  | nil => rfl
  | cons e m ih =>
    obtain ⟨k', v⟩ := e
    by_cases h1 : k' = k
    · subst h1; simp [Store.erase, Store.get, h, ih]
    · simp only [Store.erase, h1, if_false, Store.get, ih]

/-- An inserted key reads as its value where the key was not listed before. -/
theorem Store.get_insert_self (d : α) (m : List (Nat × α)) (k : Nat) (v : α) (h : ∀ e ∈ m, e.1 ≠ k) :
    Store.get d (Store.insert m k v) k = v := by
  induction m with
  | nil => simp [Store.insert, Store.get]
  | cons e m ih =>
    obtain ⟨k', v'⟩ := e
    have hne : k' ≠ k := h (k', v') (by simp)
    by_cases h1 : k < k'
    · simp [Store.insert, Store.get, h1]
    · simp [Store.insert, Store.get, h1, hne, ih fun e he => h e (by simp [he])]

/-- Inserting a key leaves every other one. -/
theorem Store.get_insert_ne (d : α) (m : List (Nat × α)) {k k₂ : Nat} (v : α) (h : k ≠ k₂) :
    Store.get d (Store.insert m k v) k₂ = Store.get d m k₂ := by
  induction m with
  | nil => simp [Store.insert, Store.get, h]
  | cons e m ih =>
    obtain ⟨k', v'⟩ := e
    by_cases h1 : k < k'
    · simp [Store.insert, Store.get, h1, h]
    · simp only [Store.insert, h1, if_false, Store.get, ih]

/-- No entry for an erased key is left. -/
theorem Store.erase_keys (m : List (Nat × α)) (k : Nat) : ∀ e ∈ Store.erase m k, e.1 ≠ k := by
  induction m with
  | nil => simp [Store.erase]
  | cons e m ih =>
    obtain ⟨k', v⟩ := e
    by_cases h : k' = k
    · simpa [Store.erase, h] using ih
    · intro x hx
      simp only [Store.erase, h, if_false, List.mem_cons] at hx
      rcases hx with rfl | hx
      · exact h
      · exact ih x hx

/-- A written key reads as its value. -/
@[simp] theorem Store.get_set_self [DecidableEq α] (d : α) (m : List (Nat × α)) (k : Nat) (v : α) :
    Store.get d (Store.set d m k v) k = v := by
  unfold Store.set
  split
  · next h => rw [h, Store.get_erase_self]
  · exact Store.get_insert_self d _ k v (Store.erase_keys m k)

/-- A write leaves every other key. -/
theorem Store.get_set_ne [DecidableEq α] (d : α) (m : List (Nat × α)) {k k₂ : Nat} (v : α) (h : k ≠ k₂) :
    Store.get d (Store.set d m k v) k₂ = Store.get d m k₂ := by
  unfold Store.set
  split
  · exact Store.get_erase_ne d m h
  · rw [Store.get_insert_ne d _ v h, Store.get_erase_ne d m h]

/-- Read after write, in one equation. -/
theorem Store.get_set [DecidableEq α] (d : α) (m : List (Nat × α)) (k k₂ : Nat) (v : α) :
    Store.get d (Store.set d m k v) k₂ = if k = k₂ then v else Store.get d m k₂ := by
  by_cases h : k = k₂
  · subst h; simp
  · simp [h, Store.get_set_ne d m v h]

/-- A write leaves every other key, read with any default. -/
theorem Store.get_set_ne' [DecidableEq α] (d d' : α) (m : List (Nat × α)) {k k₂ : Nat} (v : α) (h : k ≠ k₂) :
    Store.get d' (Store.set d m k v) k₂ = Store.get d' m k₂ := by
  unfold Store.set
  split
  · exact Store.get_erase_ne d' m h
  · rw [Store.get_insert_ne d' _ v h, Store.get_erase_ne d' m h]

/-! ### The canonical form -/

/-- A lower bound may be lowered. -/
theorem Store.rising_mono {a b : Option Nat} (m : List (Nat × α)) (h : Store.rising b m = true)
    (hab : ∀ x, a = some x → ∃ y, b = some y ∧ x ≤ y) : Store.rising a m = true := by
  cases m with
  | nil => rfl
  | cons e m =>
    obtain ⟨k, v⟩ := e
    simp only [Store.rising, Bool.and_eq_true] at h ⊢
    refine ⟨?_, h.2⟩
    cases a with
    | none => rfl
    | some x =>
      obtain ⟨y, hy, hxy⟩ := hab x rfl
      subst hy
      have := h.1
      simp only [decide_eq_true_eq] at this ⊢
      omega

/-- Erasing keeps the order. -/
theorem Store.rising_erase (m : List (Nat × α)) (k : Nat) : ∀ b, Store.rising b m = true → Store.rising b (Store.erase m k) = true := by
  induction m with
  | nil => intro b _; rfl
  | cons e m ih =>
    obtain ⟨k', v⟩ := e
    intro b h
    simp only [Store.rising, Bool.and_eq_true] at h
    by_cases h1 : k' = k
    · simp only [Store.erase, h1, if_true]
      refine Store.rising_mono _ (ih _ h.2) ?_
      intro x hx
      subst hx
      have := h.1
      simp only [decide_eq_true_eq] at this
      exact ⟨k', rfl, by omega⟩
    · simp only [Store.erase, h1, if_false, Store.rising, Bool.and_eq_true]
      exact ⟨h.1, ih _ h.2⟩

/-- Inserting an unlisted key above the bound keeps the order. -/
theorem Store.rising_insert (m : List (Nat × α)) (k : Nat) (v : α) : ∀ b, Store.rising b m = true → (∀ e ∈ m, e.1 ≠ k) →
    (∀ x, b = some x → x < k) → Store.rising b (Store.insert m k v) = true := by
  induction m with
  | nil =>
    intro b _ _ hb
    cases b with
    | none => rfl
    | some x => simp [Store.insert, Store.rising, hb x rfl]
  | cons e m ih =>
    obtain ⟨k', v'⟩ := e
    intro b h hk hb
    have hne : k' ≠ k := hk (k', v') (by simp)
    simp only [Store.rising, Bool.and_eq_true] at h
    by_cases h1 : k < k'
    · simp only [Store.insert, h1, if_true, Store.rising, Bool.and_eq_true, decide_eq_true_eq]
      refine ⟨?_, trivial, h.2⟩
      cases b with
      | none => rfl
      | some x => simp [hb x rfl]
    · simp only [Store.insert, h1, if_false, Store.rising, Bool.and_eq_true]
      refine ⟨h.1, ih _ h.2 (fun e he => hk e (by simp [he])) ?_⟩
      intro x hx
      cases hx
      omega

/-- Erasing lists nothing new. -/
theorem Store.mem_erase (m : List (Nat × α)) (k : Nat) : ∀ e ∈ Store.erase m k, e ∈ m := by
  induction m with
  | nil => simp [Store.erase]
  | cons e m ih =>
    obtain ⟨k', v⟩ := e
    intro x hx
    by_cases h : k' = k
    · simp only [Store.erase, h, if_true] at hx
      exact List.mem_cons_of_mem _ (ih x hx)
    · simp only [Store.erase, h, if_false, List.mem_cons] at hx
      rcases hx with rfl | hx
      · simp
      · exact List.mem_cons_of_mem _ (ih x hx)

/-- Inserting lists nothing but the new entry. -/
theorem Store.mem_insert (m : List (Nat × α)) (k : Nat) (v : α) : ∀ e ∈ Store.insert m k v, e = (k, v) ∨ e ∈ m := by
  induction m with
  | nil => simp [Store.insert]
  | cons e m ih =>
    obtain ⟨k', v'⟩ := e
    intro x hx
    by_cases h : k < k'
    · simp only [Store.insert, h, if_true, List.mem_cons] at hx ⊢
      exact hx
    · simp only [Store.insert, h, if_false, List.mem_cons] at hx ⊢
      rcases hx with rfl | hx
      · exact .inr (.inl rfl)
      · rcases ih x hx with h' | h'
        · exact .inl h'
        · exact .inr (.inr h')

/-- A write keeps the canonical form. -/
theorem Store.wf_set [DecidableEq α] (d : α) (m : List (Nat × α)) (k : Nat) (v : α) (h : Store.wf d m = true) :
    Store.wf d (Store.set d m k v) = true := by
  simp only [Store.wf, Bool.and_eq_true, List.all_eq_true, decide_eq_true_eq] at h ⊢
  unfold Store.set
  split
  · exact ⟨Store.rising_erase m k _ h.1, fun e he => h.2 e (Store.mem_erase m k e he)⟩
  · next hv =>
    refine ⟨Store.rising_insert _ k v _ (Store.rising_erase m k _ h.1) (Store.erase_keys m k) (by simp), ?_⟩
    intro e he
    rcases Store.mem_insert _ k v e he with rfl | he
    · exact hv
    · exact h.2 e (Store.mem_erase m k e he)

/-- A write of consecutive values keeps the canonical form. -/
theorem Store.wf_write [DecidableEq α] (d : α) (vs : List α) : ∀ (m : List (Nat × α)) (k : Nat), Store.wf d m = true →
    Store.wf d (Store.write d m k vs) = true := by
  induction vs with
  | nil => intro m _ h; exact h
  | cons v vs ih => intro m k h; exact ih _ _ (Store.wf_set d m k v h)

/-- Dropping entries keeps the order. -/
theorem Store.rising_filter (f : Nat × α → Bool) (m : List (Nat × α)) : ∀ b, Store.rising b m = true →
    Store.rising b (m.filter f) = true := by
  induction m with
  | nil => intro b _; rfl
  | cons e m ih =>
    obtain ⟨k, v⟩ := e
    intro b h
    simp only [Store.rising, Bool.and_eq_true] at h
    by_cases hf : f (k, v) = true
    · simp only [List.filter_cons_of_pos hf, Store.rising, Bool.and_eq_true]
      exact ⟨h.1, ih _ h.2⟩
    · rw [List.filter_cons_of_neg (by simpa using hf)]
      refine Store.rising_mono _ (ih _ h.2) ?_
      intro x hx
      subst hx
      have := h.1
      simp only [decide_eq_true_eq] at this
      exact ⟨k, rfl, by omega⟩

/-- Dropping entries keeps the canonical form. -/
theorem Store.wf_filter [DecidableEq α] (d : α) (f : Nat × α → Bool) (m : List (Nat × α)) (h : Store.wf d m = true) :
    Store.wf d (m.filter f) = true := by
  simp only [Store.wf, Bool.and_eq_true, List.all_eq_true, decide_eq_true_eq] at h ⊢
  exact ⟨Store.rising_filter f m _ h.1, fun e he => h.2 e (List.mem_filter.mp he).1⟩

/-- Writes one after another keep the canonical form. -/
theorem Store.wf_foldl_set [DecidableEq α] (d : α) (bs : List (Nat × α)) : ∀ m : List (Nat × α), Store.wf d m = true →
    Store.wf d (bs.foldl (fun m b => Store.set d m b.1 b.2) m) = true := by
  induction bs with
  | nil => intro m h; exact h
  | cons b bs ih => intro m h; exact ih _ (Store.wf_set d m b.1 b.2 h)

end Sys2Proof.Machine
end

