-- ==== Sys2Proof/Safety.lean ====
section
/-! DEFINITION. The terms in which claims are made: which parts of the state a command leaves alone, the canonical form of every memory,
and the invariant of a run. -/

namespace Sys2Proof.Machine

/-- The parts of the state, one for each field of `State`. -/
inductive Part where
  | pending | regs | hub | time | tbase | freeCtr | outPins | out | hostMem | uptime | log | boot | shelf | tiles | summaries | slotHeld
  | slotDone | agate | pwr | host | tiers | attic | onyx | net | col | slack | xpt
deriving DecidableEq, Repr

/-- A part is the same in two states. -/
def Part.same : Part → State → State → Prop
  | .pending, s, t => t.pending = s.pending
  | .regs, s, t => t.regs = s.regs
  | .hub, s, t => t.hub = s.hub
  | .time, s, t => t.time = s.time
  | .tbase, s, t => t.tbase = s.tbase
  | .freeCtr, s, t => t.freeCtr = s.freeCtr
  | .outPins, s, t => t.outPins = s.outPins
  | .out, s, t => t.out = s.out
  | .hostMem, s, t => t.hostMem = s.hostMem
  | .uptime, s, t => t.uptime = s.uptime
  | .log, s, t => t.log = s.log
  | .boot, s, t => t.boot = s.boot
  | .shelf, s, t => t.shelf = s.shelf
  | .tiles, s, t => t.tiles = s.tiles
  | .summaries, s, t => t.summaries = s.summaries
  | .slotHeld, s, t => t.slotHeld = s.slotHeld
  | .slotDone, s, t => t.slotDone = s.slotDone
  | .agate, s, t => t.agate = s.agate
  | .pwr, s, t => t.pwr = s.pwr
  | .host, s, t => t.host = s.host
  | .tiers, s, t => t.tiers = s.tiers
  | .attic, s, t => t.attic = s.attic
  | .onyx, s, t => t.onyx = s.onyx
  | .net, s, t => t.net = s.net
  | .col, s, t => t.col = s.col
  | .slack, s, t => t.slack = s.slack
  | .xpt, s, t => t.xpt = s.xpt

/-- Between two states nothing has changed but the parts listed. -/
def Only (ps : List Part) (s t : State) : Prop := ∀ p, p ∉ ps → p.same s t

/-- What raising an event may touch: the page's event registers, the host event ring and its records, the messages that leave (R38, R385,
R386). -/
def eventParts : List Part := [.regs, .hub, .out, .hostMem, .host]

/-- Every register field but those at the keys listed holds what it held. -/
def RegsOnly (ks : List Nat) (s t : State) : Prop := ∀ k, k ∉ ks → ∀ d, Store.get d t.regs k = Store.get d s.regs k

/-- A command is carried out: its meaning answers a next state of which `post` holds. -/
def Runs (c : Instr) (s : State) (post : State → Prop) : Prop := ∃ t, exec c s = .next t ∧ post t

/-- A requester's access to offset `off` of page `p` reaches the page's block, and the requester holds no half of a split access: the page
is there, neither isolated nor in a soft reset, no job queue in STANDBY, and open to the requester. -/
def State.reaches (s : State) (r : Requester) (p : Page) (off : Nat) : Bool :=
  p.present && !s.isolated p && !s.resetting p && !(p.ty == .jq && s.inStandby) && (!coreOnly p off || r.isCore)
    && (Store.get none s.hub.held r.key).isNone

/-- Every register field outside a page holds what it held. -/
def PageOnly (p : Page) (s t : State) : Prop :=
  ∀ k, ¬ inPage p k → ∀ d, Store.get d t.regs k = Store.get d s.regs k

/-- The registers of a tile's page that show what its queues and sets hold (R101, R142). -/
def tileShown (t : Nat) : List Nat :=
  [F.til.MXE_STAT_QUEUED, F.til.MXE_STAT_BUSY, F.til.MXE_STAT_ACTIVE_SET, F.til.MXE_STAT_DRAINING, F.til.MXE_STAT_CHUNK_BLKS,
   F.til.VEC_STAT_QUEUED, F.til.VEC_STAT_BUSY].map (Fld.key (tilPage t))

/-- Every tile but `t` holds what it held. -/
def TileOnly (t : Nat) (s s' : State) : Prop := ∀ j, j ≠ t → s'.tile j = s.tile j

/-- Every Shelf byte outside the keys listed holds what it held. -/
def ShelfOnly (ks : List Nat) (s s' : State) : Prop := ∀ a, a ∉ ks → Store.get 0 s'.shelf a = Store.get 0 s.shelf a

/-- The vector engine of tile `k` runs the RUN `r`, whose next instruction, free of errors as stored, is `w` (R126, R131). -/
def State.atInstr (s : State) (k w : Nat) (r : VecRun) : Prop :=
  (s.tile k).vrun = some r ∧ r.ended = false ∧ descOpcode r.desc = 2 ∧
  ∃ ps c, (s.tile k).prog (VD.pslot r.desc) = some ps ∧ ps.code[r.pc]? = some c ∧ instrCheck c = .clean w

/-- The registers of a tile's page that the issue of an instruction writes (R142). -/
def vecShown (k : Nat) : List Nat :=
  tileShown k ++ [F.til.VEC_ISSUE_CYC_COUNT, F.til.VEC_FLOPS_COUNT, F.til.VEC_TBL_EVALS_COUNT, F.til.VEC_STORE_CORR_COUNT].map
    (Fld.key (tilPage k))

/-- An instruction of RUN `r` has been issued on tile `k`: beside the RUN's own record the tile holds what `u` holds, the RUN stands at the
next instruction and remembers the conditions `nf` and `sat`; of the other parts only those of `ps` and, with a condition, those an
event may touch have changed. -/
def Issued (ps : List Part) (s t : State) (k : Nat) (r : VecRun) (u : Tile) (nf sat : Bool) : Prop :=
  t.tile k = { u with vrun := some { r with pc := r.pc + 1, nf := r.nf || nf, sat := r.sat || sat } } ∧ TileOnly k s t ∧
  Only (.tiles :: ps ++ eventParts) s t ∧
  (nf = false → sat = false → Only (.regs :: .tiles :: ps) s t ∧ RegsOnly (vecShown k) s t) ∧
  (nf = true → bitAt (t.fget (vecPage k) F.com.EVT_STAT) 8 = true) ∧ (sat = true → bitAt (t.fget (vecPage k) F.com.EVT_STAT) 9 = true)

/-- Tile `u'` differs from `u` in vector register V[VD] alone, whose gated lanes hold `f` (R118, R120). -/
def LaneResult (u u' : Tile) (w : Nat) (f : Nat → Word) : Prop :=
  (∀ l < 128, u'.lane (VI.vd w) l = if u.gate w l then f l else u.lane (VI.vd w) l) ∧
  (∀ x, x ≠ VI.vd w → Store.get zeroLanes u'.v x = Store.get zeroLanes u.v x) ∧ { u' with v := u.v } = u

/-- Some gated lane's value is a NaN or an infinity (R120, R121). -/
def gatedNf (u : Tile) (w : Nat) (f : Nat → Word) : Bool := (List.range 128).any fun l => u.gate w l && fpNonfinite (f l)

/-- The next entry of a tier-manager ring is `d`: it is the ring's turn, the entry is readable (the state after the read is `s1`) and free of
errors, and it passes its checks (R274, R275). -/
def State.ringEntry (s s1 : State) (fw : Bool) (d : Nat) : Prop :=
  ∃ a bs, s.ringHead fw = some a ∧ s.ringTurn fw = true ∧ s.devRead .firmware a 64 = (s1, .ok bs) ∧
    checkStruct 64 (leNat bs) = .clean d ∧ s1.ringCheck fw d = none

/-- The oldest command of a ring still waits for its status, if there is one: none may complete before it (R275). -/
def State.ringQuiet (s : State) (fw : Bool) : Bool := (s.ringCmds fw).head?.all fun c => c.ready.isNone

/-- Every object but that of handle `h` is what it was. -/
def ObjOnly (h : Nat) (s t : State) : Prop := ∀ g, g ≠ h → t.obj g = s.obj g

/-- On the slots page only the registers of slot `n` have changed. -/
def SlotOnly (n : Nat) (s t : State) : Prop :=
  ∀ k, inPage pgSlot k → ¬ ((pgSlot.base + 0x100 + 32 * n) * 8 ≤ k ∧ k < (pgSlot.base + 0x120 + 32 * n) * 8) →
    ∀ d, Store.get d t.regs k = Store.get d s.regs k

/-- A selector command from a control core is taken up now (R296). -/
def State.selReady (s : State) (r : Requester) : Prop :=
  s.reaches r pgAtc 0x040 = true ∧ r.isCore = true ∧ s.enabled pgAtc = true ∧ s.log.pwrFail = false ∧ s.attic.install = none ∧
  s.attic.selWrite = none

/-- ATC_RESULT and its event report the end of a command (R305). -/
def State.atcReports (t : State) (op slot st : Nat) : Prop :=
  t.fget pgAtc F.atc.ATC_RESULT_STATUS = st ∧ t.fget pgAtc F.atc.ATC_RESULT_OP = op ∧ t.fget pgAtc F.atc.ATC_RESULT_SLOT = slot ∧
  bitAt (t.fget pgAtc F.com.EVT_STAT) 8 = true

/-- A mailbox command of a requester is taken up now (R415). -/
def State.mbxReady (s : State) (r : Requester) : Prop :=
  s.reaches r pgMbx 0x040 = true ∧ s.fon pgMbx F.mbx.MBX_RESULT_BUSY = false ∧ s.enabled pgMbx = true

/-- Between `s` and `t` a mailbox command has begun: MBX_RESULT reads BUSY, and the command will end with a status and, where that is DONE,
an effect (R415). -/
def State.mbxBegun (s t : State) (op st : Nat) (e : MbxEffect) : Prop :=
  t.onyx = { s.onyx with mbx := some ⟨op, st, if st = 0 then e else .none⟩ } ∧ t.fon pgMbx F.mbx.MBX_RESULT_BUSY = true ∧
  Only [.regs, .onyx] s t ∧ RegsOnly [F.mbx.MBX_RESULT_BUSY.key pgMbx] s t

/-- A measurement register extended: its new value and count, every other register as it was (R399). -/
def Onyx.extended (x : Onyx) (i : Nat) (d : List Byte) : Onyx :=
  { x with
    meas := Store.set 0 x.meas i (Config.sha512 (leBytes 64 (Store.get 0 x.meas i) ++ d) % 2 ^ 512)
    measCnt := Store.set 0 x.measCnt i (Store.get 0 x.measCnt i + 1) }

/-- Port `n` takes a control frame (R309, R312): link up, page enabled, 48 bytes of data within MAX_PAYLOAD. -/
def State.takesCtl (s : State) (n : Nat) : Prop :=
  s.linkUp n = true ∧ s.enabled (pgEth n) = true ∧ 48 ≤ s.fget (pgEth n) F.eth.PORT_CFG_MAX_PAYLOAD

/-- Between `s` and `t` one control frame has joined class 7 of port `n` (R322). -/
def State.ctlQueued (s t : State) (n subtype dst payload : Nat) : Prop :=
  (t.port n).queue 7 = (s.port n).queue 7 ++ [⟨(s.ctlFrame n subtype dst 7 payload).1, 4, none⟩]

/-- Every port but `n` holds what it held. -/
def PortOnly (n : Nat) (s t : State) : Prop := ∀ m, m ≠ n → t.port m = s.port m

/-- A counter has advanced by `n`, held at its largest value (R39). -/
def Counted (s t : State) (p : Page) (f : Fld) (n : Nat) : Prop := t.fget p f = min (2 ^ f.width - 1) (s.fget p f + n)

/-- The twin role is `st` now, under epoch `e` (R329). -/
def State.twinIs (t : State) (st e : Nat) : Prop := twState t = st ∧ t.fget pgTwin F.eth.TWIN_EPOCH_EPOCH = e

/-- Between `s` and `t` the package was fenced to a role: its epoch kept, TWIN_FENCED raised, a run that serves requests ended with ABORTED
(R331). -/
def State.fencedTo (s t : State) (st : Nat) : Prop :=
  t.twinIs st (s.fget pgTwin F.eth.TWIN_EPOCH_EPOCH) ∧ bitAt (t.fget pgTwin F.com.EVT_STAT) 15 = true ∧
  (s.running = true → s.host.services ≠ [] → t.running = false ∧ t.fget (pgAgt 0) F.agt.AGT_STAT_END_STATUS = 12) ∧
  (s.running = false ∨ s.host.services = [] → Only (.log :: eventParts) s t)

/-- No communicator is FENCING: no fence passes (R233). -/
def State.noFence (s : State) : Prop := ∀ d < 2, ∀ k < 16, s.commState d k ≠ 2

/-- A descriptor of a collective engine passes its checks once it is taken from the queue's head (R238). -/
def State.colTaken (s : State) (d : Nat) (x : Nat) (rest : List DieOp) : Prop :=
  ∃ q, (s.colEng d).queue = q :: rest ∧ q.held = false ∧ checkStruct 64 q.desc = .clean x ∧
    (s.putCol d { s.colEng d with queue := rest }).colCheck d x = none

/-- Between `s` and `t` an operation has ended with a status: it runs no longer, and the arrival record and the count of its last rank say so
(R256). -/
def State.colEnded (s t : State) (d : Nat) (o : ColOp) (st : Nat) : Prop :=
  let i := s.fget (pgCol d) F.col.ARR_HEAD_HEAD
  (∀ y ∈ (t.colEng d).running, ¬ (y.opseq = o.opseq ∧ CD.comm y.desc = CD.comm o.desc)) ∧
  t.fget (pgCol d) (F.col.ARR_OP_ID i) = descOpId o.desc ∧ t.fget (pgCol d) (F.col.ARR_OPSEQ i) = o.opseq % 2 ^ 32 ∧
  t.fget (pgCol d) (F.col.ARR_LAST_RANK i) = o.last ∧ t.fget (pgCol d) (F.col.ARR_COMM i) = CD.comm o.desc ∧
  t.fget (pgCol d) (F.col.ARR_STATUS i) = st ∧ t.fget (pgCol d) F.col.ARR_HEAD_HEAD = (i + 1) % 16 ∧
  Counted s t (pgCol d) (F.col.LAST_COUNT_COUNT o.last) 1

/-- A DATA, ACK or NACK frame of die `d` from a member, as its header `h` says, which reaches the engine (R246). -/
def State.colHeader (s : State) (d : Nat) (f : Frame) (h : Nat) : Prop :=
  checkStruct 32 (leNat (f.data.take 32)) = .clean h ∧ CH.comm h / 16 = d ∧ s.enabled (pgCol d) = true ∧ 32 ≤ f.data.length ∧
  s.fromMember d (CH.comm h % 16) h f.src = true ∧ s.versionOk (pgCol d) (fieldAt h 0 0 4) = true

/-- Every context but that of `conn` is as it was. -/
def CtxOnly (conn : Nat) (s t : State) : Prop := ∀ j, j ≠ conn → t.ctxOf j = s.ctxOf j

/-- A context command of a requester finds the image `c` of context `conn`, on chip in `u` (R346, R349). -/
def State.ctxTaken (s u : State) (r : Requester) (conn c : Nat) : Prop :=
  s.reaches r pgCtx 0x048 = true ∧ (s.releaseHolds r).ensureCtx conn = (u, .ok c)

/-- A packet of connection `conn`, whose context is `c`, would take path `p` and leave through port `port`, which takes it (R358). -/
def State.nextPath (s : State) (conn c p port : Nat) : Prop :=
  (s.upPaths c)[Store.get 0 s.xpt.path conn % (s.upPaths c).length]? = some (p, port) ∧ s.enabled (pgEth port) = true ∧
  cget c CX.txPsn + 1 < 2 ^ 64

/-- Between `s` and `t` one packet of a type has joined its port's class queue, under the context `c` it had (R341, R342); a frame larger
than the port's MAX_PAYLOAD joins none (R309). -/
def State.packetAway (s t : State) (c p port type : Nat) (ok : Nat → Prop) : Prop :=
  ∃ h free sealed, ok h ∧ PH.type h = type ∧ PH.psn h = cget c CX.txPsn ∧ PH.conn h = cget c CX.remoteConn ∧ PH.inc h = cget c CX.remoteInc ∧
    PH.keyGen h = cget c CX.keyGen ∧
    let ip := ipPacket (s.ipAddr (cget c CX.addrSel)) (cget c CX.peerIp) (cget c CX.cls) (cget c CX.udpSrc + p)
      (s.fget pgXpt F.xpt.XPT_CFG_UDP_PORT) free (leBytes 48 h ++ sealed)
    let f : Frame := ⟨cget c CX.nextHop, s.macBase + port, some (cget c CX.cls * 2 ^ 13 + cget c CX.vlan), ip.1, ip.2⟩
    (t.port port).queue (cget c CX.cls) = (s.port port).queue (cget c CX.cls)
      ++ (if ip.2.length ≤ s.fget (pgEth port) F.eth.PORT_CFG_MAX_PAYLOAD then [⟨f, 2, none⟩] else [])

/-- The parts of the state that sending a packet touches. -/
def sendParts : List Part := [.regs, .xpt, .net, .freeCtr]

/-- No tracker and no unfinished entry of a connection is left (R346). -/
def State.connIdle (t : State) (conn : Nat) : Prop :=
  (∀ x ∈ t.xpt.tracks, x.conn ≠ conn) ∧
  ∀ e ∈ t.xpt.entries, XD.conn e.desc = conn → descOpcode e.desc ≠ 1 → e.status ≠ 0 ∨ t.msgs e.desc ≤ e.ended

/-- Between `s` and `t` an entry of queue `q` has completed: COMP counts it, a driver queue's record is in its ring, a beat queue's tally is on
its way (R354, R359). -/
def State.entryEnded (s t : State) (q x st bytes : Nat) : Prop :=
  let h := s.qget q F.xpt.Q_STAT_CQ_HEAD % 2 ^ s.qget q F.xpt.Q_CTRL_CQ_LOG2
  let record := placeAt 0 0 32 (descOpId x) + placeAt 4 0 8 st + placeAt 4 8 8 (descOpcode x) + placeAt 4 16 12 q + placeAt 8 0 32 bytes
    + placeAt 0xC 0 32 (Store.get 0 s.xpt.seqs q)
  t.qget q F.xpt.Q_COMP_COMP = (s.qget q F.xpt.Q_COMP_COMP + 1) % 2 ^ 32 ∧
  (q < 4094 → t.qget q F.xpt.Q_STAT_CQ_HEAD = (h + 1) % 2 ^ s.qget q F.xpt.Q_CTRL_CQ_LOG2 % 2 ^ 12 ∧
    ∃ u, Only (.xpt :: eventParts) s u ∧
      Only [.regs, .xpt] (u.devWrite (s.qAgent q) (s.qget q F.xpt.Q_CQ_BASE_ADDR + 16 * h) (leBytes 16 record)).1 t) ∧
  (4094 ≤ q → st = 0 → t.agate.notices = s.agate.notices ++ (if descTallyEn x then [⟨q - 4094, descTally x, 1, srcCode 6 (q - 4094)⟩] else []))

/-- A record of queue `q` would be written at once. -/
def State.recordRoom (s : State) (q : Nat) : Prop := s.xcqRoom q = true ∧ ∀ r ∈ s.xpt.records, r.queue ≠ q

/-- A run of the device range can be read by an agent (R260, R267). -/
def State.canRead (s : State) (who : Agent) (a n : Nat) : Prop :=
  s.rangeCheck who false a n = none ∧ s.badUnit (unitStarts a n) = none

/-- Entry `e` is the only one of its connection at work, and no message of the connection is. -/
def State.aloneOn (s : State) (e : XEntry) : Prop :=
  (∀ y ∈ s.xpt.tracks, y.conn ≠ XD.conn e.desc) ∧
  ∀ y ∈ s.xpt.entries, (XD.conn y.desc = XD.conn e.desc ∨ y.serial = e.serial) → y = e

/-- A received packet of a type passes every check of R348: frame `f` carries the header `h` for connection `conn`, whose context is `c`, and
the plaintext `data`. -/
def State.packetIn (s : State) (f : Frame) (type conn c h : Nat) (data : List Byte) : Prop :=
  ∃ g, s.camernFrame f = some g ∧ h = leNat (g.payload.take 48) ∧ PH.type h = type ∧ s.enabled pgXpt = true ∧ g.clean = true ∧
    g.payload.length = 64 + (if type = 2 ∨ type = 5 ∨ 8 ≤ type then 0 else PH.plen h) ∧ reservedSet 48 h (packetFields type) = false ∧
    (if type = 6 then (s.xpt.live.filter fun e => match e.2 with | some (id, _) => id == PH.msg h % 2 ^ 16 | none => false).map (·.1) = [conn] ∧
        PH.version h = 1
      else PH.conn h = conn ∧ PH.inc h = cget c CX.incarnation ∧
        if cget c CX.state = 3 then PH.version h = 1 else PH.version h = cget c CX.negVersion) ∧
    s.ctxOf conn = some c ∧ cget c CX.state ≠ 0 ∧ (∀ m ∈ s.xpt.missed, m.conn ≠ conn) ∧ PH.keyGen h = cget c CX.keyGen ∧
    replayed c (PH.psn h) = false ∧ openPacket c h (g.payload.drop 48) = some data

/-- Message `h` of connection `conn` is new to the responder, which takes it: inside the message window, not ended, in shape, a tracker free
(R360, steps 1 to 4). -/
def State.newMessage (u : State) (conn h : Nat) : Prop :=
  let floor := (PH.floor h + 2 ^ 16 - u.cof conn CX.rxBase % 2 ^ 16) % 2 ^ 16
  let k := (PH.msg h + 2 ^ 32 - u.cof conn CX.rxBase) % 2 ^ 32
  (floor = 0 ∨ 2 ^ 15 ≤ floor) ∧ k < 32 ∧ bitAt (u.cof conn CX.rxFail) k = false ∧ bitAt (u.cof conn CX.rxDone) k = false ∧
  u.track conn (PH.msg h) false = none ∧ (u.xpt.tracks.filter (!·.req)).length < 16384 ∧ u.misshapen conn h none = false

/-- The responder's tracker of a message as its first packet makes it (R360). -/
def State.trackerOf (u : State) (conn h : Nat) : Track :=
  { conn := conn, msg := PH.msg h, req := false, send := PH.type h == 2, len := PH.len h
    addr := fieldAt (Store.get 0 u.xpt.wins (PH.win h)) 8 0 52 + PH.winOff h
    win := PH.win h, winGen := PH.winGen h, winOff := PH.winOff h
    bump := if PH.bump h then some (PH.bumpDie h, PH.tally h) else none }

/-- The bytes of every memory are those of another state. -/
def SameBytes (v t : State) : Prop := t.shelf = v.shelf ∧ t.tiers = v.tiers ∧ t.hostMem = v.hostMem

/-- A window command of a requester is taken up now. -/
def State.winReady (s : State) (r : Requester) : Prop := s.reaches r pgWin 0x040 = true ∧ s.xpt.winCmd = none

/-- Between `s` and `t` the servo has taken an update with error `e` (R166): its integral, the clamped correction, the run of good updates, the
state, and LOCK_GAINED or LOCK_LOST. -/
def State.servoTook (s t : State) (e : Int) : Prop :=
  let i : Int := s.tbase.integral - s.fget pgServo F.servo.SERVO_GAIN_KI * e
  let near := e.natAbs ≤ s.fget pgServo F.servo.SERVO_CTRL_LOCK_NS
  let old := s.fget pgServo F.servo.SERVO_STAT_STATE
  let st := if near ∧ (min 8 (s.tbase.good + 1) = 8 ∨ old = 1) then 1 else 0
  t.tbase.integral = i ∧ t.freqAdj = max (-51200000) (min 51200000 (i - s.fget pgServo F.servo.SERVO_GAIN_KP * e)) ∧
  t.fget pgServo F.servo.LAST_ERROR_ERROR = unsignedOf 32 e ∧ t.tbase.good = (if near then min 8 (s.tbase.good + 1) else 0) ∧
  t.fget pgServo F.servo.SERVO_STAT_STATE = st ∧ (old ≠ 1 → st = 1 → bitAt (t.fget pgServo F.com.EVT_STAT) 9 = true) ∧
  (old = 1 → st ≠ 1 → bitAt (t.fget pgServo F.com.EVT_STAT) 10 = true)

/-- Every stream but stream `st` of die `d` is what it was. -/
def StreamOnly (d st : Nat) (s t : State) : Prop := ∀ e j, j < 64 → ¬ (e = d ∧ j = st) → t.stream e j = s.stream e j

/-- Between `s` and `t` nothing of the engines has changed but streams, cursors, phases, notices, forecasts and lateness. -/
def FireOnly (s t : State) : Prop :=
  let a := t.agate
  let b := s.agate
  a.segs = b.segs ∧ a.dirs = b.dirs ∧ a.beats = b.beats ∧ a.tileDesc = b.tileDesc ∧ a.dieDesc = b.dieDesc ∧ a.preds = b.preds ∧
  a.views = b.views ∧ a.vimages = b.vimages ∧ a.deciding = b.deciding ∧ a.sent = b.sent ∧ a.decided = b.decided ∧ a.captured = b.captured ∧
  a.fills = b.fills ∧ a.entry = b.entry ∧ a.segAt = b.segAt ∧ a.job = b.job ∧ a.tenant = b.tenant

/-- A run has ended with a status (R194): both engines IDLE with END_STATUS and RUN_END, streams and decisions gone, the tiles' queues empty,
every landing buffer EMPTY. -/
def runEnded (t : State) (st : Nat) : Prop :=
  t.running = false ∧ (∀ d < 2, t.agtState d = 2 ∧ t.fget (pgAgt d) F.agt.AGT_STAT_END_STATUS = st ∧
    bitAt (t.fget (pgAgt d) F.com.EVT_STAT) 9 = true) ∧ t.agate.streams = [] ∧ t.agate.deciding = [] ∧
  (∀ k < 256, (t.tile k).queue = [] ∧ (t.tile k).vqueue = [] ∧ ∀ n < 4, t.lbState k n = 0)

/-- Every stream's view holds at most 64 tallies (R175). -/
def State.viewsOk (s : State) : Prop := ∀ k, (Store.get [] s.agate.views k).length ≤ 64

/-- The head of a stream is `w`, of a kind, confirmed, and may fire (R177). -/
def State.firesNow (s : State) (d st k : Nat) (w : WinBeat) : Prop :=
  (s.stream d st).head = some w ∧ BT.kind w.beat = k ∧ w.spec = false ∧ s.mayFire d st w = true ∧ s.viewsOk

/-- Between `s` and `t` the confirmed beat `w` has fired (R175, R178, R191): counted, out of the window, its consuming waits at their new
cursors, its phase the stream's. -/
def State.beatFired (s t : State) (d st : Nat) (w : WinBeat) : Prop :=
  Counted s t (pgAgt d) F.agt.BEATS_FIRED_COUNT 1 ∧ (t.stream d st).window = ((s.stream d st).mark w).window ∧ StreamOnly d st s t ∧
  (∀ i < BT.waits w.beat, ∀ v < 64, BT.cons w.beat i = true → s.viewIx d st (BT.tally w.beat i) = some v →
    (∀ j < BT.waits w.beat, j ≠ i → BT.cons w.beat j = true → s.viewIx d st (BT.tally w.beat j) ≠ some v) →
    t.cursor d st v = (s.cursor d st v + BT.thresh w.beat i) % 2 ^ 32) ∧
  t.phaseOf d st = (if BT.phase w.beat = 0 then s.phaseOf d st else BT.phase w.beat)

/-- What a SIG of a beat that fires sends (R172, R178). -/
def State.signalled (s t : State) (d st : Nat) (w : WinBeat) : Prop :=
  t.agate.notices = s.agate.notices ++ (sigOf d w.beat (srcCode 8 (64 * d + st))).toList

/-- The parts of the state that a firing touches. -/
def fireParts : List Part := [.agate, .shelf, .tiers] ++ eventParts

/-- The head entry of queue `q`, at ring index `h`, is `d`: taken now, with opcode `op` and free of errors as stored, while its completion ring
has room and the package sleeps or leaves no state (R379, R381). -/
def State.jobNext (s : State) (q op h d : Nat) : Prop :=
  s.jobHead q = some h ∧ checkStruct 64 (s.jobRaw q h) = .clean d ∧ JE.op d = op ∧ s.cqRoom q = true ∧ s.pwrState = 0

/-- Between `s` and `t` the head entry of queue `q`, at ring index `h`, was taken (R379). -/
def State.jobPassed (s t : State) (q h : Nat) : Prop :=
  t.fget (jqPage q) F.jq.SQ_HEAD_HEAD = (h + 1) % 2 ^ s.fget (jqPage q) F.jq.JQ_CFG_SQ_LOG2 % 2 ^ 12 ∧
  t.fon (jqPage q) F.jq.JQ_STAT_WAITING = false ∧ t.fget (jqPage q) F.jq.JQ_STAT_REASON = 0 ∧
  Counted s t (jqPage q) F.jq.JQ_SUBMITTED_COUNT 1

/-- Between `s` and `t` queue `q` wrote one completion record (R383). -/
def State.jobRecorded (s t : State) (q opId status opcode index : Nat) : Prop :=
  let p := jqPage q
  let n := 2 ^ s.fget p F.jq.JQ_CFG_CQ_LOG2
  let i := s.fget p F.jq.CQ_HEAD_HEAD % n
  t.fget p F.jq.CQ_HEAD_HEAD = (i + 1) % n % 2 ^ 12 ∧ bitAt (t.fget p F.com.EVT_STAT) 8 = true ∧
  Store.get 0 t.host.seqs q = (Store.get 0 s.host.seqs q + 1) % 2 ^ 32 ∧ ∃ img,
    fieldAt img 0 0 32 = opId % 2 ^ 32 ∧ fieldAt img 4 0 8 = status % 2 ^ 8 ∧ fieldAt img 4 8 8 = opcode % 2 ^ 8 ∧ fieldAt img 4 16 10 = q % 2 ^ 10 ∧
    fieldAt img 4 31 1 = (!Store.get false s.host.passes q).toNat ∧ fieldAt img 8 0 12 = index % 2 ^ 12 ∧
    fieldAt img 0x10 0 64 = s.time.toNat ∧ fieldAt img 0x18 0 32 = Store.get 0 s.host.seqs q % 2 ^ 32 ∧
    (s.routed p = false → t.hostMem = (s.hostWrite (s.fget p F.jq.CQ_BASE_ADDR + 32 * i) (leBytes 32 img)).hostMem)

/-- Between `s` and `t` only the registers of module `m`'s link page that show its stage, and MODULES_UP, have changed. -/
def linkShown (m : Nat) : List Nat :=
  [F.lnk.LINK_STAT_STAGE, F.lnk.LINK_STAT_LANES, F.lnk.LINK_STAT_DEGRADED, F.lnk.LINK_STAT_MEM_EN].map (Fld.key (pgLnk m))
    ++ [F.hst.HOST_STAT_MODULES_UP.key pgHst]

/-- Module `m` has fallen to a stage below UP (R377, R378). -/
def State.linkDown (t : State) (m stage : Nat) : Prop :=
  t.linkStage m = stage ∧ t.fget (pgLnk m) F.lnk.LINK_STAT_LANES = 0 ∧ t.fon (pgLnk m) F.lnk.LINK_STAT_MEM_EN = false ∧
  bitAt (t.fget pgHst F.hst.HOST_STAT_MODULES_UP) m = false ∧ Store.get false t.host.stuck m = false

/-- Whether the power predicted for package level `l` with the phases as they stand fits the cap (R420). -/
def State.predictFits (s : State) (l : Nat) : Bool :=
  s.fits (s.modelPower (fun g => s.estGroup (s.phaseAt g s.time.toNat)) (fun d => s.estUncore (s.phaseAt (64 + d) s.time.toNat)) l) s.budget

/-- The package level stands where R420 puts it: at the highest that fits the cap, held by the limit of R426. -/
def State.levelChosen (t : State) : Prop :=
  ∃ h, t.fget pgPwr F.pwr.LEVEL_PKG_LEVEL = min t.pwr.limit h ∧ h ≤ t.topCeiling ∧ (h = 0 ∨ t.predictFits h = true) ∧
    ∀ l ≤ t.topCeiling, h < l → t.predictFits l = false

/-- Every group stands at the level its limits give it, or ramps up to it, and shows its reason (R418, R419, R427). -/
def State.levelsLed (t : State) : Prop :=
  ∀ g < 64, let goal := t.goalLevel g (t.fget pgPwr F.pwr.LEVEL_PKG_LEVEL)
    t.level g ≤ goal ∧ (t.pwrGroup g).target = (if t.level g < goal then some goal else none) ∧
    t.fget pgThr (F.thr.GRP_REASON g) = t.reasonOf g

/-- The same, every group having gone down at once where its limits lie lower (R419). -/
def State.levelsFollow (s t : State) : Prop :=
  t.levelsLed ∧ ∀ g < 64, t.level g = min (s.level g) (t.goalLevel g (t.fget pgPwr F.pwr.LEVEL_PKG_LEVEL))

/-- The parts of the state that a change of levels touches. -/
def levelParts : List Part := [.pwr, .shelf, .tiers] ++ eventParts

/-- The package has taken a power state, with STATE_CHANGE (R438, R443). -/
def State.tookPwr (t : State) (v : Nat) : Prop := t.pwrState = v ∧ bitAt (t.fget pgPwr F.com.EVT_STAT) 8 = true

/-- The last PWR_CMD's RESULT and REFUSERS (R443). -/
def State.pwrAnswer (t : State) (st refusers : Nat) : Prop :=
  t.fget pgPwr F.pwr.PWR_STATE_RESULT = st ∧ t.fget pgPwr F.pwr.PWR_STATE_REFUSERS = refusers

/-- The fields of the slots page that a loss of keys clears, and a boot's number: a reset rewrites them (R461, R465). -/
def resetKeys : List Nat :=
  F.elog.BOOT_PROGRESS_BOOT.key pgElog
    :: (List.range 32).flatMap fun k => [(F.slot.SL_STAT_KEY_READY k).key pgSlot, (F.slot.SL_STAT_PROGRAMMING k).key pgSlot]

/-- Between `s` and `t` every domain was reset, no selector write being cut (R448, R465): what the Attic, the identity partition and host memory
hold stays; output pins fall; an entry whose program had begun is torn. -/
def State.wasReset (s t : State) : Prop :=
  Only [.regs, .out, .log, .net] { pending := s.pending, freeCtr := s.freeCtr, hostMem := s.hostMem
                                   attic := { s.attic with keys := [], install := none, selWrite := none, repl := [] }
                                   onyx := { ivk := s.onyx.ivk, suk := s.onyx.suk, policy := s.onyx.policy, siteChain := s.onyx.siteChain } } t ∧
  (∀ p ∈ s.outPins, Out.pin p false ∈ t.out) ∧ { t.net with site := [] } = {} ∧
  (∀ k, Store.get none t.net.site k = (Store.get none s.net.siteNext k).or (Store.get none s.net.site k)) ∧
  (s.log.prog = none → t.log = { entries := s.log.entries, torn := s.log.torn }) ∧
  (∀ seq img, s.log.prog = some (seq, img) → (∃ v, checkStruct 32 v = .failed ∧
    t.log = { entries := Store.set none s.log.entries seq (some v), torn := s.log.torn + 1 })) ∧
  (∀ p f, atticKey (f.key p) = true → f.key p ∉ resetKeys → t.fget p f = s.fget p f) ∧
  (∀ p f, atticKey (f.key p) = false → f.key p ∉ resetKeys → t.fget p f = State.reset.fget p f) ∧
  (∀ k < 32, t.fon pgSlot (F.slot.SL_STAT_KEY_READY k) = false ∧ t.fon pgSlot (F.slot.SL_STAT_PROGRAMMING k) = false) ∧
  t.fget pgElog F.elog.BOOT_PROGRESS_BOOT =
    (s.fget pgElog F.elog.BOOT_PROGRESS_BOOT + if s.fget pgElog F.elog.LOG_WRITES_COUNT = 0 then 0 else 1) % 2 ^ 16

/-- Between `s` and `t` boot stage `k` completed: recorded with the time since the release of reset (R449). -/
def State.stageEnded (s t : State) (k : Nat) : Prop :=
  t.fget pgElog F.elog.BOOT_PROGRESS_STAGE = k ∧ t.fget pgElog (F.elog.BOOT_US_US (k - 1)) = s.uptime / 1000 % 2 ^ 32

/-- Between `s` and `t` the boot failed in stage `k` (R451): LINKS still runs after SELFTEST and CELLAR; before, the fault output is driven. -/
def State.bootFailed (s t : State) (k st : Nat) : Prop :=
  t.fon pgElog F.elog.BOOT_PROGRESS_FAILED = true ∧ t.fget pgElog F.elog.BOOT_PROGRESS_FAIL_STATUS = st ∧ t.log.open_ = true ∧
  t.boot = { s.boot with failedAt := if k = 4 ∨ k = 5 then some 6 else none, links := decide (k = 4 ∨ k = 5) } ∧
  (k ≤ 3 → Pin.faultN ∈ t.outPins)

/-- The parts of the state that a boot stage may touch beside its own work. -/
def bootParts : List Part := .log :: .boot :: .outPins :: eventParts

/-- Every die's unqualified groups find a qualifying spare each (R453). -/
def State.groupsEnough (s : State) : Prop :=
  ∀ d < 2, ((List.range 32).filter fun k => !s.qualifies (34 * d + k)).length ≤ ([34 * d + 32, 34 * d + 33].filter s.qualifies).length

/-- The logical groups of `t` are backed as R453 says: each by its own physical group where that qualifies, otherwise by the lowest-numbered
qualifying spare of the die that no lower group took. -/
def State.groupsMapped (s t : State) : Prop :=
  let phys (d k : Nat) : Nat := t.fget ⟨.seq, 32 * d + k⟩ F.seq.SEQ_PHYS_PHYS_ID
  ∀ d < 2, ∀ k < 32,
    s.qualifies (phys d k) = true ∧ (s.qualifies (34 * d + k) = true → phys d k = 34 * d + k) ∧
    (s.qualifies (34 * d + k) = false → (phys d k = 34 * d + 32 ∨ phys d k = 34 * d + 33) ∧
      (phys d k = 34 * d + 33 → s.qualifies (34 * d + 32) = true → ∃ j < k, phys d j = 34 * d + 32)) ∧
    (∀ j < 32, phys d j = phys d k → j = k) ∧
    t.fget ⟨.seq, 32 * d + k⟩ F.seq.SEQ_FEFF_EFFECTIVE = min (s.measuredOf (phys d k)) (s.recordFmax (phys d k)) % 2 ^ 12

/-- Between `s` and `t` a fatal fault was taken (R458); where one stands already, its cause stands and nothing more happens. -/
def State.fataled (s t : State) (cause : Nat) : Prop :=
  t.fatalNow = true ∧
  (s.fatalNow = false → t.fget (pgCcr 0) F.ccr.FAULT_STAT_FATAL_CAUSE = cause ∧ t.fon pgHst F.hst.HOST_STAT_READY = false ∧
    Pin.faultN ∈ t.outPins ∧ t.pwr.zero = true ∧ (∀ g < 64, t.level g = 0) ∧ bitAt (t.fget (pgCcr 0) F.com.EVT_STAT) 9 = true ∧
    t.running = false ∧ t.agate.job = none ∧ t.host.admitted = [] ∧ t.host.services = [] ∧ t.attic = { s.attic with keys := [] } ∧
    t.net.saks = [] ∧ t.net.rxPn = [] ∧ (∀ k < 16, t.ksState k = if s.ksState k = 2 then 3 else s.ksState k)) ∧
  ∀ p ∈ [Part.pending, .time, .tbase, .uptime], p.same s t

/-- A SITE_CMD of a requester is taken up now (R455). -/
def State.siteReady (s : State) (r : Requester) : Prop :=
  s.reaches r (pgCcr 0) 0x058 = true ∧ s.fon (pgCcr 0) F.ccr.SITE_RESULT_BUSY = false ∧ s.enabled (pgCcr 0) = true

/-- A SITE_CMD has ended with a status (R455, R468). -/
def State.siteReports (t : State) (st : Nat) : Prop :=
  t.fget (pgCcr 0) F.ccr.SITE_RESULT_STATUS = st ∧ t.fon (pgCcr 0) F.ccr.SITE_RESULT_BUSY = false ∧
  bitAt (t.fget (pgCcr 0) F.com.EVT_STAT) 11 = true

/-- Between `s` and `t` a write of the site section began (R455). -/
def State.siteBegun (s t : State) (c : SiteCmd) : Prop :=
  t.boot = { s.boot with site := some c } ∧ t.fon (pgCcr 0) F.ccr.SITE_RESULT_BUSY = true ∧
  RegsOnly [F.ccr.SITE_RESULT_BUSY.key (pgCcr 0)] s t

/-- Between `s` and `t` frame `f` went to the exception ring of port `n` (8: the management port): its first `cut` bytes, then its entry, then
RXQ_HEAD; a full ring discards and counts it (R310, R333). -/
def State.ringed (s t : State) (n : Nat) (f : Frame) (trunc fcs secure : Bool) (reason wire cut : Nat) : Prop :=
  let p := ringPage n
  let size := 2 ^ s.fget p F.eth.RXQ_CFG_LOG2
  let k := s.fget p F.eth.RXQ_HEAD_HEAD % size
  let base := s.fget p F.eth.RXQ_BASE_ADDR
  let bytes := (frameBytes f).take cut
  ((k + 1) % size = s.fget p F.eth.RXQ_TAIL_TAIL % size →
    Counted s t p (if n < 8 then F.eth.RX_NO_ENTRY_COUNT else F.mgt.RX_NO_ENTRY_COUNT) 1 ∧ Only eventParts s t) ∧
  ((k + 1) % size ≠ s.fget p F.eth.RXQ_TAIL_TAIL % size → t.fget p F.eth.RXQ_HEAD_HEAD = (k + 1) % size % 2 ^ 12 ∧
    ∃ img, checkStruct 32 img = .clean img ∧ fieldAt img 0 0 14 = bytes.length % 2 ^ 14 ∧ fieldAt img 0 16 1 = trunc.toNat ∧
      fieldAt img 0 17 1 = fcs.toNat ∧ fieldAt img 0 18 1 = secure.toNat ∧ fieldAt img 0 22 1 = f.tag.isSome.toNat ∧
      (∀ tag, f.tag = some tag → fieldAt img 0 19 3 = tag / 2 ^ 13 % 8) ∧ fieldAt img 0 24 4 = reason ∧ fieldAt img 4 0 16 = min 0xFFFF wire ∧
      (n < 8 → fieldAt img 8 0 64 = s.stamp n F.eth.TS_LAT_RX_LAT / 256 % 2 ^ 64) ∧
      let u := ((s.devWrite .firmware (base + size * 32 + k * 10240) bytes).1.devWrite .firmware (base + 32 * k) (leBytes 32 img)).1
      Only [.regs] u t ∧ RegsOnly [F.eth.RXQ_HEAD_HEAD.key p] u t)

/-- A received frame `a` of port `n` passes MACsec's part of R310 in state `s`: `g` is the frame delivered, `sec` whether it was protected, `v` the
state after its acceptance (R321, R327). -/
def State.accepted (s v : State) (n : Nat) (a : Arrival) (g : Frame) (sec : Bool) : Prop :=
  (s.msOn n = false ∧ g = a.wire ∧ sec = false ∧ v = s) ∨
  (s.msOn n = true ∧ a.prot = none ∧ (a.wire.ety = 0x888E ∨ s.ptpClear n a.wire = true) ∧ g = a.wire ∧ sec = false ∧ v = s) ∨
  (∃ p, s.msOn n = true ∧ a.prot = some p ∧ p.sci = s.fget (pgMs n) F.ms.MS_RX_SCI_SCI ∧ s.fon (pgMs n) (F.ms.MS_SA_RX_VALID p.an) = true ∧
    Store.get 0 s.net.rxPn (4 * n + p.an) < p.pn + s.fget (pgMs n) F.ms.MS_REPLAY_WINDOW ∧ p.icvOk = true ∧ g = p.clear ∧ sec = true ∧
    v = s.msAccept n p)

/-- The row whose effect a valid control frame of a subtype has, for port `n`, header `h` and payload `p` (R322). -/
def ctlRow (n : Fin 8) (h p : Nat) (c : Instr) : Nat → Prop
  | 1 => c = .hello n (BitVec.ofNat 16 (fieldAt p 0 0 16))
  | 2 => c = .heartbeat n (BitVec.ofNat 48 (ctlSender h)) (beatOf p)
  | 3 => c = .probe (n.castLT (by omega)) (BitVec.ofNat 48 (ctlSender h))
  | 4 => c = .probeReply (BitVec.ofNat 48 (ctlSender h))
  | 5 => c = .shedReq n (BitVec.ofNat 48 (ctlSender h)) (BitVec.ofNat 64 (fieldAt p 0 0 64)) (Fin.ofNat 8 (fieldAt p 8 0 3))
  | 6 => c = .shedAck n
  | 7 => c = .shedNak n
  | 8 => c = .powerHint (BitVec.ofNat 48 (ctlSender h)) (Fin.ofNat 32 (fieldAt p 8 0 5))
      (if fieldAt p 8 14 1 = 1 then some (Fin.ofNat 64 (fieldAt p 8 8 6)) else none)
  | _ => False

/-- The row whose effect a Camern packet of a type has (R342). -/
def packetRow (n : Fin 8) (f : Frame) (c : Instr) : Nat → Prop
  | 1 => c = .writePacket n f
  | 2 => c = .readReq n f
  | 3 => c = .readResp n f
  | 4 => c = .ackPacket n f
  | 5 => c = .nackPacket n f
  | 6 => c = .connectPacket n f
  | 7 => c = .accept n f
  | 8 => c = .closePacket n f
  | 9 => c = .closeAck n f
  | _ => False

/-- An epoch word or a gradient stamp, free of errors, with its fields (R219). -/
def wordIs (w step flag layout : Nat) : Prop :=
  checkStruct 8 w = .clean w ∧ fieldAt w 0 0 32 = step ∧ fieldAt w 4 7 1 = flag ∧ fieldAt w 4 8 16 = layout % 2 ^ 16 ∧ fieldAt w 4 24 8 = 0

/-- Between `v` and `t` Oneisor advanced a tally by 1 (R176, R222): its source is of class 11. -/
def State.oneisorTally (v t : State) (d k : Nat) : Prop :=
  t.tally d k = (v.tally d k + 1) % 2 ^ 32 ∧ t.fget (tallyPage d k) (F.tal.SRC_LAST_SRC (k % 256)) / 2 ^ 12 = 11 ∧
  Only [.regs, .agate, .freeCtr] v t ∧
  RegsOnly [(F.tal.COUNT_COUNT (k % 256)).key (tallyPage d k), (F.tal.SRC_LAST_SRC (k % 256)).key (tallyPage d k)] v t

/-- Runs `[lo, hi)` that are not empty, rise and lie apart, all above a bound (`none`: no bound). -/
def runsApart : Option Nat → List (Nat × Nat) → Bool
  | _, [] => true
  | b, (lo, hi) :: m => (match b with | none => true | some x => decide (x < lo)) && decide (lo < hi) && runsApart (some hi) m

/-- The canonical form of the memories the spec gives the block: the Shelves, the Cellar's cells, tags and scrubbed runs, the Attic's
cells, host memory and the blocks sealed into it. -/
def State.memWf (s : State) : Bool :=
  Store.wf 0 s.shelf && Store.wf none s.hostMem && Store.wf none s.tiers.cellar && Store.wf none s.tiers.tags
  && Store.wf none s.attic.cells && Store.wf none s.tiers.sealedBlk && runsApart none s.tiers.scrubs

end Sys2Proof.Machine
end

