-- ==== Sys2Proof/Laws/State.lean ====
section
/-! SUPPORT. What the shared operations leave alone: one lemma for each field of the state and each plain update, one `Only` lemma for each
operation that raises events, and what a register field reads as after it is written. -/

namespace Sys2Proof.Machine

/-! ### Register fields -/

/-- A write of a field leaves a field with another key. -/
theorem State.fget_fput_ne (s : State) {p q : Page} {f g : Fld} (v : Nat) (h : f.key p ≠ g.key q) :
    (s.fput p f v).fget q g = s.fget q g := by
  simp only [State.fget, State.fput]
  exact Store.get_set_ne' _ _ _ _ h

/-- A written field reads as the value cut to its width. -/
@[simp] theorem State.fget_fput_self (s : State) (p : Page) (f : Fld) (v : Nat) : (s.fput p f v).fget p f = v % 2 ^ f.width := by
  simp [State.fget, State.fput]

/-- A field set from a truth value reads as it. -/
theorem State.fon_fset_self (s : State) (p : Page) (f : Fld) (b : Bool) (h : 0 < f.width) : (s.fset p f b).fon p f = b := by
  have h2 : 1 < 2 ^ f.width := Nat.one_lt_two_pow (by omega)
  cases b <;> simp [State.fset, State.fon, Nat.mod_eq_of_lt h2]

/-- A write touches one key of the register store. -/
theorem State.fput_regsOnly (s : State) (p : Page) (f : Fld) (v : Nat) : RegsOnly [f.key p] s (s.fput p f v) := by
  intro k hk d
  simp only [State.fput]
  exact Store.get_set_ne' _ _ _ _ (by simpa [eq_comm] using hk)

/-! ### `Only` as a relation -/

theorem Only.refl (ps : List Part) (s : State) : Only ps s s := by
  intro q _; cases q <;> rfl

theorem Only.trans {ps : List Part} {s t u : State} (h : Only ps s t) (h2 : Only ps t u) : Only ps s u := by
  intro q hq
  have a := h q hq
  have b := h2 q hq
  cases q <;> exact Eq.trans b a

theorem Only.mono {ps qs : List Part} {s t : State} (h : Only ps s t) (hs : ∀ q ∈ ps, q ∈ qs) : Only qs s t :=
  fun q hq => h q fun hp => hq (hs q hp)

/-- A fold of steps each of which touches no more than `ps`. -/
theorem Only.foldl {α : Type} {ps : List Part} (f : State → α → State) (hf : ∀ s a, Only ps s (f s a)) (l : List α) :
    ∀ s, Only ps s (l.foldl f s) := by
  induction l with
  | nil => intro s; exact Only.refl ps s
  | cons a l ih => intro s; exact (hf s a).trans (ih _)

theorem RegsOnly.refl (ks : List Nat) (s : State) : RegsOnly ks s s := fun _ _ _ => rfl

theorem RegsOnly.trans {ks : List Nat} {s t u : State} (h : RegsOnly ks s t) (h2 : RegsOnly ks t u) : RegsOnly ks s u :=
  fun k hk d => (h2 k hk d).trans (h k hk d)

theorem RegsOnly.mono {ks ls : List Nat} {s t : State} (h : RegsOnly ks s t) (hs : ∀ k ∈ ks, k ∈ ls) : RegsOnly ls s t :=
  fun k hk => h k fun hp => hk (hs k hp)

/-- A field whose key is not among those touched reads as before. -/
theorem RegsOnly.fget {ks : List Nat} {s t : State} (h : RegsOnly ks s t) {p : Page} {f : Fld} (hk : f.key p ∉ ks) :
    t.fget p f = s.fget p f := h _ hk _


/-! ### `fput` -/

@[simp] theorem State.fput_pending (s : State) (p : Page) (f : Fld) (v : Nat) : (s.fput p f v).pending = s.pending := rfl
@[simp] theorem State.fput_hub (s : State) (p : Page) (f : Fld) (v : Nat) : (s.fput p f v).hub = s.hub := rfl
@[simp] theorem State.fput_time (s : State) (p : Page) (f : Fld) (v : Nat) : (s.fput p f v).time = s.time := rfl
@[simp] theorem State.fput_tbase (s : State) (p : Page) (f : Fld) (v : Nat) : (s.fput p f v).tbase = s.tbase := rfl
@[simp] theorem State.fput_freeCtr (s : State) (p : Page) (f : Fld) (v : Nat) : (s.fput p f v).freeCtr = s.freeCtr := rfl
@[simp] theorem State.fput_outPins (s : State) (p : Page) (f : Fld) (v : Nat) : (s.fput p f v).outPins = s.outPins := rfl
@[simp] theorem State.fput_out (s : State) (p : Page) (f : Fld) (v : Nat) : (s.fput p f v).out = s.out := rfl
@[simp] theorem State.fput_hostMem (s : State) (p : Page) (f : Fld) (v : Nat) : (s.fput p f v).hostMem = s.hostMem := rfl
@[simp] theorem State.fput_uptime (s : State) (p : Page) (f : Fld) (v : Nat) : (s.fput p f v).uptime = s.uptime := rfl
@[simp] theorem State.fput_log (s : State) (p : Page) (f : Fld) (v : Nat) : (s.fput p f v).log = s.log := rfl
@[simp] theorem State.fput_boot (s : State) (p : Page) (f : Fld) (v : Nat) : (s.fput p f v).boot = s.boot := rfl
@[simp] theorem State.fput_shelf (s : State) (p : Page) (f : Fld) (v : Nat) : (s.fput p f v).shelf = s.shelf := rfl
@[simp] theorem State.fput_tiles (s : State) (p : Page) (f : Fld) (v : Nat) : (s.fput p f v).tiles = s.tiles := rfl
@[simp] theorem State.fput_summaries (s : State) (p : Page) (f : Fld) (v : Nat) : (s.fput p f v).summaries = s.summaries := rfl
@[simp] theorem State.fput_slotHeld (s : State) (p : Page) (f : Fld) (v : Nat) : (s.fput p f v).slotHeld = s.slotHeld := rfl
@[simp] theorem State.fput_slotDone (s : State) (p : Page) (f : Fld) (v : Nat) : (s.fput p f v).slotDone = s.slotDone := rfl
@[simp] theorem State.fput_agate (s : State) (p : Page) (f : Fld) (v : Nat) : (s.fput p f v).agate = s.agate := rfl
@[simp] theorem State.fput_pwr (s : State) (p : Page) (f : Fld) (v : Nat) : (s.fput p f v).pwr = s.pwr := rfl
@[simp] theorem State.fput_host (s : State) (p : Page) (f : Fld) (v : Nat) : (s.fput p f v).host = s.host := rfl
@[simp] theorem State.fput_tiers (s : State) (p : Page) (f : Fld) (v : Nat) : (s.fput p f v).tiers = s.tiers := rfl
@[simp] theorem State.fput_attic (s : State) (p : Page) (f : Fld) (v : Nat) : (s.fput p f v).attic = s.attic := rfl
@[simp] theorem State.fput_onyx (s : State) (p : Page) (f : Fld) (v : Nat) : (s.fput p f v).onyx = s.onyx := rfl
@[simp] theorem State.fput_net (s : State) (p : Page) (f : Fld) (v : Nat) : (s.fput p f v).net = s.net := rfl
@[simp] theorem State.fput_col (s : State) (p : Page) (f : Fld) (v : Nat) : (s.fput p f v).col = s.col := rfl
@[simp] theorem State.fput_slack (s : State) (p : Page) (f : Fld) (v : Nat) : (s.fput p f v).slack = s.slack := rfl
@[simp] theorem State.fput_xpt (s : State) (p : Page) (f : Fld) (v : Nat) : (s.fput p f v).xpt = s.xpt := rfl

/-! ### `fset` -/

@[simp] theorem State.fset_pending (s : State) (p : Page) (f : Fld) (b : Bool) : (s.fset p f b).pending = s.pending := rfl
@[simp] theorem State.fset_hub (s : State) (p : Page) (f : Fld) (b : Bool) : (s.fset p f b).hub = s.hub := rfl
@[simp] theorem State.fset_time (s : State) (p : Page) (f : Fld) (b : Bool) : (s.fset p f b).time = s.time := rfl
@[simp] theorem State.fset_tbase (s : State) (p : Page) (f : Fld) (b : Bool) : (s.fset p f b).tbase = s.tbase := rfl
@[simp] theorem State.fset_freeCtr (s : State) (p : Page) (f : Fld) (b : Bool) : (s.fset p f b).freeCtr = s.freeCtr := rfl
@[simp] theorem State.fset_outPins (s : State) (p : Page) (f : Fld) (b : Bool) : (s.fset p f b).outPins = s.outPins := rfl
@[simp] theorem State.fset_out (s : State) (p : Page) (f : Fld) (b : Bool) : (s.fset p f b).out = s.out := rfl
@[simp] theorem State.fset_hostMem (s : State) (p : Page) (f : Fld) (b : Bool) : (s.fset p f b).hostMem = s.hostMem := rfl
@[simp] theorem State.fset_uptime (s : State) (p : Page) (f : Fld) (b : Bool) : (s.fset p f b).uptime = s.uptime := rfl
@[simp] theorem State.fset_log (s : State) (p : Page) (f : Fld) (b : Bool) : (s.fset p f b).log = s.log := rfl
@[simp] theorem State.fset_boot (s : State) (p : Page) (f : Fld) (b : Bool) : (s.fset p f b).boot = s.boot := rfl
@[simp] theorem State.fset_shelf (s : State) (p : Page) (f : Fld) (b : Bool) : (s.fset p f b).shelf = s.shelf := rfl
@[simp] theorem State.fset_tiles (s : State) (p : Page) (f : Fld) (b : Bool) : (s.fset p f b).tiles = s.tiles := rfl
@[simp] theorem State.fset_summaries (s : State) (p : Page) (f : Fld) (b : Bool) : (s.fset p f b).summaries = s.summaries := rfl
@[simp] theorem State.fset_slotHeld (s : State) (p : Page) (f : Fld) (b : Bool) : (s.fset p f b).slotHeld = s.slotHeld := rfl
@[simp] theorem State.fset_slotDone (s : State) (p : Page) (f : Fld) (b : Bool) : (s.fset p f b).slotDone = s.slotDone := rfl
@[simp] theorem State.fset_agate (s : State) (p : Page) (f : Fld) (b : Bool) : (s.fset p f b).agate = s.agate := rfl
@[simp] theorem State.fset_pwr (s : State) (p : Page) (f : Fld) (b : Bool) : (s.fset p f b).pwr = s.pwr := rfl
@[simp] theorem State.fset_host (s : State) (p : Page) (f : Fld) (b : Bool) : (s.fset p f b).host = s.host := rfl
@[simp] theorem State.fset_tiers (s : State) (p : Page) (f : Fld) (b : Bool) : (s.fset p f b).tiers = s.tiers := rfl
@[simp] theorem State.fset_attic (s : State) (p : Page) (f : Fld) (b : Bool) : (s.fset p f b).attic = s.attic := rfl
@[simp] theorem State.fset_onyx (s : State) (p : Page) (f : Fld) (b : Bool) : (s.fset p f b).onyx = s.onyx := rfl
@[simp] theorem State.fset_net (s : State) (p : Page) (f : Fld) (b : Bool) : (s.fset p f b).net = s.net := rfl
@[simp] theorem State.fset_col (s : State) (p : Page) (f : Fld) (b : Bool) : (s.fset p f b).col = s.col := rfl
@[simp] theorem State.fset_slack (s : State) (p : Page) (f : Fld) (b : Bool) : (s.fset p f b).slack = s.slack := rfl
@[simp] theorem State.fset_xpt (s : State) (p : Page) (f : Fld) (b : Bool) : (s.fset p f b).xpt = s.xpt := rfl

/-! ### `bump` -/

@[simp] theorem State.bump_pending (s : State) (p : Page) (f : Fld) (n : Nat) : (s.bump p f n).pending = s.pending := rfl
@[simp] theorem State.bump_hub (s : State) (p : Page) (f : Fld) (n : Nat) : (s.bump p f n).hub = s.hub := rfl
@[simp] theorem State.bump_time (s : State) (p : Page) (f : Fld) (n : Nat) : (s.bump p f n).time = s.time := rfl
@[simp] theorem State.bump_tbase (s : State) (p : Page) (f : Fld) (n : Nat) : (s.bump p f n).tbase = s.tbase := rfl
@[simp] theorem State.bump_freeCtr (s : State) (p : Page) (f : Fld) (n : Nat) : (s.bump p f n).freeCtr = s.freeCtr := rfl
@[simp] theorem State.bump_outPins (s : State) (p : Page) (f : Fld) (n : Nat) : (s.bump p f n).outPins = s.outPins := rfl
@[simp] theorem State.bump_out (s : State) (p : Page) (f : Fld) (n : Nat) : (s.bump p f n).out = s.out := rfl
@[simp] theorem State.bump_hostMem (s : State) (p : Page) (f : Fld) (n : Nat) : (s.bump p f n).hostMem = s.hostMem := rfl
@[simp] theorem State.bump_uptime (s : State) (p : Page) (f : Fld) (n : Nat) : (s.bump p f n).uptime = s.uptime := rfl
@[simp] theorem State.bump_log (s : State) (p : Page) (f : Fld) (n : Nat) : (s.bump p f n).log = s.log := rfl
@[simp] theorem State.bump_boot (s : State) (p : Page) (f : Fld) (n : Nat) : (s.bump p f n).boot = s.boot := rfl
@[simp] theorem State.bump_shelf (s : State) (p : Page) (f : Fld) (n : Nat) : (s.bump p f n).shelf = s.shelf := rfl
@[simp] theorem State.bump_tiles (s : State) (p : Page) (f : Fld) (n : Nat) : (s.bump p f n).tiles = s.tiles := rfl
@[simp] theorem State.bump_summaries (s : State) (p : Page) (f : Fld) (n : Nat) : (s.bump p f n).summaries = s.summaries := rfl
@[simp] theorem State.bump_slotHeld (s : State) (p : Page) (f : Fld) (n : Nat) : (s.bump p f n).slotHeld = s.slotHeld := rfl
@[simp] theorem State.bump_slotDone (s : State) (p : Page) (f : Fld) (n : Nat) : (s.bump p f n).slotDone = s.slotDone := rfl
@[simp] theorem State.bump_agate (s : State) (p : Page) (f : Fld) (n : Nat) : (s.bump p f n).agate = s.agate := rfl
@[simp] theorem State.bump_pwr (s : State) (p : Page) (f : Fld) (n : Nat) : (s.bump p f n).pwr = s.pwr := rfl
@[simp] theorem State.bump_host (s : State) (p : Page) (f : Fld) (n : Nat) : (s.bump p f n).host = s.host := rfl
@[simp] theorem State.bump_tiers (s : State) (p : Page) (f : Fld) (n : Nat) : (s.bump p f n).tiers = s.tiers := rfl
@[simp] theorem State.bump_attic (s : State) (p : Page) (f : Fld) (n : Nat) : (s.bump p f n).attic = s.attic := rfl
@[simp] theorem State.bump_onyx (s : State) (p : Page) (f : Fld) (n : Nat) : (s.bump p f n).onyx = s.onyx := rfl
@[simp] theorem State.bump_net (s : State) (p : Page) (f : Fld) (n : Nat) : (s.bump p f n).net = s.net := rfl
@[simp] theorem State.bump_col (s : State) (p : Page) (f : Fld) (n : Nat) : (s.bump p f n).col = s.col := rfl
@[simp] theorem State.bump_slack (s : State) (p : Page) (f : Fld) (n : Nat) : (s.bump p f n).slack = s.slack := rfl
@[simp] theorem State.bump_xpt (s : State) (p : Page) (f : Fld) (n : Nat) : (s.bump p f n).xpt = s.xpt := rfl

/-! ### `hostReject` -/

@[simp] theorem State.hostReject_pending (s : State) : (s.hostReject).pending = s.pending := rfl
@[simp] theorem State.hostReject_hub (s : State) : (s.hostReject).hub = s.hub := rfl
@[simp] theorem State.hostReject_time (s : State) : (s.hostReject).time = s.time := rfl
@[simp] theorem State.hostReject_tbase (s : State) : (s.hostReject).tbase = s.tbase := rfl
@[simp] theorem State.hostReject_freeCtr (s : State) : (s.hostReject).freeCtr = s.freeCtr := rfl
@[simp] theorem State.hostReject_outPins (s : State) : (s.hostReject).outPins = s.outPins := rfl
@[simp] theorem State.hostReject_out (s : State) : (s.hostReject).out = s.out := rfl
@[simp] theorem State.hostReject_hostMem (s : State) : (s.hostReject).hostMem = s.hostMem := rfl
@[simp] theorem State.hostReject_uptime (s : State) : (s.hostReject).uptime = s.uptime := rfl
@[simp] theorem State.hostReject_log (s : State) : (s.hostReject).log = s.log := rfl
@[simp] theorem State.hostReject_boot (s : State) : (s.hostReject).boot = s.boot := rfl
@[simp] theorem State.hostReject_shelf (s : State) : (s.hostReject).shelf = s.shelf := rfl
@[simp] theorem State.hostReject_tiles (s : State) : (s.hostReject).tiles = s.tiles := rfl
@[simp] theorem State.hostReject_summaries (s : State) : (s.hostReject).summaries = s.summaries := rfl
@[simp] theorem State.hostReject_slotHeld (s : State) : (s.hostReject).slotHeld = s.slotHeld := rfl
@[simp] theorem State.hostReject_slotDone (s : State) : (s.hostReject).slotDone = s.slotDone := rfl
@[simp] theorem State.hostReject_agate (s : State) : (s.hostReject).agate = s.agate := rfl
@[simp] theorem State.hostReject_pwr (s : State) : (s.hostReject).pwr = s.pwr := rfl
@[simp] theorem State.hostReject_host (s : State) : (s.hostReject).host = s.host := rfl
@[simp] theorem State.hostReject_tiers (s : State) : (s.hostReject).tiers = s.tiers := rfl
@[simp] theorem State.hostReject_attic (s : State) : (s.hostReject).attic = s.attic := rfl
@[simp] theorem State.hostReject_onyx (s : State) : (s.hostReject).onyx = s.onyx := rfl
@[simp] theorem State.hostReject_net (s : State) : (s.hostReject).net = s.net := rfl
@[simp] theorem State.hostReject_col (s : State) : (s.hostReject).col = s.col := rfl
@[simp] theorem State.hostReject_slack (s : State) : (s.hostReject).slack = s.slack := rfl
@[simp] theorem State.hostReject_xpt (s : State) : (s.hostReject).xpt = s.xpt := rfl

/-! ### `draw` -/

@[simp] theorem State.draw_pending (s : State) : (s.draw.2).pending = s.pending := rfl
@[simp] theorem State.draw_regs (s : State) : (s.draw.2).regs = s.regs := rfl
@[simp] theorem State.draw_hub (s : State) : (s.draw.2).hub = s.hub := rfl
@[simp] theorem State.draw_time (s : State) : (s.draw.2).time = s.time := rfl
@[simp] theorem State.draw_tbase (s : State) : (s.draw.2).tbase = s.tbase := rfl
@[simp] theorem State.draw_outPins (s : State) : (s.draw.2).outPins = s.outPins := rfl
@[simp] theorem State.draw_out (s : State) : (s.draw.2).out = s.out := rfl
@[simp] theorem State.draw_hostMem (s : State) : (s.draw.2).hostMem = s.hostMem := rfl
@[simp] theorem State.draw_uptime (s : State) : (s.draw.2).uptime = s.uptime := rfl
@[simp] theorem State.draw_log (s : State) : (s.draw.2).log = s.log := rfl
@[simp] theorem State.draw_boot (s : State) : (s.draw.2).boot = s.boot := rfl
@[simp] theorem State.draw_shelf (s : State) : (s.draw.2).shelf = s.shelf := rfl
@[simp] theorem State.draw_tiles (s : State) : (s.draw.2).tiles = s.tiles := rfl
@[simp] theorem State.draw_summaries (s : State) : (s.draw.2).summaries = s.summaries := rfl
@[simp] theorem State.draw_slotHeld (s : State) : (s.draw.2).slotHeld = s.slotHeld := rfl
@[simp] theorem State.draw_slotDone (s : State) : (s.draw.2).slotDone = s.slotDone := rfl
@[simp] theorem State.draw_agate (s : State) : (s.draw.2).agate = s.agate := rfl
@[simp] theorem State.draw_pwr (s : State) : (s.draw.2).pwr = s.pwr := rfl
@[simp] theorem State.draw_host (s : State) : (s.draw.2).host = s.host := rfl
@[simp] theorem State.draw_tiers (s : State) : (s.draw.2).tiers = s.tiers := rfl
@[simp] theorem State.draw_attic (s : State) : (s.draw.2).attic = s.attic := rfl
@[simp] theorem State.draw_onyx (s : State) : (s.draw.2).onyx = s.onyx := rfl
@[simp] theorem State.draw_net (s : State) : (s.draw.2).net = s.net := rfl
@[simp] theorem State.draw_col (s : State) : (s.draw.2).col = s.col := rfl
@[simp] theorem State.draw_slack (s : State) : (s.draw.2).slack = s.slack := rfl
@[simp] theorem State.draw_xpt (s : State) : (s.draw.2).xpt = s.xpt := rfl

/-! ### Operations that raise events -/

theorem State.fput_only (s : State) (p : Page) (f : Fld) (v : Nat) : Only [.regs] s (s.fput p f v) := by
  intro q hq; cases q <;> first | rfl | exact absurd (by simp) hq

theorem State.hostWrite_only (bs : List Byte) : ∀ (s : State) (a : Nat), Only [.hostMem] s (s.hostWrite a bs) := by
  induction bs with
  | nil => intro s a; exact Only.refl _ s
  | cons b bs ih =>
    intro s a
    refine Only.trans ?_ (ih _ _)
    intro q hq; cases q <;> first | rfl | exact absurd (by simp) hq

theorem State.putIssued_only (s : State) (m a : Nat) (bs : List Byte) : Only eventParts s (s.putIssued m a bs) := by
  refine Only.trans ((State.hostWrite_only bs s a).mono (by simp [eventParts])) ?_
  intro q hq; cases q <;> first | rfl | exact absurd (by simp [eventParts]) hq

theorem State.raiseVector_only (s : State) (m v : Nat) : Only eventParts s (s.raiseVector m v) := by
  unfold State.raiseVector
  split <;> (intro q hq; cases q <;> first | rfl | exact absurd (by simp [eventParts]) hq)

theorem State.setStat_only (s : State) (p : Page) (evs : Nat) (b : Bool) (st d : Nat) : Only [.regs] s (s.setStat p evs b st d) := by
  unfold State.setStat
  dsimp only
  split <;> (intro q hq; cases q <;> first | rfl | exact absurd (by simp) hq)

theorem State.eqPut_only (s : State) (p : Page) : Only eventParts s (s.eqPut p) := by
  unfold State.eqPut
  extract_lets n h s1 s2 hb s3
  have h1 : Only eventParts s s1 := State.putIssued_only s _ _ _
  clear_value s1 n
  have h3 : Only eventParts s s3 := by
    intro q hq
    have := h1 q hq
    cases q <;> first | exact this | exact absurd (by simp [eventParts]) hq
  split
  · exact h3.trans (State.raiseVector_only _ _ _)
  · exact h3

theorem State.report_only (s : State) (p : Page) : Only eventParts s (s.report p) := by
  unfold State.report
  split
  · exact Only.refl _ s
  · split
    · intro q hq; cases q <;> first | rfl | exact absurd (by simp [eventParts]) hq
    · exact State.eqPut_only s p

theorem State.setStat_only' (s : State) (p : Page) (evs : Nat) (b : Bool) (st d : Nat) : Only eventParts s (s.setStat p evs b st d) :=
  (State.setStat_only s p evs b st d).mono (by simp [eventParts])

theorem State.hostEvent_only (s : State) (evs : Nat) : Only eventParts s (s.hostEvent evs) := by
  unfold State.hostEvent
  dsimp only
  split
  · exact (State.setStat_only' s _ _ _ _ _).trans (State.report_only _ _)
  · exact State.setStat_only' s _ _ _ _ _

theorem State.lineRose_only (s : State) (p : Page) : Only eventParts s (s.lineRose p) := by
  unfold State.lineRose
  split
  · exact Only.refl _ s
  · split <;> exact (State.report_only s p).trans (State.hostEvent_only _ _)

theorem State.afterLine_only (s s0 : State) (p : Page) : Only eventParts s (s.afterLine s0 p) := by
  unfold State.afterLine
  split
  · exact State.lineRose_only s p
  · split
    · intro q hq; cases q <;> first | rfl | exact absurd (by simp [eventParts]) hq
    · exact Only.refl _ s

/-- What an event may touch (R38, R385, R386). -/
theorem State.events_only (s : State) (p : Page) (evs st d : Nat) : Only eventParts s (s.events p evs st d) :=
  (State.setStat_only' s _ _ _ _ _).trans (State.afterLine_only _ _ _)

theorem State.event_only (s : State) (p : Page) (b st d : Nat) : Only eventParts s (s.event p b st d) := State.events_only s p _ st d

theorem State.force_only (s : State) (p : Page) (bits : Nat) : Only eventParts s (s.force p bits) :=
  (State.setStat_only' s _ _ _ _ _).trans (State.afterLine_only _ _ _)

theorem State.clearEvents_only (s : State) (p : Page) (bits : Nat) : Only eventParts s (s.clearEvents p bits) := by
  unfold State.clearEvents
  dsimp only
  refine Only.trans ?_ (State.afterLine_only _ _ _)
  split <;> (intro q hq; cases q <;> first | rfl | exact absurd (by simp [eventParts]) hq)

theorem State.discard_only (s : State) (p : Page) (off evs : Nat) : Only eventParts s (s.discard p off evs) := by
  unfold State.discard
  dsimp only
  have h : Only eventParts s (s.bump p (F.com.EVT_CNT 7) 1) := (State.fput_only s _ _ _).mono (by simp [eventParts])
  split
  · exact h
  · exact h.trans (State.events_only _ _ _ _ _)

theorem State.releaseHolds_only (s : State) (r : Requester) : Only [.regs, .hub] s (s.releaseHolds r) := by
  unfold State.releaseHolds
  dsimp only
  split
  · intro q hq; cases q <;> first | rfl | exact absurd (by simp) hq
  · split <;> (intro q hq; cases q <;> first | rfl | exact absurd (by simp) hq)

end Sys2Proof.Machine
end

