-- ==== Sys2Proof/Certificates/Slice0/Obligations.lean ====
section
/-! DEFINITION. The statements for the provers. `Runs c s post` says that the command is carried out in state `s` and that `post` holds of
the next state; `Only` and `RegsOnly` are the frames (Safety.lean). -/

open Sys2Proof Sys2Proof.Machine

def Obligations.PageIndex : Prop :=
  (∀ (p : Page) (o : Nat), p.present = true → o < 0x1000 → pageAt (p.base + o) = some p) ∧
  (∀ (a : Nat) (p : Page), pageAt a = some p → p.present = true ∧ p.base ≤ a ∧ a < p.base + 0x1000)

def Obligations.AccessesTurnedAway : Prop :=
  (∀ (r : Requester) (a : BitVec 26) (s : State), pageAt a.toNat = none → ¬ (0x3000000 ≤ a.toNat ∧ a.toNat < 0x3008100) →
    Store.get none s.hub.held r.key = none →
    Runs (.unassignedAccess r a false) s (fun t => t.out = s.out ++ [Out.read a.toNat [0, 0, 0, 0]] ∧ Only [.out, .hub] s t) ∧
    Runs (.unassignedAccess r a true) s (fun t => t.fget pgHst (F.com.EVT_CNT 7) = min 0xFFFFFFFF (s.fget pgHst (F.com.EVT_CNT 7) + 1) ∧
      Only [.regs, .hub] s t ∧ RegsOnly [(F.com.EVT_CNT 7).key pgHst] s t)) ∧
  (∀ (r : Requester) (a : BitVec 26) (n : Nat) (s : State), aligned a.toNat n = false → Store.get none s.hub.held r.key = none →
    Runs (.unsupportedAccess r a n) s fun t => t.fget pgHst (F.com.EVT_CNT 7) = min 0xFFFFFFFF (s.fget pgHst (F.com.EVT_CNT 7) + 1) ∧
      Only [.regs, .hub] s t ∧ RegsOnly [(F.com.EVT_CNT 7).key pgHst] s t) ∧
  (∀ (r : Requester) (a : BitVec 26) (n b v : Nat) (p : Page) (s : State), aligned a.toNat n = false →
    Store.get none s.hub.held r.key = some (b, v) → pageAt b = some p → p ≠ pgHst →
    Runs (.unsupportedAccess r a n) s fun t => Store.get none t.hub.held r.key = none ∧
      t.fget p (F.com.EVT_CNT 7) = min 0xFFFFFFFF (s.fget p (F.com.EVT_CNT 7) + 1) ∧ Only [.regs, .hub] s t ∧
      RegsOnly [(F.com.EVT_CNT 7).key p, (F.com.EVT_CNT 7).key pgHst] s t) ∧
  (∀ (r : Requester) (p : Page) (o : Nat) (a : BitVec 26) (s : State), p.present = true → s.isolated p = true → o < 0x1000 → o % 4 = 0 →
    a.toNat = p.base + o → Store.get none s.hub.held r.key = none →
    Runs (.isolatedPageAccess r a true) s (fun t =>
      t.fget pgHst (F.com.EVT_CNT 7) = min 0xFFFFFFFF (s.fget pgHst (F.com.EVT_CNT 7) + 1) ∧ Only [.regs, .hub] s t ∧
      RegsOnly [(F.com.EVT_CNT 7).key pgHst] s t) ∧
    (o = 0 → Runs (.isolatedPageAccess r a false) s fun t => ∃ rev < 256, t.out = s.out ++
      [Out.read a.toNat (leBytes 4 (p.ty.code * 2 ^ 20 + 2 ^ 16 + rev * 2 ^ 8 + p.inst % 2 ^ 8))] ∧ Only [.out, .hub] s t) ∧
    (o ≠ 0 → o ≠ 4 → o ≠ 0xC →
      Runs (.isolatedPageAccess r a false) s fun t => t.out = s.out ++ [Out.read a.toNat [0, 0, 0, 0]] ∧ Only [.out, .hub] s t))

def Obligations.SplitAccesses : Prop :=
  (∀ (r : Requester) (a : BitVec 26) (s : State), a.toNat = (Page.mk .tim 0).base + 0x40 → s.reaches r ⟨.tim, 0⟩ 0x40 = true →
    Store.get none s.hub.captured r.key = none →
    Runs (.splitLowRead r a false) s fun t => t.out = s.out ++ [Out.read a.toNat (leBytes 4 (s.time.toNat % 2 ^ 32))] ∧
      Store.get none t.hub.captured r.key = some (a.toNat, s.time.toNat / 2 ^ 32) ∧ Only [.out, .hub] s t) ∧
  (∀ (r : Requester) (a : BitVec 26) (b v : Nat) (s : State), a.toNat = b + 4 → b % 8 = 0 → s.refuses a.toNat = none →
    Store.get none s.hub.captured r.key = some (b, v) → Store.get none s.hub.held r.key = none →
    Runs (.splitLowRead r a false) s fun t => t.out = s.out ++ [Out.read a.toNat (leBytes 4 v)] ∧
      Store.get none t.hub.captured r.key = none ∧ Only [.out, .hub] s t) ∧
  (∀ (r : Requester) (n : Fin 8) (a : BitVec 26) (lo : BitVec 32) (s : State), a.toNat = (pgGl n.val).base + 0x58 →
    s.reaches r (pgGl n.val) 0x58 = true →
    Runs (.splitLowWrite r a lo) s fun t => Store.get none t.hub.held r.key = some (a.toNat, lo.toNat) ∧ Only [.hub] s t) ∧
  (∀ (r : Requester) (n : Fin 8) (a : BitVec 26) (lo hi : BitVec 32) (s : State), a.toNat = (pgGl n.val).base + 0x5C →
    Store.get none s.hub.held r.key = some ((pgGl n.val).base + 0x58, lo.toNat) →
    s.isolated (pgGl n.val) = false → s.resetting (pgGl n.val) = false →
    Runs (.registerWrite r a false (hi.setWidth 64)) s fun t =>
      t.fget (pgGl n.val) F.gl.GL_BASE_TIME_TIME = lo.toNat + 2 ^ 32 * hi.toNat ∧ Store.get none t.hub.held r.key = none ∧
      Only [.regs, .hub] s t ∧ RegsOnly [F.gl.GL_BASE_TIME_TIME.key (pgGl n.val)] s t) ∧
  (∀ (r : Requester) (n : Fin 8) (a : BitVec 26) (v : BitVec 64) (s : State), a.toNat = (pgGl n.val).base + 0x58 →
    s.reaches r (pgGl n.val) 0x58 = true →
    Runs (.registerWrite r a true v) s fun t => t.fget (pgGl n.val) F.gl.GL_BASE_TIME_TIME = v.toNat ∧
      Only [.regs, .hub] s t ∧ RegsOnly [F.gl.GL_BASE_TIME_TIME.key (pgGl n.val)] s t) ∧
  (∀ (r : Requester) (a : BitVec 26) (b v : Nat) (p : Page) (s : State), aligned a.toNat 8 = true → s.refuses a.toNat = none →
    Store.get none s.hub.held r.key = some (b, v) → pageAt b = some p →
    Runs (.splitLowRead r a true) s fun t => Store.get none t.hub.held r.key = none ∧
      t.fget p (F.com.EVT_CNT 7) = min 0xFFFFFFFF (s.fget p (F.com.EVT_CNT 7) + 1) ∧ Only [.regs, .out, .hub] s t ∧
      RegsOnly [(F.com.EVT_CNT 7).key p] s t)

def Obligations.RegisterWrites : Prop :=
  (∀ (r : Requester) (p : Page) (a : BitVec 26) (v : BitVec 32) (s : State), a.toNat = p.base + 0x14 → s.reaches r p 0x14 = true →
    s.fget p F.com.EVT_STAT &&& (2 ^ 32 - 1 - v.toNat) = 0 →
    Runs (.registerWrite r a false (v.setWidth 64)) s fun t => t.fget p F.com.EVT_MASK = v.toNat ∧ Only [.regs, .hub] s t ∧
      RegsOnly [F.com.EVT_MASK.key p] s t) ∧
  (∀ (r : Requester) (a : BitVec 26) (v : BitVec 64) (s : State), a.toNat = pgThr.base + 0x800 → s.reaches r pgThr 0x800 = true →
    v.toNat < 2 ^ 52 → s.fon pgThr F.com.ENABLED = false →
    Runs (.registerWrite r a true v) s fun t => t.fget pgThr F.thr.THR_RING_BASE_ADDR = v.toNat ∧ Only [.regs, .hub] s t ∧
      RegsOnly [F.thr.THR_RING_BASE_ADDR.key pgThr] s t) ∧
  (∀ (r : Requester) (a : BitVec 26) (v : BitVec 64) (s : State), a.toNat = pgThr.base + 0x800 → s.reaches r pgThr 0x800 = true →
    v.toNat < 2 ^ 52 → s.fon pgThr F.com.ENABLED = true → v.toNat ≠ s.fget pgThr F.thr.THR_RING_BASE_ADDR →
    Runs (.registerWrite r a true v) s fun t => t.fget pgThr F.thr.THR_RING_BASE_ADDR = s.fget pgThr F.thr.THR_RING_BASE_ADDR ∧
      bitAt (t.fget pgThr F.com.EVT_STAT) 2 = true ∧
      t.fget pgThr (F.com.EVT_CNT 7) = min 0xFFFFFFFF (s.fget pgThr (F.com.EVT_CNT 7) + 1) ∧
      (s.fon pgThr F.com.CAUSE_VALID = false → t.fon pgThr F.com.CAUSE_VALID = true ∧ t.fget pgThr F.com.CAUSE_FIRST_BIT = 2 ∧
        t.fon pgThr F.com.CAUSE_FORCED = false ∧ t.fget pgThr F.com.CAUSE_DETAIL = 0x800) ∧ Only eventParts s t) ∧
  (∀ (r : Requester) (a : BitVec 26) (v : BitVec 64) (s : State), a.toNat = pgThr.base + 0x800 → s.reaches r pgThr 0x800 = true →
    2 ^ 52 ≤ v.toNat →
    Runs (.registerWrite r a true v) s fun t => t.fget pgThr F.thr.THR_RING_BASE_ADDR = s.fget pgThr F.thr.THR_RING_BASE_ADDR ∧
      bitAt (t.fget pgThr F.com.EVT_STAT) 0 = true ∧
      t.fget pgThr (F.com.EVT_CNT 7) = min 0xFFFFFFFF (s.fget pgThr (F.com.EVT_CNT 7) + 1) ∧ Only eventParts s t) ∧
  (∀ (r : Requester) (p : Page) (a : BitVec 26) (w : BitVec 32) (s : State), p.present = true → a.toNat = p.base + 8 →
    s.heldLow r a.toNat = none → w.toNat % 4 = 1 →
    exec (.registerWrite r a false (w.setWidth 64)) s = exec (.enable r p w) s)

def Obligations.BlockControl : Prop :=
  (∀ (r : Requester) (p : Page) (s : State), s.reaches r p 0x008 = true → s.fget p F.com.VERSION_SELECT = 1 →
    Runs (.enable r p 0x11#32) s (fun t => t.fon p F.com.ENABLE = true ∧ t.fon p F.com.ENABLED = true ∧
      t.fget p F.com.VERSION_SELECT = 1 ∧ Only [.regs, .hub] s t ∧
      RegsOnly [F.com.ENABLE.key p, F.com.ENABLED.key p, F.com.VERSION_SELECT.key p] s t) ∧
    Runs (.disable r p 0x10#32) s (fun t => t.fon p F.com.ENABLE = false ∧ t.fget p F.com.ENABLED = s.fget p F.com.ENABLED ∧
      t.fget p F.com.VERSION_SELECT = 1 ∧ Only [.regs, .hub] s t ∧ RegsOnly [F.com.ENABLE.key p, F.com.VERSION_SELECT.key p] s t)) ∧
  (∀ (r : Requester) (p : Page) (w : BitVec 32) (s : State), s.reaches r p 0x008 = true → w.toNat % 4 = 1 → w.toNat / 16 % 16 ≠ 1 →
    p ≠ pgHst →
    Runs (.enable r p w) s fun t => t.fget p F.com.ENABLE = s.fget p F.com.ENABLE ∧
      t.fget p F.com.VERSION_SELECT = s.fget p F.com.VERSION_SELECT ∧ bitAt (t.fget p F.com.EVT_STAT) 1 = true ∧
      t.fget p (F.com.EVT_CNT 7) = min 0xFFFFFFFF (s.fget p (F.com.EVT_CNT 7) + 1) ∧ Only eventParts s t) ∧
  (∀ (p : Page) (s : State), p.present = true → s.enabled p = false → s.stillWorks p = false →
    Runs (.enabledCleared p) s fun t => t.fon p F.com.ENABLED = false ∧ Only [.regs] s t ∧ RegsOnly [F.com.ENABLED.key p] s t) ∧
  (∀ (r : Requester) (p : Page) (s : State), s.reaches r p 0x008 = true → s.fget p F.com.VERSION_SELECT = 1 →
    Runs (.softReset r p 0x12#32) s fun t => t.resetting p = true ∧ t.fget p F.com.ENABLE = 0 ∧ t.fget p F.com.ENABLED = 0 ∧
      t.fget p F.com.EVT_STAT = 0 ∧ t.fget p F.com.EVT_MASK = 0xFFFFFFFF ∧
      (p.ty ∈ [PageType.lnk, .ops, .dom, .wake, .tim, .slot, .elog, .cong, .ctx, .cel, .rgn, .tal, .ccr, .mxe, .vec, .net, .seam] →
        t.fget p F.com.VERSION_SELECT = 1 ∧ (∀ k < 8, t.fget p (F.com.EVT_CNT k) = s.fget p (F.com.EVT_CNT k)) ∧
        Only [.regs, .hub] s t ∧ PageOnly p s t)) ∧
  (∀ (p : Page) (s : State), p.present = true → s.resetting p = true → s.resetWaits p = false → p ≠ pgHst →
    Runs (.resetDone p) s fun t => t.resetting p = false ∧ bitAt (t.fget p F.com.EVT_STAT) 3 = true ∧ Only eventParts s t)

def Obligations.EventRegisters : Prop :=
  (∀ (r : Requester) (p : Page) (bits : BitVec 32) (s : State), s.reaches r p 0x018 = true → p ≠ pgHst →
    Runs (.evtForce r p bits) s fun t =>
      t.fget p F.com.EVT_STAT = (s.fget p F.com.EVT_STAT ||| (bits.toNat &&& definedEvents p)) % 2 ^ 32 ∧
      (∀ k < 8, t.fget p (F.com.EVT_CNT k) = s.fget p (F.com.EVT_CNT k)) ∧
      (s.fon p F.com.CAUSE_VALID = true → t.fget p F.com.CAUSE_FIRST_BIT = s.fget p F.com.CAUSE_FIRST_BIT) ∧
      (∀ k < 32, s.fon p F.com.CAUSE_VALID = false → bitAt (bits.toNat &&& definedEvents p) k = true →
        (∀ j < k, bitAt (bits.toNat &&& definedEvents p) j = false) →
        t.fon p F.com.CAUSE_VALID = true ∧ t.fon p F.com.CAUSE_FORCED = true ∧ t.fget p F.com.CAUSE_FIRST_BIT = k ∧
        t.fget p F.com.CAUSE_STATUS = 0) ∧ Only eventParts s t) ∧
  (∀ (r : Requester) (p : Page) (bits : BitVec 32) (s : State), p.present = true → s.isolated p = false →
    (coreOnly p 0x010 = true → r.isCore = true) → Store.get none s.hub.held r.key = none →
    s.fget p F.com.EVT_STAT &&& (2 ^ 32 - 1 - s.fget p F.com.EVT_MASK) &&& (2 ^ 32 - 1 - bits.toNat) = 0 →
    Runs (.evtClear r p bits) s fun t => t.fget p F.com.EVT_STAT = s.fget p F.com.EVT_STAT &&& (2 ^ 32 - 1 - bits.toNat) ∧
      (t.fget p F.com.EVT_STAT = 0 → t.fon p F.com.CAUSE_VALID = false) ∧
      (t.fget p F.com.EVT_STAT ≠ 0 → t.fget p F.com.CAUSE_VALID = s.fget p F.com.CAUSE_VALID) ∧ Only [.regs, .hub] s t ∧
      RegsOnly [F.com.EVT_STAT.key p, F.com.CAUSE_VALID.key p] s t) ∧
  (∀ (r : Requester) (p : Page) (sat : Bool) (f : Fld) (s : State), posValid p.ty sat = some f → s.isolated p = false →
    Store.get none s.hub.held r.key = none →
    Runs (.nfRecordClear r p sat) s fun t => t.fon p f = false ∧ Only [.regs, .hub] s t ∧ RegsOnly [f.key p] s t)

def Obligations.EventRing : Prop :=
  (∀ (r : Requester) (p : Page) (bits : BitVec 32) (s : State), s.reaches r p 0x018 = true → p ≠ pgHst → s.routed p = true →
    s.lineHigh p = false → (s.force p bits.toNat).lineHigh p = true → s.eqFull = false → s.routed pgHst = false →
    s.fon pgHst F.hst.EQ_CFG_IRQ_EN = false →
    Runs (.evtForce r p bits) s fun t =>
      (∀ k < 32, Store.get none t.hostMem (s.fget pgHst F.hst.EQ_BASE_ADDR
          + 32 * (s.fget pgHst F.hst.EQ_HEAD_HEAD % 2 ^ s.fget pgHst F.hst.EQ_CFG_LOG2) + k)
        = (leBytes 32 (((s.releaseHolds r).setStat p (bits.toNat &&& definedEvents p) true 0 0).eventRecord p))[k]?) ∧
      (∀ a, (a < s.fget pgHst F.hst.EQ_BASE_ADDR + 32 * (s.fget pgHst F.hst.EQ_HEAD_HEAD % 2 ^ s.fget pgHst F.hst.EQ_CFG_LOG2) ∨
          s.fget pgHst F.hst.EQ_BASE_ADDR + 32 * (s.fget pgHst F.hst.EQ_HEAD_HEAD % 2 ^ s.fget pgHst F.hst.EQ_CFG_LOG2) + 32 ≤ a) →
        Store.get none t.hostMem a = Store.get none s.hostMem a) ∧
      t.fget pgHst F.hst.EQ_HEAD_HEAD = (s.fget pgHst F.hst.EQ_HEAD_HEAD + 1) % 2 ^ s.fget pgHst F.hst.EQ_CFG_LOG2 % 2 ^ 12 ∧
      t.hub.eqSeq = (s.hub.eqSeq + 1) % 2 ^ 32 ∧ Only eventParts s t) ∧
  (∀ (r : Requester) (p : Page) (bits : BitVec 32) (s : State), s.reaches r p 0x018 = true → p ≠ pgHst → s.routed p = true →
    s.lineHigh p = false → (s.force p bits.toNat).lineHigh p = true → s.eqFull = true → s.routed pgHst = false →
    Runs (.evtForce r p bits) s fun t => t.fget pgHst F.hst.EQ_HEAD_HEAD = s.fget pgHst F.hst.EQ_HEAD_HEAD ∧
      t.fget pgHst F.hst.EQ_OVERFLOW_COUNT
        = min (2 ^ F.hst.EQ_OVERFLOW_COUNT.width - 1) (s.fget pgHst F.hst.EQ_OVERFLOW_COUNT + 1) ∧
      p.base ∈ t.hub.unreported ∧ t.hostMem = s.hostMem ∧ Only eventParts s t) ∧
  (∀ (r : Requester) (tail : BitVec 12) (s : State), s.reaches r pgHst 0x58 = true → s.hub.unreported = [] →
    Runs (.eqTailWrite r tail) s fun t => t.fget pgHst F.hst.EQ_TAIL_TAIL = tail.toNat ∧ Only [.regs, .hub] s t ∧
      RegsOnly [F.hst.EQ_TAIL_TAIL.key pgHst] s t)

def Obligations.MatrixQueue : Prop :=
  (∀ (k : Fin 256) (o : TileOp) (rest : List TileOp) (s : State), (s.tile k).queue = o :: rest → o.held = false →
    s.fon (tilPage k) F.com.ENABLE = true →
    ((s.tile k).interlocked k o.desc = false →
      Runs (.mxeOpStart k) s fun t =>
        t.tile k = { s.tile k with queue := rest, started := (s.tile k).started ++ [⟨o.desc, startPhase o.desc, false, false⟩] } ∧
        t.fget (tilPage k) F.til.MXE_STAT_QUEUED = rest.length % 2 ^ F.til.MXE_STAT_QUEUED.width ∧
        Only [.regs, .tiles] s t ∧ RegsOnly (tileShown k) s t ∧ TileOnly k s t) ∧
    ((s.tile k).interlocked k o.desc = true → o.waited = false →
      Runs (.mxeOpStart k) s fun t =>
        t.tile k = { s.tile k with queue := { o with waited := true } :: rest } ∧
        t.fget (tilPage k) (F.com.EVT_CNT 6) = min 0xFFFFFFFF (s.fget (tilPage k) (F.com.EVT_CNT 6) + 1) ∧
        Only [.regs, .tiles] s t ∧ RegsOnly ((F.com.EVT_CNT 6).key (tilPage k) :: tileShown k) s t ∧ TileOnly k s t)) ∧
  (∀ (k : Fin 256) (r : TileRun) (rest : List TileRun) (s : State), (s.tile k).started = r :: rest → r.phase = .signal →
    Runs (.mxeSignal k) s fun t => t.tile k = { s.tile k with started := { r with phase := .ready } :: rest } ∧
      Only [.regs, .tiles] s t ∧ RegsOnly (tileShown k) s t ∧ TileOnly k s t) ∧
  (∀ (k : Fin 256) (r : TileRun) (before rest : List TileRun) (s : State), (s.tile k).started = before ++ r :: rest →
    (∀ b ∈ before, b.phase ≠ .ready) → r.phase = .ready →
    Runs (.tileOpComplete k) s fun t => t.tile k = { s.tile k with started := before ++ rest } ∧
      t.fget (tilPage k) F.til.MXE_LAST_STATUS = (if r.nf then 0x0B else if r.sat then 0x0A else 0) ∧
      t.fget (tilPage k) F.til.MXE_LAST_OPCODE = descOpcode r.desc % 2 ^ F.til.MXE_LAST_OPCODE.width ∧
      t.fget (tilPage k) F.til.MXE_LAST_OPID_OP_ID = descOpId r.desc ∧
      t.fget (tilPage k) F.til.MXE_OPS_COUNT = min (2 ^ F.til.MXE_OPS_COUNT.width - 1) (s.fget (tilPage k) F.til.MXE_OPS_COUNT + 1) ∧
      (descTallyEn r.desc = true → ⟨k / 128, descTally r.desc, 1, srcCode 1 k⟩ ∈ t.agate.notices) ∧
      (descTallyEn r.desc = false → r.nf = false → r.sat = false → t.agate = s.agate) ∧
      Only [.regs, .tiles, .agate] s t ∧ TileOnly k s t ∧
      RegsOnly (tileShown k ++ [F.til.MXE_LAST_STATUS, F.til.MXE_LAST_OPCODE, F.til.MXE_LAST_OPID_OP_ID, F.til.MXE_OPS_COUNT,
        F.com.EVT_CNT 4, F.com.EVT_CNT 5].map (Fld.key (tilPage k)) ++ [F.com.EVT_CNT 0, F.com.EVT_CNT 1].map (Fld.key (mxePage k))) s t)

def Obligations.AccumulatorSets : Prop :=
  (∀ (k : Fin 256) (i x : Nat) (r : TileRun) (s : State), (s.tile k).atArray = some (i, r) → (s.tile k).activeSet = some x →
    (r.phase = .clear →
      Runs (.clearAcc k) s fun t => t.tile k = ((s.tile k).putSet x { st := .active }).putRun i { r with phase := .ready } ∧
        Only [.regs, .tiles] s t ∧ RegsOnly (tileShown k) s t ∧ TileOnly k s t) ∧
    (r.phase = .reach →
      Runs (.drain k) s fun t => t.tile k = (s.tile k).putRun i { r with phase := .handover } ∧
        Only [.regs, .tiles] s t ∧ RegsOnly (tileShown k) s t ∧ TileOnly k s t) ∧
    (r.phase = .handover →
      Runs (.drainHandover k) s fun t =>
        (t.tile k).set x = { (s.tile k).set x with st := .pending } ∧
        (((s.tile k).set (1 - x)).st = .free → (t.tile k).set (1 - x) = { (s.tile k).set (1 - x) with st := .active }) ∧
        (((s.tile k).set (1 - x)).st ≠ .free → (t.tile k).set (1 - x) = (s.tile k).set (1 - x)) ∧
        (t.tile k).started = (s.tile k).started.set i { r with phase := .pending x } ∧
        { t.tile k with set0 := (s.tile k).set0, set1 := (s.tile k).set1, started := (s.tile k).started } = s.tile k ∧
        Only [.regs, .tiles] s t ∧ RegsOnly (tileShown k) s t ∧ TileOnly k s t)) ∧
  (∀ (k : Fin 256) (x : Nat) (r : TileRun) (before rest : List TileRun) (s : State), (s.tile k).started = before ++ r :: rest →
    (∀ b ∈ before, b.phase ≠ .convert ∧ ∀ y, b.phase ≠ .pending y) → r.phase = .pending x → (s.tile k).set0.st ≠ .draining →
    (s.tile k).set1.st ≠ .draining →
    Runs (.converterTakeSet k) s fun t => t.tile k = { (s.tile k).putSet x { (s.tile k).set x with st := .draining } with
        started := before ++ { r with phase := .drain x } :: rest } ∧
      Only [.regs, .tiles] s t ∧ RegsOnly (tileShown k) s t ∧ TileOnly k s t)

def Obligations.MatrixProducts : Prop :=
  (∀ (k : Fin 256) (op i x : Nat) (r : TileRun) (s : State), op = opMma ∨ op = opMmaDrain → (s.tile k).atArray = some (i, r) →
    r.phase = .accum 0 → descOpcode r.desc = op → (s.tile k).activeSet = some x → TD.clear r.desc = true →
    TD.aFmt r.desc = fmtINT8 → TD.bFmt r.desc = fmtINT8 → TD.aT r.desc = false → TD.bT r.desc = false → TD.cols r.desc ≤ 64 →
    Runs (if op = opMma then .mma k else .mmaDrain k) s fun t =>
      (∀ y < TD.rows r.desc, ∀ z < TD.cols r.desc,
        (Store.get {} ((t.tile k).set x).elems (y * 64 + z)).hh = ((List.range (64 * TD.kblk r.desc)).map fun j =>
          (Store.get 0 s.shelf (shelfTile (TD.aBase r.desc) * 2 ^ 21 + shelfOff (TD.aBase r.desc)
            + (y * TD.aStride r.desc + j / 64) * 64 + j % 64)).toInt *
          (Store.get 0 s.shelf (shelfTile (TD.bBase r.desc) * 2 ^ 21 + shelfOff (TD.bBase r.desc)
            + (z * TD.bStride r.desc + j / 64) * 64 + j % 64)).toInt).sum ∧
        (Store.get {} ((t.tile k).set x).elems (y * 64 + z)).nan = false) ∧
      ((t.tile k).set x).st = .active ∧ ((t.tile k).set x).fmts = some (fmtINT8, fmtINT8) ∧ ((t.tile k).set x).blks = TD.kblk r.desc ∧
      (t.tile k).set (1 - x) = (s.tile k).set (1 - x) ∧
      (t.tile k).started = (s.tile k).started.set i { r with phase := if op = opMma then .ready else .handover } ∧
      { t.tile k with set0 := (s.tile k).set0, set1 := (s.tile k).set1, started := (s.tile k).started } = s.tile k ∧
      t.fget (tilPage k) F.til.MXE_PRODUCTS_COUNT = min (2 ^ F.til.MXE_PRODUCTS_COUNT.width - 1)
        (s.fget (tilPage k) F.til.MXE_PRODUCTS_COUNT + 64 * TD.kblk r.desc * TD.rows r.desc * TD.cols r.desc) ∧
      Only [.regs, .tiles] s t ∧ TileOnly k s t ∧
      RegsOnly (tileShown k ++ [F.til.MXE_ARRAY_CYC_COUNT, F.til.MXE_PRODUCTS_COUNT].map (Fld.key (tilPage k))) s t) ∧
  (∀ (k : Fin 256) (i n x : Nat) (r : TileRun) (s : State), (s.tile k).atArray = some (i, r) → r.phase = .accum n →
    n < totalSteps r.desc → (s.tile k).activeSet = some x → TD.cols r.desc ≤ 64 →
    Runs (.reductionStepEnter k) s fun t =>
      (∀ y < TD.rows r.desc, ∀ z < TD.cols r.desc, Store.get {} ((t.tile k).set x).elems (y * 64 + z)
        = (Store.get {} (((s.tile k).set x).opened r.desc n).elems (y * 64 + z)).product (TD.aFmt r.desc) (TD.bFmt r.desc)
          (s.operandAt (TD.aBase r.desc) (TD.aExp r.desc) (TD.aStride r.desc) (TD.aFmt r.desc) (TD.aT r.desc) y n)
          (s.operandAt (TD.bBase r.desc) (TD.bExp r.desc) (TD.bStride r.desc) (TD.bFmt r.desc) (TD.bT r.desc) z n)) ∧
      (t.tile k).set (1 - x) = (s.tile k).set (1 - x) ∧
      (t.tile k).started = (s.tile k).started.set i
        { r with phase := if n + 1 = totalSteps r.desc then afterSteps r.desc else .accum (n + 1) } ∧
      Only [.regs, .tiles] s t ∧ TileOnly k s t) ∧
  (∀ (k : Fin 256) (i n : Nat) (r : TileRun) (s : State), (s.tile k).atArray = some (i, r) → r.phase = .accum n →
    n < totalSteps r.desc → (s.tile k).activeSet = none →
    ∀ c, c = Instr.reductionStepEnter k ∨ (c = .mma k ∧ descOpcode r.desc = opMma) ∨ (c = .mmaDrain k ∧ descOpcode r.desc = opMmaDrain) →
      Runs c s fun t => t.fget (tilPage k) F.til.MXE_WAIT_CYC_COUNT
          = min (2 ^ F.til.MXE_WAIT_CYC_COUNT.width - 1) (s.fget (tilPage k) F.til.MXE_WAIT_CYC_COUNT + 1) ∧
        Only [.regs] s t ∧ RegsOnly [F.til.MXE_WAIT_CYC_COUNT.key (tilPage k)] s t)

def Obligations.MatrixOutput : Prop :=
  (∀ (k : Fin 256) (x : Nat) (r : TileRun) (before rest : List TileRun) (s : State), (s.tile k).started = before ++ r :: rest →
    (∀ b ∈ before, ∀ y, b.phase ≠ .drain y) → r.phase = .drain x → x < 2 → ((s.tile k).set x).fmts = some (fmtINT8, fmtINT8) →
    TD.cFmt r.desc = fmtINT32 → TD.cT r.desc = false → TD.rowstat r.desc = false → TD.ditherOn r.desc = false → TD.scale r.desc = 0 →
    0 < TD.cStride r.desc → TD.cols r.desc ≤ 64 →
    (∀ y < TD.rows r.desc, ∀ z < TD.cols r.desc, ∃ h : Int, -(2 ^ 31) ≤ h ∧ h < 2 ^ 31 ∧
      ∃ m l, Store.get {} ((s.tile k).set x).elems (y * 64 + z) = ⟨false, some 0, h, m, l⟩) →
    Runs (.setFree k) s fun t =>
      (∀ y < TD.rows r.desc, ∀ z < TD.cols r.desc, ∀ j < 4,
        Store.get 0 t.shelf (shelfTile (TD.cBase r.desc) * 2 ^ 21 + shelfOff (TD.cBase r.desc) + y * TD.cStride r.desc * 256 + 4 * z + j)
          = BitVec.ofNat 8 (unsignedOf 32 (Store.get {} ((s.tile k).set x).elems (y * 64 + z)).hh / 2 ^ (8 * j))) ∧
      (∀ a, (∀ y < TD.rows r.desc, ¬ (shelfTile (TD.cBase r.desc) * 2 ^ 21 + shelfOff (TD.cBase r.desc) + y * TD.cStride r.desc * 256 ≤ a ∧
          a < shelfTile (TD.cBase r.desc) * 2 ^ 21 + shelfOff (TD.cBase r.desc) + y * TD.cStride r.desc * 256 + 4 * TD.cols r.desc)) →
        Store.get 0 t.shelf a = Store.get 0 s.shelf a) ∧
      t.tile k = { (s.tile k).putSet x { st := if (s.tile k).activeSet.isNone then .active else .free } with
        started := before ++ { r with phase := .ready, nf := false, sat := false } :: rest } ∧
      Only [.regs, .tiles, .shelf] s t ∧ TileOnly k s t ∧ RegsOnly (tileShown k) s t) ∧
  (∀ (k : Fin 256) (r : TileRun) (rest : List TileRun) (s : State), (s.tile k).started = r :: rest → r.phase = .convert →
    (s.tile k).converterIdle = true → TD.kblk r.desc ≤ TD.cStride r.desc →
    (descOpcode r.desc = opConvert → TD.cFmt r.desc = fmtINT8 →
      Runs (.convertT k) s fun t =>
        (∀ y < TD.rows r.desc, ∀ b < TD.kblk r.desc, ∀ j < 64,
          Store.get 0 t.shelf (shelfTile (TD.cBase r.desc) * 2 ^ 21 + shelfOff (TD.cBase r.desc) + (y * TD.cStride r.desc + b) * 64 + j)
            = BitVec.ofInt 8 (if TD.pitch r.desc ≤ 64 * b + j then 0 else
                (fpToInt 8 (TD.scale r.desc) (TD.rounding r.desc) (TD.origin r.desc + y * TD.pitch r.desc + (64 * b + j))
                  ((s.sourceWords r.desc y b)[j]?.getD 0)).1)) ∧
        (∀ a, (∀ y < TD.rows r.desc, ¬ (shelfTile (TD.cBase r.desc) * 2 ^ 21 + shelfOff (TD.cBase r.desc) + y * TD.cStride r.desc * 64 ≤ a ∧
            a < shelfTile (TD.cBase r.desc) * 2 ^ 21 + shelfOff (TD.cBase r.desc) + (y * TD.cStride r.desc + TD.kblk r.desc) * 64)) →
          Store.get 0 t.shelf a = Store.get 0 s.shelf a) ∧
        (∃ nf sat, t.tile k = { s.tile k with started := { r with phase := .ready, nf := nf, sat := sat } :: rest }) ∧
        Only ([.tiles, .shelf] ++ eventParts) s t ∧ TileOnly k s t) ∧
    (descOpcode r.desc = opExpand → TD.aFmt r.desc = fmtINT8 →
      Runs (.expandT k) s fun t =>
        (∀ y < TD.rows r.desc, ∀ b < TD.kblk r.desc, ∀ j < 64, ∀ n < 4,
          Store.get 0 t.shelf (shelfTile (TD.cBase r.desc) * 2 ^ 21 + shelfOff (TD.cBase r.desc) + (y * TD.cStride r.desc + b) * 256 + 4 * j + n)
            = BitVec.ofNat 8 ((fpRound (Store.get 0 s.shelf (shelfTile (TD.aBase r.desc) * 2 ^ 21 + shelfOff (TD.aBase r.desc)
                + (y * TD.aStride r.desc + b) * 64 + j)).toInt (TD.scale r.desc)).toNat / 2 ^ (8 * n))) ∧
        (∀ a, (∀ y < TD.rows r.desc, ¬ (shelfTile (TD.cBase r.desc) * 2 ^ 21 + shelfOff (TD.cBase r.desc) + y * TD.cStride r.desc * 256 ≤ a ∧
            a < shelfTile (TD.cBase r.desc) * 2 ^ 21 + shelfOff (TD.cBase r.desc) + (y * TD.cStride r.desc + TD.kblk r.desc) * 256)) →
          Store.get 0 t.shelf a = Store.get 0 s.shelf a) ∧
        (∃ nf sat, t.tile k = { s.tile k with started := { r with phase := .ready, nf := nf, sat := sat } :: rest }) ∧
        Only ([.tiles, .shelf] ++ eventParts) s t ∧ TileOnly k s t))

def Obligations.LaneFloatArithmetic : Prop :=
  ∀ (k : Fin 256) (w : Nat) (r : VecRun) (s : State), s.atInstr k w r →
    let u := s.tile k
    let gives (f : Nat → Word) (t : State) : Prop := ∃ u', Issued [] s t k r u' (gatedNf u w f) false ∧ LaneResult u u' w f
    let two (f : Word → Word → Word) : State → Prop := gives fun l => f (u.srcA w l) (u.srcB w l)
    let one (f : Word → Word) : State → Prop := gives fun l => f (u.srcA w l)
    (VI.op w = 0x01 → Runs (.fadd k) s (two fpAdd)) ∧ (VI.op w = 0x02 → Runs (.fsub k) s (two fpSub)) ∧
    (VI.op w = 0x03 → Runs (.fmul k) s (two fpMul)) ∧ (VI.op w = 0x05 → Runs (.fmax k) s (two fpMax)) ∧
    (VI.op w = 0x06 → Runs (.fmin k) s (two fpMin)) ∧
    (VI.op w = 0x04 → Runs (.fma k) s (gives fun l => fpFma (u.srcA w l) (u.srcB w l) (u.lane (VI.imm w % 32) l))) ∧
    (VI.op w = 0x07 → Runs (.fabs k) s (one fun x => if fpIsNaN x then 0x7FC00000#32 else x &&& 0x7FFFFFFF#32)) ∧
    (VI.op w = 0x08 → Runs (.fneg k) s (one fun x => if fpIsNaN x then 0x7FC00000#32 else x ^^^ 0x80000000#32)) ∧
    (VI.op w = 0x09 → Runs (.fscale k) s (one fun x => fpScale x (BitVec.ofNat 32 (VI.imm w)).toInt)) ∧
    (VI.op w = 0x0A → Runs (.fsqrt k) s (one fpSqrt)) ∧ (VI.op w = 0x0B → Runs (.frcp k) s (one fpRecip)) ∧
    (VI.op w = 0x0C → Runs (.frsqrt k) s (one fpRsqrt))

def Obligations.LaneIntegerAndBits : Prop :=
  ∀ (k : Fin 256) (w : Nat) (r : VecRun) (s : State), s.atInstr k w r →
    let u := s.tile k
    let bits (f : Nat → Word) (t : State) : Prop := ∃ u', Issued [] s t k r u' false false ∧ LaneResult u u' w f
    let clamped (f : Int → Int → Int) (t : State) : Prop :=
      let x (l : Nat) : Int := f (u.srcA w l).toInt (u.srcB w l).toInt
      ∃ u', Issued [] s t k r u' false ((List.range 128).any fun l => u.gate w l && (x l < -(2 ^ 31) || 2 ^ 31 ≤ x l)) ∧
        LaneResult u u' w fun l => BitVec.ofInt 32 (max (-(2 ^ 31)) (min (2 ^ 31 - 1) (x l)))
    (VI.op w = 0x10 → Runs (.iadd k) s (clamped (· + ·))) ∧ (VI.op w = 0x11 → Runs (.isub k) s (clamped (· - ·))) ∧
    (VI.op w = 0x12 → Runs (.imul k) s (clamped (· * ·))) ∧
    (VI.op w = 0x13 → Runs (.andV k) s (bits fun l => u.srcA w l &&& u.srcB w l)) ∧
    (VI.op w = 0x14 → Runs (.orV k) s (bits fun l => u.srcA w l ||| u.srcB w l)) ∧
    (VI.op w = 0x15 → Runs (.xorV k) s (bits fun l => u.srcA w l ^^^ u.srcB w l)) ∧
    (VI.op w = 0x16 → Runs (.shl k) s (bits fun l => u.srcA w l <<< ((u.srcB w l).toNat % 32))) ∧
    (VI.op w = 0x17 → Runs (.shra k) s (bits fun l => (u.srcA w l).sshiftRight ((u.srcB w l).toNat % 32))) ∧
    (VI.op w = 0x27 → Runs (.selV k) s (bits fun l => if u.predLane (VI.imm w % 8) l then u.srcA w l else u.srcB w l)) ∧
    (VI.op w = 0x28 → Runs (.movV k) s (bits (u.srcB w))) ∧ (VI.op w = 0x29 → Runs (.laneid k) s (bits (BitVec.ofNat 32))) ∧
    (VI.op w = 0x18 → Runs (.cvtif k) s fun t =>
      let f (l : Nat) : Word := fpRound (u.srcA w l).toInt (VI.s8 w)
      ∃ u', Issued [] s t k r u' (gatedNf u w f) false ∧ LaneResult u u' w f) ∧
    (VI.op w = 0x19 → Runs (.cvtfi k) s fun t =>
      let x (l : Nat) : Int × Bool × Bool := fpToInt 32 (VI.s8 w) .nearest 0 (u.srcA w l)
      ∃ u', Issued [] s t k r u' ((List.range 128).any fun l => u.gate w l && (x l).2.1) ((List.range 128).any fun l => u.gate w l && (x l).2.2) ∧
        LaneResult u u' w fun l => BitVec.ofInt 32 (x l).1)

def Obligations.PredicateInstructions : Prop :=
  ∀ (k : Fin 256) (w : Nat) (r : VecRun) (s : State), s.atInstr k w r → VI.vd w < 8 →
    let u := s.tile k
    let gives (f : Nat → Bool) (t : State) : Prop := ∃ u', Issued [] s t k r u' false false ∧ { u' with p := u.p } = u ∧
      (VI.vd w = 0 → u'.p = u.p) ∧ (∀ x, x ≠ VI.vd w → Store.get 0 u'.p x = Store.get 0 u.p x) ∧
      (VI.vd w ≠ 0 → ∀ l < 128, u'.predLane (VI.vd w) l = if u.gate w l then f l else u.predLane (VI.vd w) l)
    (VI.op w = 0x20 → Runs (.fcmplt k) s (gives fun l => fpLt (u.srcA w l) (u.srcB w l))) ∧
    (VI.op w = 0x21 → Runs (.fcmple k) s (gives fun l => fpLe (u.srcA w l) (u.srcB w l))) ∧
    (VI.op w = 0x22 → Runs (.fcmpeq k) s (gives fun l => fpEq (u.srcA w l) (u.srcB w l))) ∧
    (VI.op w = 0x23 → Runs (.fisnf k) s (gives fun l => (u.srcA w l).toNat / 2 ^ 23 % 256 == 255)) ∧
    (VI.op w = 0x24 → Runs (.pand k) s (gives fun l => u.predLane (VI.va w % 8) l && u.predLane (VI.vb w % 8) l)) ∧
    (VI.op w = 0x25 → Runs (.por k) s (gives fun l => u.predLane (VI.va w % 8) l || u.predLane (VI.vb w % 8) l)) ∧
    (VI.op w = 0x26 → Runs (.pnot k) s (gives fun l => !u.predLane (VI.va w % 8) l))

def Obligations.VectorMemory : Prop :=
  ∀ (k : Fin 256) (w : Nat) (r : VecRun) (s : State), s.atInstr k w r →
    let u := s.tile k
    let word (a : Nat) : Word := BitVec.ofNat 32 ((Store.get 0 s.shelf (shelfKey a)).toNat + 2 ^ 8 * (Store.get 0 s.shelf (shelfKey a + 1)).toNat
      + 2 ^ 16 * (Store.get 0 s.shelf (shelfKey a + 2)).toNat + 2 ^ 24 * (Store.get 0 s.shelf (shelfKey a + 3)).toNat)
    let loads (f : Nat → Word) (nf : Bool) (t : State) : Prop := ∃ u', Issued [] s t k r u' nf false ∧
      (∀ l < 128, u'.lane (VI.vd w) l = f l) ∧ (∀ x, x ≠ VI.vd w → Store.get zeroLanes u'.v x = Store.get zeroLanes u.v x) ∧
      { u' with v := u.v } = u
    (VI.op w = 0x38 → Runs (.ld k) s (loads (fun l => word (u.addr (VI.imm w % 8) (VI.imm w / 2 ^ 16 * 64 + 4 * l))) false)) ∧
    (VI.op w = 0x39 → Runs (.st k) s fun t => Issued [.shelf] s t k r u false false ∧
      (∀ l < 128, ∀ j < 4, Store.get 0 t.shelf (shelfKey (u.addr (VI.imm w % 8) (VI.imm w / 2 ^ 16 * 64)) + 4 * l + j)
        = BitVec.ofNat 8 ((u.srcA w l).toNat / 2 ^ (8 * j))) ∧
      ShelfOnly ((List.range 512).map (shelfKey (u.addr (VI.imm w % 8) (VI.imm w / 2 ^ 16 * 64)) + ·)) s t) ∧
    (VI.op w = 0x3A → VI.imm w / 2 ^ 8 % 16 = fmtINT8 → Runs (.ldx k) s
      (let f (l : Nat) : Word := fpRound (Store.get 0 s.shelf (shelfKey (u.addr (VI.imm w % 8) 0) + l)).toInt (signedOf 8 (VI.imm w / 2 ^ 16))
       loads f ((List.range 128).any fun l => fpNonfinite (f l)))) ∧
    (VI.op w = 0x3B → VI.imm w / 2 ^ 12 % 16 = fmtINT8 → bitAt (VI.imm w) 17 = false → Runs (.stq k) s fun t =>
      let x (l : Nat) : Int × Bool × Bool := fpToInt 8 (signedOf 8 (VI.imm w / 2 ^ 24)) .nearest 0 (u.srcA w l)
      Issued [.shelf] s t k r u ((List.range 128).any fun l => (x l).2.1) ((List.range 128).any fun l => (x l).2.2) ∧
      (∀ h < 2, ∀ i < 64, Store.get 0 t.shelf (shelfKey (u.addr (VI.imm w % 8) (64 * h)) + i) = BitVec.ofInt 8 (x (64 * h + i)).1) ∧
      ShelfOnly ((List.range 64).map (shelfKey (u.addr (VI.imm w % 8) 0) + ·) ++ (List.range 64).map (shelfKey (u.addr (VI.imm w % 8) 64) + ·)) s t) ∧
    (VI.op w = 0x41 → Runs (.sld k) s fun t => ∃ u', Issued [] s t k r u' false false ∧ { u' with sc := u.sc } = u ∧
      u'.scalar (VI.vd w % 16) = word (u.addr (VI.imm w % 8) (VI.imm w / 2 ^ 16 * 4)) ∧
      ∀ x, x ≠ VI.vd w % 16 → u'.scalar x = u.scalar x)

def Obligations.ScalarAndControl : Prop :=
  ∀ (k : Fin 256) (w : Nat) (r : VecRun) (s : State), s.atInstr k w r →
    let u := s.tile k
    let sets (v : Word) (nf : Bool) (t : State) : Prop := ∃ u', Issued [] s t k r u' nf false ∧ { u' with sc := u.sc } = u ∧
      u'.scalar (VI.vd w % 16) = v ∧ ∀ x, x ≠ VI.vd w % 16 → u'.scalar x = u.scalar x
    let two (f : Word → Word → Word) : State → Prop :=
      sets (f (u.scalar (VI.va w % 16)) (u.scalar (VI.vb w % 16))) (fpNonfinite (f (u.scalar (VI.va w % 16)) (u.scalar (VI.vb w % 16))))
    let tree (f : Word → Word → Word) (n lo : Nat) : Word := (treeWith f n ((List.range (2 ^ n)).map fun l => u.srcA w (lo + l))).headD 0
    let reduces (f : Word → Word → Word) (t : State) : Prop :=
      if bitAt (VI.imm w) 0 then ∃ u', Issued [] s t k r u' (fpNonfinite (tree f 6 0) || fpNonfinite (tree f 6 64)) false ∧
        { u' with sc := u.sc } = u ∧ u'.scalar (VI.vd w) = tree f 6 0 ∧ u'.scalar (VI.vd w + 1) = tree f 6 64 ∧
        ∀ x, x ≠ VI.vd w → x ≠ VI.vd w + 1 → u'.scalar x = u.scalar x
      else ∃ u', Issued [] s t k r u' (fpNonfinite (tree f 7 0)) false ∧
        { u' with sc := u.sc } = u ∧ u'.scalar (VI.vd w) = tree f 7 0 ∧ ∀ x, x ≠ VI.vd w → u'.scalar x = u.scalar x
    let quiet (t : State) : Prop := TileOnly k s t ∧ Only [.regs, .tiles] s t ∧ RegsOnly (vecShown k) s t
    (VI.op w = 0x00 → Runs (.nop k) s fun t => Issued [] s t k r u false false) ∧
    (VI.op w = 0x40 → Runs (.sset k) s (sets (BitVec.ofNat 32 (VI.imm w)) false)) ∧
    (VI.op w = 0x42 → Runs (.sfadd k) s (two fpAdd)) ∧ (VI.op w = 0x43 → Runs (.sfmul k) s (two fpMul)) ∧
    (VI.op w = 0x44 → Runs (.sfmax k) s (two fpMax)) ∧
    (VI.op w = 0x45 → Runs (.sredsum k) s (reduces fpAdd)) ∧ (VI.op w = 0x46 → Runs (.sredmax k) s (reduces fpMax)) ∧
    (VI.op w = 0x50 → Runs (.ainc k) s fun t => ∃ u', Issued [] s t k r u' false false ∧ { u' with inc := u.inc } = u ∧
      Store.get 0 u'.inc (VI.imm w % 8) = signedOf 24 (VI.imm w / 2 ^ 8) ∧ ∀ x, x ≠ VI.imm w % 8 → Store.get 0 u'.inc x = Store.get 0 u.inc x) ∧
    (VI.op w = 0x51 → Runs (.xinc k) s fun t => Issued [] s t k r { u with xinc := signedOf 32 (VI.imm w) } false false) ∧
    (VI.op w = 0x52 → Runs (.xpitch k) s fun t => Issued [] s t k r { u with xpitch := BitVec.ofNat 32 (VI.imm w) } false false) ∧
    (VI.op w = 0x58 → Runs (.body k) s fun t => t.tile k = { u with vrun := some { r with pc := r.pc + 1, body := r.pc + 1 } } ∧ quiet t) ∧
    (VI.op w = 0x59 → Runs (.endV k) s fun t => ∃ ad,
      let next (n : Nat) : VecRun := { r with pc := n, sweeps := r.sweeps + 1 }
      let x : BitVec 40 := BitVec.ofInt 40 (u.x.toNat + u.xinc)
      t.tile k = { u with ad := ad, x := x, vrun := some (next (if r.sweeps + 1 < VD.sweeps r.desc then r.body else r.pc + 1)) } ∧
      (∀ y < 8, Store.get 0 ad y = BitVec.ofInt 32 ((Store.get 0 u.ad y).toNat + Store.get 0 u.inc y)) ∧ quiet t) ∧
    (VI.op w = 0x5A → Runs (.halt k) s fun t => t.tile k = { u with vrun := some { r with pc := r.pc + 1, ended := true } } ∧ quiet t)

def Obligations.FunctionTables : Prop :=
  ∀ (k : Fin 256) (w : Nat) (r : VecRun) (tb : TableSlot) (s : State), s.atInstr k w r →
    Store.get none (s.tile k).tables (VI.imm w % 4) = some tb → s.running = false →
    let u := s.tile k
    ∀ (deriv : Bool), VI.op w = (if deriv then 0x31 else 0x30) →
      let seg (l : Nat) : CheckResult := segCheck ((if deriv then tb.deriv else tb.value).getD (tableSeg tb.header (u.srcA w l)).1 0)
      (∀ c : Nat → Nat, (∀ l < 128, u.gate w l = true → seg l = .clean (c l)) →
        Runs (if deriv then .tbld k else .tblv k) s fun t =>
          let tau (l : Nat) : Word := (tableSeg tb.header (u.srcA w l)).2
          let y (l : Nat) : Word := fpFma (fpFma (BitVec.ofNat 32 (c l / 2 ^ 64)) (tau l) (BitVec.ofNat 32 (c l / 2 ^ 32))) (tau l) (BitVec.ofNat 32 (c l))
          let f (l : Nat) : Word := if fpIsNaN (u.srcA w l) then 0x7FC00000#32
            else if TH.kind tb.header = 3 ∧ (if deriv then TH.symD tb.header else TH.symV tb.header) = 1 ∧ fpIsNaN (y l) = false
            then (y l &&& 0x7FFFFFFF#32) ||| (u.srcA w l &&& 0x80000000#32) else y l
          ∃ u', Issued [] s t k r u' (gatedNf u w f) false ∧ LaneResult u u' w f) ∧
      ((∃ l < 128, u.gate w l = true ∧ seg l = .failed) →
        Runs (if deriv then .tbld k else .tblv k) s fun t => t.tile k = { u with vrun := none } ∧
          t.fget (tilPage k) F.til.VEC_LAST_STATUS = 0x81 ∧ Only [.regs, .tiles] s t ∧ TileOnly k s t ∧
          RegsOnly (tileShown k ++ [F.til.VEC_LAST_STATUS, F.til.VEC_LAST_OPCODE, F.til.VEC_LAST_OPID_OP_ID].map (Fld.key (tilPage k))) s t)

def Obligations.VectorQueue : Prop :=
  let lastKeys (k : Nat) : List Nat := tileShown k ++ [F.til.VEC_LAST_STATUS, F.til.VEC_LAST_OPCODE, F.til.VEC_LAST_OPID_OP_ID].map (Fld.key (tilPage k))
  let last (k d st : Nat) (t : State) : Prop := t.fget (tilPage k) F.til.VEC_LAST_STATUS = st ∧
    t.fget (tilPage k) F.til.VEC_LAST_OPCODE = descOpcode d ∧ t.fget (tilPage k) F.til.VEC_LAST_OPID_OP_ID = descOpId d
  let tallied (k d : Nat) (s t : State) : Prop := if descTallyEn d
    then t.agate.notices = s.agate.notices ++ [⟨k / 128, descTally d, 1, srcCode 2 k⟩] else t.agate.notices = s.agate.notices
  (∀ (k : Fin 256) (d : Nat) (rest : List VecOp) (s : State), (s.tile k).vrun = none → (s.tile k).vqueue = ⟨d, false⟩ :: rest →
    s.fon (tilPage k) F.com.ENABLE = true → s.running = false →
    (∀ st < 2 ^ 8, s.vecCheck k d = some st → ∀ c : Instr, (descOpcode d = 1 ∧ c = .vecSignal k) ∨ (descOpcode d = 2 ∧ c = .run k) ∨
      (descOpcode d = 3 ∧ c = .bindProg k) ∨ (descOpcode d = 4 ∧ c = .bindTable k) →
      Runs c s fun t => t.tile k = { s.tile k with vqueue := rest } ∧ last k d st t ∧
        t.fget (tilPage k) F.til.VEC_REFUSED_COUNT = min (2 ^ F.til.VEC_REFUSED_COUNT.width - 1) (s.fget (tilPage k) F.til.VEC_REFUSED_COUNT + 1)) ∧
    (s.vecCheck k d = none →
    (descOpcode d = 1 → Runs (.vecSignal k) s fun t => t.tile k = { s.tile k with vqueue := rest } ∧ last k d 0 t ∧ tallied k d s t ∧
      Only [.regs, .tiles, .agate] s t ∧ TileOnly k s t ∧ RegsOnly (lastKeys k) s t) ∧
    (descOpcode d = 2 → ∀ ps e, (s.tile k).prog (VD.pslot d) = some ps → ps.entries[VD.entry d]? = some e →
      Runs (.run k) s fun t => ∃ ad,
        let zeroed : Tile := { s.tile k with v := [], p := [], sc := [], inc := [], xpitch := 0, xinc := 0, x := BitVec.ofNat 40 (VD.origin d) }
        t.tile k = { zeroed with vqueue := rest, ad := ad, vrun := some { desc := d, pc := e, ended := VD.sweeps d == 0 } } ∧
        (∀ y < 8, Store.get 0 ad y = BitVec.ofNat 32 (VD.a d y)) ∧ Only [.regs, .tiles] s t ∧ TileOnly k s t ∧ RegsOnly (tileShown k) s t) ∧
    (descOpcode d = 3 → ∀ ps corr, parseProgram (s.vimage k d) = .ok (ps, corr) →
      Runs (.bindProg k) s fun t => 
        let bound : Tile := { s.tile k with vqueue := rest, progs := Store.set none (s.tile k).progs (VD.pslot d) (some ps) }
        t.tile k = { bound with vrun := some { desc := d, pc := 0, ended := true } } ∧ (t.tile k).prog (VD.pslot d) = some ps ∧
        t.fget (tilPage k) (F.til.VEC_PIMG_IMAGE_ID (VD.pslot d)) = ps.imageId % 2 ^ 32 ∧
        bitAt (t.fget (tilPage k) F.til.VEC_STAT_PROG_VALID) (VD.pslot d) = true ∧ Only [.regs, .tiles] s t ∧ TileOnly k s t) ∧
    (descOpcode d = 3 → ∀ st, parseProgram (s.vimage k d) = .error st →
      Runs (.bindProg k) s fun t => (t.tile k).prog (VD.pslot d) = none ∧ (t.tile k).vrun = none ∧ (t.tile k).vqueue = rest ∧
        t.fget (tilPage k) F.til.VEC_LAST_STATUS = st % 2 ^ 8 ∧ bitAt (t.fget (tilPage k) F.til.VEC_STAT_PROG_VALID) (VD.pslot d) = false ∧
        Only [.regs, .tiles] s t ∧ TileOnly k s t) ∧
    (descOpcode d = 4 → ∀ ts corr, parseTable (s.vimage k d) = .ok (ts, corr) →
      Runs (.bindTable k) s fun t => 
        let bound : Tile := { s.tile k with vqueue := rest, tables := Store.set none (s.tile k).tables (VD.tslot d) (some ts) }
        t.tile k = { bound with vrun := some { desc := d, pc := 0, ended := true } } ∧ Store.get none (t.tile k).tables (VD.tslot d) = some ts ∧
        t.fget (tilPage k) (F.til.VEC_TIMG_IMAGE_ID (VD.tslot d)) = ts.imageId % 2 ^ 32 ∧
        bitAt (t.fget (tilPage k) F.til.VEC_STAT_TABLE_VALID) (VD.tslot d) = true ∧ Only [.regs, .tiles] s t ∧ TileOnly k s t))) ∧
  (∀ (k : Fin 256) (r : VecRun) (s : State), (s.tile k).vrun = some r → r.ended = true → s.running = false →
    (descOpcode r.desc = 3 ∨ descOpcode r.desc = 4 → Runs (.bindComplete k) s fun t => t.tile k = { s.tile k with vrun := none } ∧
      last k r.desc 0 t ∧ tallied k r.desc s t ∧ Only [.regs, .tiles, .agate] s t ∧ TileOnly k s t ∧
      RegsOnly (F.vst.VSTORE_BINDS_ACTIVE.key ⟨.vst, k / 128⟩ :: lastKeys k) s t) ∧
    (descOpcode r.desc = 2 → r.summary = false →
      Runs (.vecComplete k) s fun t => t.tile k = { s.tile k with vrun := none } ∧
        last k r.desc (if r.nf then 0x0B else if r.sat then 0x0A else 0) t ∧ (r.nf = false → r.sat = false → tallied k r.desc s t) ∧
        t.fget (tilPage k) F.til.VEC_RUNS_COUNT = min (2 ^ F.til.VEC_RUNS_COUNT.width - 1) (s.fget (tilPage k) F.til.VEC_RUNS_COUNT + 1) ∧
        Only [.regs, .tiles, .agate] s t ∧ TileOnly k s t ∧
        RegsOnly ([F.til.VEC_RUNS_COUNT, F.til.VEC_NF_RUNS_COUNT, F.til.VEC_SAT_RUNS_COUNT].map (Fld.key (tilPage k)) ++
          [F.com.EVT_CNT 0, F.com.EVT_CNT 1].map (Fld.key (vecPage k)) ++ lastKeys k) s t))

def Obligations.SummarySlots : Prop :=
  (∀ (k : Fin 256) (w : Nat) (r : VecRun) (s : State), s.atInstr k w r → VI.op w = 0x48 → VD.sumEn r.desc = true →
    Runs (.summary k) s fun t => t.summaries = s.summaries ++ [⟨VD.sumCore r.desc, VD.sumSlot r.desc, VI.imm w / 2 ^ 8 % 2 ^ 8, k, descOpId r.desc,
        s.time.toNat, (List.range (VI.imm w % 4 + 1)).map fun j => (s.tile k).scalar (VI.va w + j)⟩] ∧
      t.tile k = { s.tile k with vrun := some { r with pc := r.pc + 1, summary := true } } ∧ TileOnly k s t ∧
      Only [.regs, .tiles, .summaries] s t ∧ RegsOnly (vecShown k) s t) ∧
  (∀ (i : Nat) (m : Summary) (s : State), s.summaries[i]? = some m →
    let p := slotPage m.core
    let k := slotIx m.core m.slot
    let held := Store.get [] s.slotHeld (32 * m.core + m.slot)
    let kept := Store.set [] held m.tile m.words
    m.core < 4 → m.slot < 32 → m.tag = s.fget p (F.dp.SLOT_CFG_TAG k) → s.fget p (F.dp.SLOT_CFG_EXPECT k) ≠ 0 →
    s.fon p (F.dp.SLOT_STAT_COMPLETE k) = false → Store.get [] held m.tile = [] →
    Runs (.summaryMessage i) s fun t => t.summaries = s.summaries.eraseIdx i ∧ Store.get [] t.slotHeld (32 * m.core + m.slot) = kept ∧
      t.fget p (F.dp.SLOT_STAT_COUNT k) = kept.length % 2 ^ (F.dp.SLOT_STAT_COUNT k).width ∧
      (kept.length < s.fget p (F.dp.SLOT_CFG_EXPECT k) → t.fon p (F.dp.SLOT_STAT_COMPLETE k) = false) ∧
      (s.fget p (F.dp.SLOT_CFG_EXPECT k) ≤ kept.length → t.fon p (F.dp.SLOT_STAT_COMPLETE k) = true ∧
        t.fget p (F.dp.SLOT_W0_RESULT k) = (combineSlot (bitAt (s.fget p (F.dp.SLOT_CFG_MODE k)) 0) (kept.map fun e => e.2.getD 0 0)).toNat) ∧
      Only [.regs, .tiles, .summaries, .slotHeld, .slotDone] s t ∧ TileOnly m.tile s t) ∧
  (∀ (i : Nat) (m : Summary) (s : State), s.summaries[i]? = some m →
    m.core < 4 → m.slot < 32 → m.tag ≠ s.fget (slotPage m.core) (F.dp.SLOT_CFG_TAG (slotIx m.core m.slot)) →
    Runs (.summaryMessage i) s fun t => t.slotHeld = s.slotHeld ∧
      t.fget (slotPage m.core) (F.dp.SLOT_STAT_TAG_MISMATCH (slotIx m.core m.slot))
        = min (2 ^ (F.dp.SLOT_STAT_TAG_MISMATCH (slotIx m.core m.slot)).width - 1)
            (s.fget (slotPage m.core) (F.dp.SLOT_STAT_TAG_MISMATCH (slotIx m.core m.slot)) + 1) ∧
      Only [.regs, .tiles, .summaries] s t ∧ TileOnly m.tile s t) ∧
  (∀ (r : Requester) (d : Fin 2) (n : Fin 64) (s : State), s.reaches r ⟨.dp, d⟩ (0x404 + 32 * n.val) = true →
    Runs (.arm r d n) s fun t => Store.get [] t.slotHeld (32 * (2 * d.val + n.val / 32) + n.val % 32) = [] ∧
      t.fget ⟨.dp, d⟩ (F.dp.SLOT_STAT_COUNT n) = 0 ∧ t.fon ⟨.dp, d⟩ (F.dp.SLOT_STAT_COMPLETE n) = false ∧
      Only [.regs, .hub, .slotHeld] s t ∧
      RegsOnly [(F.dp.SLOT_STAT_COUNT n).key ⟨.dp, d⟩, (F.dp.SLOT_STAT_COMPLETE n).key ⟨.dp, d⟩] s t)

def Obligations.ShelfAndFills : Prop :=
  (∀ (f : SpanFrom) (k : Fin 256) (n : Fin 24576) (waits : Fin 4) (late : Nat) (s : State), s.napping = false → s.pwr.goal ≠ 2 →
    s.isolated (tilPage k) = false →
    Runs (.shelfSpanAccess f k n none waits late) s (fun t =>
      t.out = s.out ++ [Out.read (k * 2 ^ 21 + 64 * n) (Store.read 0 s.shelf (k * 2 ^ 21 + 64 * n) 64)] ∧ Only [.regs, .out] s t) ∧
    ∀ (en : BitVec 64) (data : BitVec 512), Runs (.shelfSpanAccess f k n (some (en, data)) waits late) s fun t =>
      (∀ j < 64, Store.get 0 t.shelf (k * 2 ^ 21 + 64 * n + j) = if en.getLsbD j then BitVec.ofNat 8 (data.toNat / 2 ^ (8 * j))
        else Store.get 0 s.shelf (k * 2 ^ 21 + 64 * n + j)) ∧
      ShelfOnly ((List.range 64).map (k * 2 ^ 21 + 64 * n + ·)) s t ∧
      t.fget (tilPage k) F.til.SHF_BANK_CONF_COUNT = min (2 ^ F.til.SHF_BANK_CONF_COUNT.width - 1)
        (s.fget (tilPage k) F.til.SHF_BANK_CONF_COUNT + waits) ∧ Only [.regs, .shelf] s t) ∧
  (∀ (k : Nat) (f : Fill) (s s1 : State) (bs : List Byte), s.agate.fills[k]? = some f → f.pos < f.len → f.tile < 256 → f.buf < 4 →
    s.devRead (.tenant (Fin.ofNat 16 s.agate.tenant)) (f.src + f.pos) 64 = (s1, .ok bs) →
    (s.fillCurrent f = true → Runs (.lbFillWrite k) s fun t =>
      (∀ j < 64, some (Store.get 0 t.shelf (f.tile * 2 ^ 21 + s.fget (tilPage f.tile) (F.til.LB_BASE_BASE f.buf) + f.pos + j)) = bs[j]?) ∧
      ShelfOnly ((List.range 64).map (f.tile * 2 ^ 21 + s.fget (tilPage f.tile) (F.til.LB_BASE_BASE f.buf) + f.pos + ·)) s t ∧
      t.agate.fills = s.agate.fills.set k { f with pos := f.pos + 64 } ∧ Only [.regs, .agate, .shelf] s t) ∧
    (s.fillCurrent f = false → Runs (.lbFillWrite k) s fun t => t.shelf = s.shelf ∧
      t.fget (tilPage f.tile) (F.til.LB_DROP_COUNT f.buf) = min (2 ^ (F.til.LB_DROP_COUNT f.buf).width - 1)
        (s.fget (tilPage f.tile) (F.til.LB_DROP_COUNT f.buf) + 1) ∧ bitAt (t.fget (tilPage f.tile) F.com.EVT_STAT) 16 = true ∧
      Only (.agate :: eventParts) s t)) ∧
  (∀ (k : Nat) (f : Fill) (s : State), s.agate.fills[k]? = some f → f.len ≤ f.pos → s.fillCurrent f = true → s.lbState f.tile f.buf = 1 →
    Runs (.fillComplete k) s fun t => t.lbState f.tile f.buf = 2 ∧ t.agate.fills = s.agate.fills.eraseIdx k ∧
      (∀ n, f.sig = some n → f.spec = false → t.agate.notices = s.agate.notices ++ [n]) ∧ Only [.regs, .agate] s t ∧
      RegsOnly [(F.til.LB_STAT_STATE f.buf).key (tilPage f.tile)] s t)

def Obligations.ObjectCommands : Prop :=
  let taken (fw : Bool) (s t : State) : Prop := t.tiers.lastFw = fw ∧
    t.fget pgMq (if fw then F.mq.FQ_HEAD_HEAD else F.mq.MQ_HEAD_HEAD) = (s.fget pgMq (if fw then F.mq.FQ_HEAD_HEAD else F.mq.MQ_HEAD_HEAD) + 1)
      % 2 ^ s.fget pgMq (if fw then F.mq.FQ_CFG_LOG2 else F.mq.MQ_CFG_LOG2) % 2 ^ 12
  (∀ (r : Requester) (fw : Bool) (tail : BitVec 12) (s : State), s.reaches r pgMq (if fw then 0x07C else 0x04C) = true →
    Runs (.mqDoorbell r fw tail) s fun t => t.fget pgMq (if fw then F.mq.FQ_TAIL_TAIL else F.mq.MQ_TAIL_TAIL) = tail.toNat ∧
      Only [.regs, .hub] s t ∧ RegsOnly [(if fw then F.mq.FQ_TAIL_TAIL else F.mq.MQ_TAIL_TAIL).key pgMq] s t) ∧
  (∀ (fw : Bool) (d : Nat) (s s1 : State), s.ringEntry s1 fw d → s.ringQuiet fw = true →
    (QE.op d = 1 → Runs (.create fw) s fun t =>
      t.obj (QE.handle d) = some ⟨QE.tenant d, QE.cls d, QE.size d, QE.protect d, QE.tier d, QE.mask d, QE.place d, .creating,
        if QE.tier d = 3 then some (QE.place d) else none⟩ ∧ ObjOnly (QE.handle d) s t ∧ taken fw s t ∧
      t.ringCmds fw = s.ringCmds fw ++ [⟨1, QE.ctag d, QE.handle d, QE.initZero d && QE.tier d != 3, none⟩] ∧
      t.ringCmds (!fw) = s.ringCmds (!fw) ∧ Only [.regs, .tiers] s t) ∧
    (QE.op d = 2 → ∀ o, s.obj (QE.handle d) = some o → Runs (.destroy fw) s fun t =>
      t.obj (QE.handle d) = some { o with st := .destroying } ∧ ObjOnly (QE.handle d) s t ∧ taken fw s t ∧
      t.ringCmds fw = s.ringCmds fw ++ [⟨2, QE.ctag d, QE.handle d, false, none⟩] ∧ Only [.regs, .tiers] s t) ∧
    (QE.op d = 4 → s.ringCmds fw = [] → Runs (.query fw) s fun t => ∃ u, taken fw s u ∧ Only [.regs, .tiers] s u ∧ u.tiers.objects = s.tiers.objects ∧
      u.ringCmds fw = [] ∧ t = u.tirComplete fw (QE.ctag d) (QE.handle d) 0 4)) ∧
  (∀ (fw : Bool) (c : ObjCmd) (rest : List ObjCmd) (o : Obj) (s : State), s.ringCmds fw = c :: rest → c.ready = none →
    rest.head?.all (fun x => x.ready.isNone) = true → s.obj c.handle = some o →
    (c.op = 1 → c.zero = false → Runs (.createComplete fw) s fun t => ∃ u, u.obj c.handle = some { o with st := .resident } ∧
      ObjOnly c.handle s u ∧ u.ringCmds fw = rest ∧ Only [.tiers] s u ∧ t = u.tirComplete fw c.ctag c.handle 0 1) ∧
    (c.op = 1 → c.zero = true → o.tier = 1 → o.place + o.size ≤ 0x20000000 → o.size ≤ 2 ^ 34 → c.handle < 2 ^ 16 →
      Runs (.createComplete fw) s fun t => ∃ u, u.obj c.handle = some { o with st := .resident } ∧ u.ringCmds fw = rest ∧
        (∀ j < o.size, Store.get 0 u.shelf (o.place + j) = 0) ∧
        (∀ a, (a < o.place ∨ o.place + o.size ≤ a) → Store.get 0 u.shelf a = Store.get 0 s.shelf a) ∧
        Only [.tiers, .shelf] s u ∧ t = u.tirComplete fw c.ctag c.handle 0 1) ∧
    (c.op = 2 → s.objInUse c.handle = false → Runs (.destroyComplete fw) s fun t => ∃ u, u.obj c.handle = none ∧ ObjOnly c.handle s u ∧
      u.ringCmds fw = rest ∧ u.fget pgTir F.tir.OBJ_LIVE_COUNT = (s.fget pgTir F.tir.OBJ_LIVE_COUNT - 1) % 2 ^ F.tir.OBJ_LIVE_COUNT.width ∧
      Only [.regs, .tiers] s u ∧ t = u.tirComplete fw c.ctag c.handle 0 2)) ∧
  (∀ (ctag h st op a : Nat) (s : State), s.fget pgMq F.mq.CQ_BASE_ADDR = 0x8000000000000 + a →
    let n := 2 ^ s.fget pgMq F.mq.CQ_CFG_LOG2
    let head := s.fget pgMq F.mq.CQ_HEAD_HEAD % n
    a % 4096 = 0 → a + 16 * head + 16 ≤ 2 ^ 51 → s.tiers.drvOut = [] → s.tirCqFull false = false → s.upModules 15 ≠ [] →
    (∀ j < 16, s.apertureAt (a + 16 * head + j) = none) → s.routed pgMq = false →
    let t := s.tirComplete false ctag h st op
    (∀ j < 16, Store.get none t.hostMem (a + 16 * head + j)
      = (leBytes 16 (s.tirRecord ctag h st op + s.tiers.drvSeq % 2 ^ 32 * 2 ^ 96))[j]?) ∧
    (∀ x, (x < a + 16 * head ∨ a + 16 * head + 16 ≤ x) → Store.get none t.hostMem x = Store.get none s.hostMem x) ∧
    t.fget pgMq F.mq.CQ_HEAD_HEAD = (s.fget pgMq F.mq.CQ_HEAD_HEAD + 1) % n % 2 ^ 12 ∧ bitAt (t.fget pgMq F.com.EVT_STAT) 8 = true ∧
    t.tiers.drvSeq = (s.tiers.drvSeq + 1) % 2 ^ 32 ∧ Only (.tiers :: eventParts) s t)

def Obligations.TierCopies : Prop :=
  (∀ (fw : Bool) (d : Nat) (o : Obj) (s s1 : State), s.ringEntry s1 fw d → s.obj (QE.handle d) = some o → s.tiers.migs.length < 4 →
    (QE.op d = 3 → Runs (.migrate fw) s fun t => t.obj (QE.handle d) = some { o with st := .moving } ∧ ObjOnly (QE.handle d) s t ∧
      t.tiers.migs = s.tiers.migs ++ [⟨fw, false, QE.ctag d, QE.handle d, QE.tier d, QE.mask d, QE.place d⟩] ∧ Only [.regs, .tiers] s t) ∧
    (QE.op d = 5 → o.tier ≠ 3 → Runs (.refill fw) s fun t => t.obj (QE.handle d) = some { o with st := .moving } ∧
      ObjOnly (QE.handle d) s t ∧ t.tiers.migs = s.tiers.migs ++ [⟨fw, true, QE.ctag d, QE.handle d, 3, 0, QE.place d⟩] ∧
      Only [.regs, .tiers] s t) ∧
    (QE.op d = 5 → o.tier = 3 → Runs (.refill fw) s fun t => ∃ u,
      u.obj (QE.handle d) = some { o with place := QE.place d, home := some (QE.place d) } ∧ ObjOnly (QE.handle d) s u ∧
      u.tiers.migs = s.tiers.migs ∧ Only [.regs, .tiers] s u ∧ t = u.tirComplete fw (QE.ctag d) (QE.handle d) 0 5)) ∧
  (∀ (k : Nat) (f : TierFault) (m : Migration) (o : Obj) (s : State), s.tiers.migs[k]? = some m → s.obj m.handle = some o →
    s.tiers.moves = [] → s.placeDead m = false → m.handle < 2 ^ 16 → o.size ≤ 2 ^ 34 →
    (m.refill = false → m.tier = 1 → m.place + o.size ≤ 0x20000000 → s.copyFault m.source o.size f = none →
      Runs (.migrateComplete k f) s fun t => ∃ u, u.obj m.handle = some { o with st := .resident, tier := 1, mask := m.mask, place := m.place } ∧
        ObjOnly m.handle s u ∧ u.tiers.migs = s.tiers.migs.eraseIdx k ∧
        (∀ j < o.size, some (Store.get 0 u.shelf (m.place + j)) = (s.runBytes m.source o.size)[j]?) ∧
        (∀ a, (a < m.place ∨ m.place + o.size ≤ a) → Store.get 0 u.shelf a = Store.get 0 s.shelf a) ∧
        Only [.regs, .tiers, .shelf] s u ∧ t = u.tirComplete m.fw m.ctag m.handle 0 3) ∧
    (m.refill = false → ∀ a, s.copyFault m.source o.size f = some (a, 6) →
      Runs (.migrateComplete k f) s fun t => ∃ u, u.obj m.handle = some { o with st := .resident } ∧ ObjOnly m.handle s u ∧
        u.tiers.migs = s.tiers.migs.eraseIdx k ∧ u.shelf = s.shelf ∧ t = u.tirComplete m.fw m.ctag m.handle 6 3) ∧
    (m.refill = true → o.tier = 1 → o.place + o.size ≤ 0x20000000 → s.copyFault m.source o.size f = none →
      Runs (.refillComplete k f) s fun t => ∃ u, u.obj m.handle = some { o with st := .resident, home := some m.place } ∧
        ObjOnly m.handle s u ∧ u.tiers.migs = s.tiers.migs.eraseIdx k ∧
        (∀ j < o.size, some (Store.get 0 u.shelf (o.place + j)) = (s.runBytes m.place o.size)[j]?) ∧
        Only [.regs, .tiers, .shelf] s u ∧ t = u.tirComplete m.fw m.ctag m.handle 0 5))

def Obligations.TierMoves : Prop :=
  let tallied (die d : Nat) (s t : State) : Prop := if descTallyEn d
    then t.agate.notices = s.agate.notices ++ [⟨die, descTally d, 1, srcCode 5 die⟩] else t.agate = s.agate
  let late (a : Nat) (s t : State) : Prop := t.fget pgTir F.tir.LAST_ERR_ADDR = a / 4096 * 4096 % 2 ^ F.tir.LAST_ERR_ADDR.width ∧
    t.fget pgTir F.tir.LAST_ERR_STATUS = 5 ∧ bitAt (t.fget pgTir F.com.EVT_STAT) 8 = true ∧
    t.fget pgTir F.tir.LATE_COUNT = min (2 ^ F.tir.LATE_COUNT.width - 1) (s.fget pgTir F.tir.LATE_COUNT + 1)
  (∀ (o : DieOp) (rest : List DieOp) (s : State), s.tiers.queue = o :: rest → o.held = false → s.enabled pgTir = true →
    (descOpcode o.desc = 1 → Runs .tirSignal s fun t => t.tiers = { s.tiers with queue := rest } ∧ tallied o.die o.desc s t ∧
      Only [.tiers, .agate] s t) ∧
    (descOpcode o.desc = 2 → s.tiers.moves.length < 8 → Runs .move s fun t =>
      t.tiers = { s.tiers with queue := rest, moves := s.tiers.moves ++ [⟨o.die, o.desc⟩] } ∧ Only [.tiers] s t)) ∧
  (∀ (k : Nat) (m : Move) (s : State), s.tiers.moves[k]? = some m → moveSrc m.desc + moveLen m.desc ≤ 0x20000000 →
    moveDst m.desc < 0x20000000 → s.rangeCheck .firmware true (moveDst m.desc) (moveLen m.desc) = none →
    Runs (.moveComplete k .none) s fun t =>
      (∀ j < moveLen m.desc, Store.get 0 t.shelf (moveDst m.desc + j) = Store.get 0 s.shelf (moveSrc m.desc + j)) ∧
      (∀ a, (a < moveDst m.desc ∨ moveDst m.desc + moveLen m.desc ≤ a) → Store.get 0 t.shelf a = Store.get 0 s.shelf a) ∧
      t.tiers = { s.tiers with moves := s.tiers.moves.eraseIdx k } ∧ tallied m.die m.desc s t ∧
      t.fget pgTir F.tir.MOVE_BYTES_COUNT = min (2 ^ F.tir.MOVE_BYTES_COUNT.width - 1) (s.fget pgTir F.tir.MOVE_BYTES_COUNT + moveLen m.desc) ∧
      Only [.regs, .tiers, .shelf, .agate] s t ∧ RegsOnly [F.tir.MOVE_BYTES_COUNT.key pgTir] s t) ∧
  (∀ (k g tier : Nat) (m : Move) (s : State), s.tiers.moves[k]? = some m → 4096 * g < moveLen m.desc → s.running = false →
    s.lateTier (moveSrc m.desc + 4096 * g) = some tier → moveDst m.desc < 0x20000000 →
    Runs (.tierDeadline 0 k g) s fun t => t.tiers.moves = s.tiers.moves.eraseIdx k ∧ late (moveSrc m.desc + 4096 * g) s t ∧
      t.fget pgTir F.tir.LAST_ERR_TIER = tier % 2 ^ F.tir.LAST_ERR_TIER.width ∧ Only ([.tiers, .shelf, .freeCtr] ++ eventParts) s t) ∧
  (∀ (k g tier : Nat) (m : Migration) (o : Obj) (s : State), s.tiers.migs[k]? = some m → m.refill = false → s.obj m.handle = some o →
    s.lateTier (m.source + 4096 * g) = some tier →
    Runs (.tierDeadline 1 k g) s fun t => ∃ u, u.tiers.migs = s.tiers.migs.eraseIdx k ∧ u.obj m.handle = some { o with st := .resident } ∧
      ObjOnly m.handle s u ∧ late (m.source + 4096 * g) s u ∧ Only (.tiers :: eventParts) s u ∧ t = u.tirComplete m.fw m.ctag m.handle 5 3) ∧
  (∀ (k g tier : Nat) (f : Fill) (s : State), s.agate.fills[k]? = some f → f.pos + 4096 * g < f.len → s.running = false →
    s.lateTier (f.src + f.pos + 4096 * g) = some tier →
    Runs (.tierDeadline 2 k g) s fun t => t.agate = { s.agate with fills := s.agate.fills.eraseIdx k } ∧
      late (f.src + f.pos + 4096 * g) s t ∧ t.fget pgTir F.tir.LAST_ERR_TIER = tier % 2 ^ F.tir.LAST_ERR_TIER.width ∧
      Only (.agate :: eventParts) s t)

def Obligations.TierAccesses : Prop :=
  (∀ (who : Agent) (a : BitVec 52) (n : Nat) (s : State), s.inCellar a.toNat = true → s.rangeCheck who false a.toNat n = none →
    (s.badUnit (unitStarts a.toNat n) = none →
      Runs (.cellarRead who a n 0) s (fun t => t.out = s.out ++ [Out.read a.toNat (s.runBytes a.toNat n)] ∧ Only [.regs, .out] s t) ∧
      Runs (.cellarRead who a n 1) s (fun t => t.out.getLast? = some (Out.read a.toNat (s.runBytes a.toNat n)) ∧
        (∀ c off p, s.locOf a.toNat = some (.cellar c off p) → bitAt (t.fget (pgCel c) F.com.EVT_STAT) 8 = true ∧
          t.fget (pgCel c) F.cel.ECC_CORR_COUNT = min (2 ^ F.cel.ECC_CORR_COUNT.width - 1) (s.fget (pgCel c) F.cel.ECC_CORR_COUNT + 1)) ∧
        Only eventParts s t)) ∧
    Runs (.cellarRead who a n 2) s fun t => t.out.getLast? = some (Out.ended a.toNat 6) ∧ t.fget pgTir F.tir.LAST_ERR_STATUS = 6 ∧
      Only eventParts s t) ∧
  (∀ (a : BitVec 52) (bytes : List Byte) (c off : Nat) (s : State), winOf a.toNat = .cellar c off →
    s.rangeCheck .firmware true a.toNat bytes.length = none → (∀ j < bytes.length, s.tagOff c (off + j) = none) →
    Runs (.cellarWrite .firmware a bytes) s fun t => t.runBytes a.toNat bytes.length = bytes ∧ t.out = s.out ++ [Out.read a.toNat []] ∧
      (∀ x p, (x < off ∨ off + bytes.length ≤ x) → x < 2 ^ 36 → (x / 16 < off / 16 ∨ (off + bytes.length - 1) / 16 < x / 16) →
        t.locByte (.cellar c x p) = s.locByte (.cellar c x p)) ∧ Only [.regs, .tiers, .out] s t) ∧
  (∀ (who : Agent) (a : BitVec 52) (bytes : List Byte) (h o : Nat) (ob : Obj) (s : State), winOf a.toNat = .object h o →
    s.obj h = some ob → ob.tier = 2 → ob.place % 4096 = 0 → ob.place + ob.size < 2 ^ 36 → ob.size ≤ 2 ^ 34 →
    s.rangeCheck who true a.toNat bytes.length = none →
    (∀ c x, s.tagOff c x = none) →
    Runs (.cellarWrite who a bytes) s fun t => t.runBytes a.toNat bytes.length = bytes ∧ t.out = s.out ++ [Out.read a.toNat []] ∧
      Only [.regs, .tiers, .out] s t) ∧
  (∀ (who : Agent) (a : BitVec 52) (n b off : Nat) (s : State), winOf a.toNat = .attic b off → s.rangeCheck who false a.toNat n = none →
    off + n ≤ 2 ^ 33 →
    Runs (.atticRead who a n false) s (fun t => t.out = s.out ++ [Out.read a.toNat ((List.range n).map fun j => s.atticByte b (off + j))] ∧
      Only [.out] s t) ∧
    Runs (.atticRead who a n true) s fun t => t.out.getLast? = some (Out.ended a.toNat 6) ∧
      t.fget pgAtc F.atc.ATC_READ_FAIL_COUNT
        = min (2 ^ F.atc.ATC_READ_FAIL_COUNT.width - 1) (s.fget pgAtc F.atc.ATC_READ_FAIL_COUNT + 1) ∧ Only eventParts s t) ∧
  (∀ (who : Agent) (a : BitVec 52) (x n : Nat) (s : State), a.toNat = 0x8000000000000 + x → x + n ≤ 2 ^ 51 → x < 2 ^ 51 →
    (∀ j < n, (s.moduleOf (x + j)).isSome = true) →
    (s.rangeCheck who false a.toNat n = none → Runs (.boxroomAccess who a n none false) s fun t =>
      t.out = s.out ++ [Out.read a.toNat (s.hostRead x n)] ∧ Only [.out] s t) ∧
    (∀ bytes, bytes.length = n → s.rangeCheck who true a.toNat n = none → Runs (.boxroomAccess who a n (some bytes) false) s fun t =>
      (∀ j < n, Store.get none t.hostMem (x + j) = bytes[j]?) ∧
      (∀ y, (y < x ∨ x + n ≤ y) → Store.get none t.hostMem y = Store.get none s.hostMem y) ∧ Only [.hostMem, .out] s t))

def Obligations.AtticCommands : Prop :=
  let begun (s t : State) (a : Attic) : Prop := t.attic = a ∧ t.fget pgAtc F.atc.ATC_RESULT_BUSY = 1 ∧ Only [.regs, .hub, .attic] s t
  (∀ (r : Requester) (slot : Fin 32) (s s1 : State) (hd : List Byte), s.reaches r pgAtc 0x040 = true → s.enabled pgAtc = true →
    s.log.pwrFail = false → (s.releaseHolds r).devRead .firmware (s.fget pgAtc F.atc.ATC_SRC_ADDR) 4096 = (s1, .ok hd) →
    let a := s.fget pgAtc F.atc.ATC_SRC_ADDR
    let len := s.fget pgAtc F.atc.ATC_SRC_LEN_LENGTH
    let bank := 1 - s.activeBank slot
    Runs (.install r slot) s fun t =>
      (∀ st, s1.headerCheck hd slot a len = some st → t = s1.atcDone 1 slot st) ∧
      (s1.headerCheck hd slot a len = none → ∀ s2 img, s1.devRead .firmware (a + 4096) (len - 4096) = (s2, .ok img) →
        imageCheck (leNat (hd.take 64)) ((s2.bankKeyOf hd).getD 0) (leNat (slice hd 0x40 64)) img = none →
        t.attic = { s.attic with
          install := some ⟨slot, bank, a, len, false⟩, keys := Store.set none s.attic.keys (2 * slot + bank) none,
          selWrite := some ⟨slot, 1, false, s.nextSelector slot (s.activeBank slot)
            (validClear (s.fget pgSlot (F.slot.SL_STAT_VALID slot)) bank) (s.fget pgSlot (F.slot.SL_STAT_FLOOR slot)) none⟩ } ∧
        t.fget pgAtc F.atc.ATC_PROGRESS_BYTES = img.length % 2 ^ F.atc.ATC_PROGRESS_BYTES.width ∧ t.fget pgAtc F.atc.ATC_RESULT_BUSY = 1 ∧
        Only (.attic :: eventParts) s t)) ∧
  (∀ (op slot st : Nat) (s : State), op < 8 → slot < 32 → st < 256 → (s.atcDone op slot st).atcReports op slot st ∧
    Only (.log :: eventParts) s (s.atcDone op slot st)) ∧
  (∀ (r : Requester) (slot : Fin 32) (raise : Bool) (s : State), s.selReady r →
    bitAt (s.fget pgSlot (F.slot.SL_STAT_VALID slot)) (1 - s.activeBank slot) = true → s.fon pgSlot (F.slot.SL_SVC_REPLACING slot) = false →
    Runs (.activate r slot raise) s fun t =>
      let floor := if raise then s.bankSet (2 * slot + (1 - s.activeBank slot)) / 2 ^ 16 else s.fget pgSlot (F.slot.SL_STAT_FLOOR slot)
      begun s t { s.attic with selWrite := some ⟨slot, 2, raise,
        s.nextSelector slot (1 - s.activeBank slot) (s.fget pgSlot (F.slot.SL_STAT_VALID slot)) floor none⟩ } ∧
      RegsOnly [F.atc.ATC_RESULT_BUSY.key pgAtc] s t) ∧
  (∀ (r : Requester) (slot : Fin 32) (s : State), s.selReady r → s.homed (2 * slot + (1 - s.activeBank slot)) = false →
    Runs (.atticRetire r slot) s fun t =>
      let bank := 1 - s.activeBank slot
      begun s t { s.attic with
        keys := Store.set none s.attic.keys (2 * slot + bank) none,
        selWrite := some ⟨slot, 3, false, s.nextSelector slot (s.activeBank slot)
          (validClear (s.fget pgSlot (F.slot.SL_STAT_VALID slot)) bank) (s.fget pgSlot (F.slot.SL_STAT_FLOOR slot)) none⟩ } ∧
      RegsOnly [F.atc.ATC_RESULT_BUSY.key pgAtc] s t) ∧
  (∀ (r : Requester) (slot : Fin 32) (s : State), s.selReady r → s.homed (2 * slot) = false → s.homed (2 * slot + 1) = false →
    Runs (.empty r slot) s fun t =>
      begun s t { s.attic with
        keys := Store.set none (Store.set none s.attic.keys (2 * slot) none) (2 * slot + 1) none,
        selWrite := some ⟨slot, 4, false, s.nextSelector slot (s.activeBank slot) 0 (s.fget pgSlot (F.slot.SL_STAT_FLOOR slot)) none⟩ } ∧
      t.fon pgSlot (F.slot.SL_STAT_KEY_READY slot) = false ∧
      RegsOnly [F.atc.ATC_RESULT_BUSY.key pgAtc, (F.slot.SL_STAT_KEY_READY slot).key pgSlot] s t) ∧
  (∀ (bad : Bool) (i : Install) (s s1 : State) (bs : List Byte), s.attic.install = some i → i.programming = true → i.slot < 32 → i.bank < 2 →
    s.attic.selWrite = none → s.log.pwrFail = false → s.devRead .firmware i.src i.len = (s1, .ok bs) →
    let right := Config.sha512 (bs.drop 4096) = leNat (slice bs 0x40 64)
    let bank := 2 * i.slot + i.bank
    let head := leNat (bs.take 64)
    let record := s.nextSelector i.slot (s.activeBank i.slot) (validSet (s.fget pgSlot (F.slot.SL_STAT_VALID i.slot)) i.bank)
      (s.fget pgSlot (F.slot.SL_STAT_FLOOR i.slot)) (some (i.bank, PK.set head, PK.units head))
    Runs (.installComplete bad) s fun t =>
      t.attic.install = none ∧ t.fon pgSlot (F.slot.SL_STAT_PROGRAMMING i.slot) = false ∧ SlotOnly i.slot s t ∧
      (bad = true → t.atcReports 1 i.slot 6 ∧ t.attic = { s.attic with install := none }) ∧
      (bad = false → ¬ right → t.atcReports 1 i.slot 15 ∧ t.attic = { s.attic with install := none }) ∧
      (bad = false → right → t.atcReports 1 i.slot 0 ∧
        (∀ j < bs.length - 4096, Store.get none t.attic.cells (bank * 2 ^ 33 + j) = bs[4096 + j]?) ∧
        (∀ x, (x < bank * 2 ^ 33 ∨ bank * 2 ^ 33 + (bs.length - 4096) ≤ x) →
          Store.get none t.attic.cells x = Store.get none s.attic.cells x) ∧
        Store.get none t.attic.selectors (2 * i.slot + fieldAt record 4 0 32 % 2) = some record ∧
        t.fget pgSlot (F.slot.SL_STAT_VALID i.slot) = fieldAt record 0 25 2 ∧ t.fget pgSlot (F.slot.SL_SEQ_SEQ i.slot) = fieldAt record 4 0 32 ∧
        t.attic.keys = s.attic.keys ∧ t.attic.wear = s.attic.wear ∧
        t.fget pgAtc F.atc.ATC_INSTALLS_COUNT = min (2 ^ F.atc.ATC_INSTALLS_COUNT.width - 1) (s.fget pgAtc F.atc.ATC_INSTALLS_COUNT + 1)) ∧
      Only (.attic :: .log :: eventParts) s t)

def Obligations.AtticSelection : Prop :=
  (∀ (corrected : Bool) (w : SelWrite) (s : State), s.attic.selWrite = some w → w.slot < 32 → w.op < 5 →
     (w.op = 1 → ∃ i, s.attic.install = some i ∧ i.slot = w.slot) →
     let copy := 2 * w.slot + fieldAt w.rcd 4 0 32 % 2
     Runs (.selectorWriteDone corrected) s fun t =>
       Store.get none t.attic.selectors copy = some w.rcd ∧
       (∀ x, x ≠ copy → Store.get none t.attic.selectors x = Store.get none s.attic.selectors x) ∧
       t.fget pgSlot (F.slot.SL_STAT_ACTIVE w.slot) = fieldAt w.rcd 0 24 1 ∧ t.fget pgSlot (F.slot.SL_STAT_VALID w.slot) = fieldAt w.rcd 0 25 2 ∧
       t.fget pgSlot (F.slot.SL_STAT_FLOOR w.slot) = fieldAt w.rcd 0x18 0 16 ∧ t.fget pgSlot (F.slot.SL_SEQ_SEQ w.slot) = fieldAt w.rcd 4 0 32 ∧
       t.fget pgSlot (F.slot.SL_SET_A_SET w.slot) = fieldAt w.rcd 8 0 32 ∧ t.fget pgSlot (F.slot.SL_SET_B_SET w.slot) = fieldAt w.rcd 0xC 0 32 ∧
       t.fget pgSlot (F.slot.SL_LEN_A_UNITS w.slot) = fieldAt w.rcd 0x10 0 21 ∧
       t.fget pgSlot (F.slot.SL_LEN_B_UNITS w.slot) = fieldAt w.rcd 0x14 0 21 ∧
       t.attic.selWrite = (if corrected then some ⟨w.slot, 0, false, refreshed w.rcd⟩ else none) ∧
       (corrected = true → bitAt (t.fget pgAtc F.com.EVT_STAT) 9 = true) ∧
       (∀ i, w.op = 1 → s.attic.install = some i → t.attic.install = some { i with programming := true } ∧
         t.fon pgSlot (F.slot.SL_STAT_PROGRAMMING w.slot) = true ∧
         let n := wearBlocks ((i.len - 4096) / 4096)
         let b := 2 * i.slot + i.bank
         (∀ k < n, t.wearOf b k = s.wearOf b k + 1) ∧
         (∀ x, (x < 248 * b ∨ 248 * b + n ≤ x) → Store.get none t.attic.wear x = Store.get none s.attic.wear x)) ∧
       (w.op ≠ 1 → t.attic.install = s.attic.install ∧ t.attic.wear = s.attic.wear) ∧
       (2 ≤ w.op → t.atcReports w.op w.slot 0) ∧
       (w.op = 2 → t.fon pgSlot (F.slot.SL_SVC_REPLACING w.slot) = true ∧ t.fget pgSlot (F.slot.SL_SVC_FRONT w.slot) = 0) ∧
       t.attic.cells = s.attic.cells ∧ t.attic.keys = s.attic.keys ∧ t.attic.records = s.attic.records ∧ t.attic.repl = s.attic.repl ∧
       SlotOnly w.slot s t ∧ Only (.attic :: .log :: eventParts) s t) ∧
  (let svc (slot : Nat) : List Nat := [(F.slot.SL_SVC_FRONT slot).key pgSlot, (F.slot.SL_SVC_REPLACING slot).key pgSlot]
   (∀ (slot : Fin 32) (layers : List LayerSpec) (s : State), s.fon pgSlot (F.slot.SL_SVC_REPLACING slot) = true →
     s.fon pgSlot (F.slot.SL_CFG_REPL_MODE slot) = false → Store.get none s.attic.repl slot = none →
     Runs (.replaceInPlace slot layers) s fun t => t.fget pgSlot (F.slot.SL_SVC_FRONT slot) = 0 ∧
       (layers = [] → t.fon pgSlot (F.slot.SL_SVC_REPLACING slot) = false ∧ t.attic = s.attic) ∧
       (layers ≠ [] → ∃ r, Store.get none t.attic.repl slot = some r ∧ r.old = s.liveRequests slot ∧ r.new = 0 ∧
         r.layers.map (·.objs) = layers.map (·.objs) ∧ r.layers.map (·.opens) = layers.map (·.opens)) ∧
       Only [.regs, .attic] s t ∧ RegsOnly (svc slot) s t) ∧
   (∀ (slot : Fin 32) (r : Replacement) (l : ReplLayer) (rest : List ReplLayer) (s : State), Store.get none s.attic.repl slot = some r →
     r.layers = l :: rest → s.passed l r.old = true → s.refilled slot l = true →
     Runs (.frontAdvance slot) s fun t =>
       t.fget pgSlot (F.slot.SL_SVC_FRONT slot) = min (2 ^ (F.slot.SL_SVC_FRONT slot).width - 1) (s.fget pgSlot (F.slot.SL_SVC_FRONT slot) + 1) ∧
       (l.opens.Nodup → 0 < r.new → (∀ p ∈ l.opens, p.1 < 2 ∧ p.2 < 4096) → ∀ p ∈ l.opens, t.tally p.1 p.2 = (s.tally p.1 p.2 + r.new) % 2 ^ 32) ∧
       (∀ d < 2, ∀ n < 4096, (∀ p ∈ l.opens, p.1 < 2 ∧ p.2 < 4096) → (d, n) ∉ l.opens → t.tally d n = s.tally d n) ∧
       (rest = [] → Store.get none t.attic.repl slot = none ∧ t.fon pgSlot (F.slot.SL_SVC_REPLACING slot) = false) ∧
       (rest ≠ [] → Store.get none t.attic.repl slot = some { r with layers := rest, front := r.front + 1, fails := 0 }) ∧
       Only [.regs, .attic, .agate, .freeCtr] s t) ∧
   (∀ (slot : Fin 32) (s : State), s.fon pgSlot (F.slot.SL_SVC_REPLACING slot) = true → s.fon pgSlot (F.slot.SL_CFG_REPL_MODE slot) = true →
     Runs (.genSwitch slot) s (fun t => t.fget pgSlot (F.slot.SL_SVC_GEN slot) = 1 - s.fget pgSlot (F.slot.SL_SVC_GEN slot) ∧
       Only [.regs] s t ∧ RegsOnly [(F.slot.SL_SVC_GEN slot).key pgSlot] s t) ∧
     (s.pins slot (1 - s.fget pgSlot (F.slot.SL_SVC_GEN slot)) = 0 → Store.wf none s.tiers.objects = true →
       Runs (.oldGenDestroy slot) s fun t => t.fon pgSlot (F.slot.SL_SVC_REPLACING slot) = false ∧
         let old (o : Obj) : Prop := ∃ a off, o.home = some a ∧ winOf a = .attic (2 * slot + (1 - s.activeBank slot)) off
         (∀ h o, s.obj h = some o → old o → t.obj h = none) ∧ (∀ h, (∀ o, s.obj h = some o → ¬ old o) → t.obj h = s.obj h) ∧
         t.attic = s.attic ∧ Only [.regs, .tiers] s t)))

def Obligations.MailboxCommands : Prop :=
  (∀ (r : Requester) (k : Fin 16) (s : State), s.reaches r pgMbx 0x040 = true → s.fon pgMbx F.mbx.MBX_RESULT_BUSY = true →
    ∀ c ∈ [Instr.enrol r, .cakImport r, .cakDelete r k, .extendM r k, .fwUpdate r, .fwActivate r, .fwRaiseFloor r, .debugGrant r],
      Runs c s fun t => t.onyx = s.onyx ∧ t.attic = s.attic ∧
        t.fget pgMbx (F.com.EVT_CNT 7) = min (2 ^ (F.com.EVT_CNT 7).width - 1) (s.fget pgMbx (F.com.EVT_CNT 7) + 1) ∧
        Only [.regs, .hub] s t ∧ RegsOnly [(F.com.EVT_CNT 7).key pgMbx] s t) ∧
  (∀ (r : Requester) (k : Fin 16) (s : State), s.mbxReady r →
    let u := s.releaseHolds r
    let a := s.fget pgMbx F.mbx.MBX_SRC_ADDR
    let len := s.fget pgMbx F.mbx.MBX_LEN_LENGTH
    (s.enrolled = false → s.unclaimed = false → Runs (.enrol r) s fun t => u.mbxBegun t 1 3 .none) ∧
    (s.enrolled = true ∨ s.unclaimed = true → Runs (.enrol r) s fun t => match u.package pgMbx 0x71 a len with
      | (v, .error st) => v.mbxBegun t 1 st .none
      | (v, .ok (d, pl)) => v.mbxBegun t 1 0 (.enrol pl (fieldAt d 4 24 1 == 1))) ∧
    Runs (.cakImport r) s (fun t => match u.package pgMbx 0x73 a len with
      | (v, .error st) => v.mbxBegun t 5 st .none
      | (v, .ok (d, pl)) => v.mbxBegun t 5 0 (.cakImport (fieldAt d 4 16 4) pl)) ∧
    Runs (.cakDelete r k) s (fun t => u.mbxBegun t 6 0 (.cakDelete k)) ∧
    (r.isCore = true → k.val < 8 → Runs (.extendM r k) s fun t => u.mbxBegun t 7 3 .none) ∧
    (r.isCore = true → 8 ≤ k.val → ∀ v bs, u.devRead .firmware a 64 = (v, .ok bs) →
      Runs (.extendM r k) s fun t => v.mbxBegun t 7 0 (.extend k bs)) ∧
    (∀ v bs, u.devRead .firmware a len = (v, .ok bs) → Runs (.fwUpdate r) s fun t =>
      (∀ st, v.bundleCheck bs = some st → v.mbxBegun t 2 st .none) ∧
      (v.bundleCheck bs = none → v.mbxBegun t 2 0 (.update (1 - s.fwActive) (fieldAt (leNat (bs.take 64)) 0x10 0 16) bs))) ∧
    Runs (.fwActivate r) s (fun t => u.mbxBegun t 3 (if bitAt s.fwValid (1 - s.fwActive) then 0 else 3) .activate) ∧
    Runs (.fwRaiseFloor r) s (fun t => u.mbxBegun t 4 (if s.fget pgMbx F.mbx.BOOT_STAT_IMAGE = s.fwActive then 0 else 3) .raiseFloor) ∧
    (∀ v bs, u.devRead .firmware a tokenLen = (v, .ok bs) → Runs (.debugGrant r) s fun t =>
      let st := v.tokenCheck bs len
      t.onyx.mbx = some ⟨8, st, if st = 0 then .debug bs else .none⟩ ∧ t.fon pgMbx F.mbx.MBX_RESULT_BUSY = true ∧
      t.fget pgMbx F.mbx.DEBUG_NONCE_NONCE = Config.free s.freeCtr % 2 ^ 64 ∧
      (st = 0 → ∀ x < 16, t.ksState x = if s.ksState x = 1 then 0 else if s.ksState x = 2 then 3 else s.ksState x) ∧
      (st ≠ 0 → { t.onyx with mbx := s.onyx.mbx } = s.onyx ∧ Only (.onyx :: .freeCtr :: eventParts) s t)))

def Obligations.MailboxEffects : Prop :=
  ∀ (c : MbxCmd) (s : State), s.onyx.mbx = some c → c.op < 16 → c.status < 256 → (c.op = 8 → c.status = 0 → s.tenantsGone = true) →
    let o : Onyx := { s.onyx with mbx := none }
    Runs .mailboxCmdDone s fun t =>
      t.fget pgMbx F.mbx.MBX_RESULT_STATUS = c.status ∧ t.fget pgMbx F.mbx.MBX_RESULT_OP = c.op ∧ t.fon pgMbx F.mbx.MBX_RESULT_BUSY = false ∧
      bitAt (t.fget pgMbx F.com.EVT_STAT) 8 = true ∧
      (c.status = 15 → bitAt (t.fget pgMbx F.com.EVT_STAT) 9 = true ∧
        t.fget pgMbx F.mbx.SIG_FAIL_COUNT = min (2 ^ F.mbx.SIG_FAIL_COUNT.width - 1) (s.fget pgMbx F.mbx.SIG_FAIL_COUNT + 1)) ∧
      (c.effect = .none → t.onyx = o ∧ t.attic = s.attic ∧ t.net = s.net) ∧
      (∀ pl pol, c.effect = .enrol pl pol → t.onyx = Onyx.extended { o with
          ivk := some (leNat (pl.take 512)), suk := some (leNat (slice pl 512 1792)), policy := some (leNat (slice pl 2304 64), pol),
          siteChain := if pl.length = 6464 then some (pl.drop 2368) else none } 5 (digestOf (pl.take 512)) ∧
        t.enrolled = true ∧ t.unclaimed = false ∧ t.attic = s.attic) ∧
      (∀ im svn bs, c.effect = .update im svn bs → t.onyx = o ∧ Store.get none t.attic.bundles im = some (leNat (slice bs 0xC 4), svn, bs) ∧
        t.attic.fwActive = some s.fwActive ∧ t.attic.fwValid = some (s.fwValid ||| 2 ^ im)) ∧
      (c.effect = .activate → t.onyx = o ∧ t.attic = { s.attic with fwActive := some (1 - s.fwActive), fwValid := some s.fwValid }) ∧
      (c.effect = .raiseFloor → t.onyx = o ∧ t.attic = { s.attic with fwFloor := some (s.fget pgMbx F.mbx.BOOT_STAT_SVN) } ∧
        t.fget pgMbx F.mbx.FW_FLOOR_FLOOR = s.fget pgMbx F.mbx.BOOT_STAT_SVN % 2 ^ 16) ∧
      (∀ k cak, c.effect = .cakImport k cak → k < 16 → t.onyx = { o with caks := Store.set none o.caks k (some cak) } ∧
        bitAt (t.fget pgMbx F.mbx.CAK_VALID_VALID) k = true) ∧
      (∀ k, c.effect = .cakDelete k → k < 16 → t.onyx = { o with caks := Store.set none o.caks k none } ∧
        bitAt (t.fget pgMbx F.mbx.CAK_VALID_VALID) k = false) ∧
      (∀ i d, c.effect = .extend i d → t.onyx = o.extended i d ∧ t.attic = s.attic) ∧
      (∀ tok, c.effect = .debug tok → t.onyx = Onyx.extended { o with debugLevel := fieldAt (leNat (tok.take 64)) 4 0 8 } 6 (digestOf tok) ∧
        t.fon pgMbx F.mbx.BOOT_STAT_DEBUG = true ∧ t.attic = s.attic) ∧
      Only ([.onyx, .attic, .net, .log] ++ eventParts) s t

def Obligations.OnyxResponses : Prop :=
  (∀ (fn : Fin 4) (nonce : BitVec 256) (s : State),
     let answers (c : Instr) (msg : String) (data : List Byte) : Prop := Runs c s fun t =>
       t.out = s.out ++ [Out.spdm fn msg data] ∧ Only [.out, .onyx] s t ∧ { t.onyx with spdm := s.onyx.spdm } = s.onyx
     let sum := digestOf s.allMeas
     answers (.getVersion fn) "VERSION" [0x12, 0x13] ∧ answers (.getCapabilities fn) "CAPABILITIES" [0x16] ∧
     answers (.negotiateAlgorithms fn true true) "ALGORITHMS" [] ∧ (∀ a, answers (.negotiateAlgorithms fn a false) "ERROR NegotiationFail" []) ∧
     (∀ a, answers (.negotiateAlgorithms fn false a) "ERROR NegotiationFail" []) ∧
     answers (.getDigests fn) "DIGESTS" (digestOf (Config.chain 0) ++ (s.onyx.siteChain.map digestOf).getD []) ∧
     answers (.getCertificate fn 0) "CERTIFICATE" (Config.chain 0) ∧
     (∀ c, s.onyx.siteChain = some c → answers (.getCertificate fn 1) "CERTIFICATE" c) ∧
     (∀ slot : Fin 8, 2 ≤ slot.val → answers (.getCertificate fn slot) "ERROR" []) ∧
     answers (.challenge fn nonce) "CHALLENGE_AUTH" (sum ++ Config.dikSign (sum ++ leBytes 32 nonce.toNat)) ∧
     (∀ i : Fin 16, answers (.getMeasurements fn (BitVec.ofNat 8 (i + 1)) false nonce) "MEASUREMENTS" (s.measBytes i)) ∧
     (∀ b : BitVec 8, answers (.getMeasurements fn b true nonce) "MEASUREMENTS"
       (s.measBlock b.toNat ++ Config.dikSign (s.measBlock b.toNat ++ leBytes 32 nonce.toNat))) ∧
     answers (.spdmUnsupported fn) "ERROR UnsupportedRequest" []) ∧
  ((∀ (bank : Fin 64) (s : State), bitAt (s.fget pgSlot (F.slot.SL_STAT_VALID (bank / 2))) (bank % 2) = true →
     let record := s.bankRecord bank
     let signer := PK.signer (leNat (record.take 64))
     let barred := signer = 0 ∧ s.policyMet = false
     let right := Config.pssVerify (s.signerKey signer) (record.take 0x280) (slice record 0x280 512)
     Runs (.bankKeyRelease bank) s fun t =>
       (barred → t.fon pgMbx F.mbx.BOOT_STAT_POLICY_MET = false ∧ t.attic = s.attic ∧ t.onyx = s.onyx) ∧
       (¬ barred → right = false ∨ s.bankKeyOf record = none → t.attic = s.attic ∧ t.onyx = s.onyx) ∧
       (¬ barred → right = true → ∀ k, s.bankKeyOf record = some k →
         t.attic = { s.attic with keys := Store.set none s.attic.keys bank (some k) } ∧ t.onyx = s.onyx.extended 7 (digestOf record)) ∧
       t.fon pgSlot (F.slot.SL_STAT_KEY_READY (bank / 2)) = t.bankKey (2 * (bank / 2) + s.activeBank (bank / 2)) ∧
       SlotOnly (bank / 2) s t ∧ Only [.regs, .attic, .onyx] s t) ∧
   (∀ s : State, Runs .entropyFail s fun t => t.onyx = { s.onyx with drbgStopped := true } ∧ Only [.onyx] s t))

def Obligations.TenantSlots : Prop :=
  ((∀ (r : Requester) (k : Fin 16) (s : State), s.reaches r (pgKs k) 0x040 = true →
     Runs (.ksActivate r k) s fun t =>
       match (s.releaseHolds r).package (pgKs k) 0x72 (s.fget (pgKs k) F.ks.KS_SRC_ADDR) (s.fget (pgKs k) F.ks.KS_LEN_LENGTH) with
       | (v, .error st) => t = v.ksResult k st
       | (v, .ok (d, pl)) =>
         let key : TenantKey := ⟨leNat pl, fieldAt d 8 0 32, fieldAt d 4 0 16⟩
         if v.ksBarred k key.tag then t = v.ksResult k 3
         else if key.gen = s.fget (pgKs k) F.ks.KS_LAST_GEN_GEN then t = v.ksResult k 0x81
         else if s.ksState k = 5 then t.onyx = { s.onyx with heldAct := Store.set none s.onyx.heldAct k (some key) } ∧ Only [.onyx] v t
         else t.onyx = { s.onyx with keys := Store.set none s.onyx.keys k (some key) } ∧ t.ksState k = 1 ∧ Only (.onyx :: .log :: eventParts) v t) ∧
   (∀ (k : Fin 16) (key : TenantKey) (s : State), s.ksKey k = some key → s.ksState k = 1 → Runs (.activationDone k) s fun t =>
     t.ksState k = 2 ∧ t.fget (pgKs k) F.ks.KS_STAT_RESULT = 0 ∧ t.fget (pgKs k) F.ks.KS_STAT_KEY_GEN = key.gen % 2 ^ 16 ∧
     t.fget (pgKs k) F.ks.KS_TAG_TENANT_TAG = key.tag % 2 ^ 32 ∧ bitAt (t.fget (pgKs k) F.com.EVT_STAT) 8 = true ∧
     (∀ x < 16, x ≠ k.val → t.ksState x = s.ksState x) ∧ Only (.log :: eventParts) s t) ∧
   (∀ (r : Requester) (k : Fin 16) (scrub : Bool) (s : State), s.reaches r (pgKs k) 0x040 = true →
     (s.ksState k = 1 → Runs (.ksRevoke r k scrub) s fun t => t.ksState k = 0 ∧ t.fget (pgKs k) F.ks.KS_STAT_RESULT = 12 ∧
       t.onyx = { s.onyx with keys := Store.set none s.onyx.keys k none } ∧ t.fget (pgKs k) F.ks.KS_T_REVOKE_TIME = s.time.toNat ∧
       Only (.onyx :: .log :: eventParts) s t) ∧
     (s.ksState k = 2 → Runs (.ksRevoke r k scrub) s fun t => t.ksState k = 3 ∧ t.fget (pgKs k) F.ks.KS_STAT_RESULT = 0 ∧
       t.fget (pgKs k) F.ks.KS_LANDED_COUNT = 0 ∧ t.fget (pgKs k) F.ks.KS_T_REVOKE_TIME = s.time.toNat ∧
       t.onyx = { s.onyx with scrub := Store.set false s.onyx.scrub k scrub } ∧
       (∀ m ∈ t.tiers.migs, ∀ o, t.obj m.handle = some o → ¬ (o.cls < 2 ∧ o.owner = k.val)) ∧
       (s.running = true → s.agate.tenant = k.val → t.running = false ∧ t.agate.fillDue = true ∧
         t.fget (pgAgt 0) F.agt.AGT_STAT_END_STATUS = 12) ∧
       (∀ x < 16, x ≠ k.val → t.ksState x = s.ksState x) ∧ t.attic = s.attic) ∧
     (s.ksState k = 5 → (s.ksHeld k).isSome = true → Runs (.ksRevoke r k scrub) s fun t => t.ksState k = 5 ∧
       t.fget (pgKs k) F.ks.KS_STAT_RESULT = 12 ∧ t.onyx = { s.onyx with heldAct := Store.set none s.onyx.heldAct k none } ∧
       Only [.regs, .hub, .onyx] s t) ∧
     (s.ksState k ≠ 1 → s.ksState k ≠ 2 → (s.ksState k = 5 → s.ksHeld k = none) → Runs (.ksRevoke r k scrub) s fun t =>
       t.onyx = s.onyx ∧ t.fget (pgKs k) (F.com.EVT_CNT 7) = min (2 ^ (F.com.EVT_CNT 7).width - 1) (s.fget (pgKs k) (F.com.EVT_CNT 7) + 1) ∧
       Only [.regs, .hub] s t ∧ RegsOnly [(F.com.EVT_CNT 7).key (pgKs k)] s t))) ∧
  ((∀ (k : Fin 16) (n : BitVec 32) (s : State), s.ksState k = 3 → (s.agate.fillDue = true → s.tilesIdle = true) →
     Runs (.revokeLanded k n) s fun t => t.ksState k = 4 ∧ t.fget (pgKs k) F.ks.KS_LANDED_COUNT = n.toNat ∧
       t.onyx = { s.onyx with keys := Store.set none s.onyx.keys k none } ∧ t.agate = { s.agate with fillDue := false } ∧
       (∀ a, Store.get 0 t.shelf a = if s.agate.fillDue then 0 else Store.get 0 s.shelf a) ∧
       Only ([.onyx, .agate, .shelf, .log] ++ eventParts) s t) ∧
   (∀ (k : Fin 16) (s : State), s.ksState k = 4 → Store.wf none s.tiers.objects = true → Runs (.zeroised k) s fun t =>
     t.ksState k = (if Store.get false s.onyx.scrub k then 5 else 0) ∧
     t.fget (pgKs k) F.ks.KS_LAST_GEN_GEN = s.fget (pgKs k) F.ks.KS_STAT_KEY_GEN % 2 ^ 16 ∧ t.fget (pgKs k) F.ks.KS_STAT_KEY_GEN = 0 ∧
     t.fget (pgKs k) F.ks.KS_TAG_TENANT_TAG = 0 ∧ t.fget (pgKs k) F.ks.KS_T_ZERO_TIME = s.time.toNat ∧
     bitAt (t.fget (pgKs k) F.com.EVT_STAT) 9 = true ∧
     (∀ h o, s.obj h = some o → o.cls < 2 → o.owner = k.val → t.obj h = none) ∧
     (∀ h, (∀ o, s.obj h = some o → ¬ (o.cls < 2 ∧ o.owner = k.val)) → t.obj h = s.obj h) ∧
     (∀ x < 16, x ≠ k.val → t.ksState x = s.ksState x) ∧ Only ([.tiers, .xpt, .shelf, .onyx, .log] ++ eventParts) s t) ∧
   (∀ (k : Fin 16) (s : State), s.ksState k = 5 → Runs (.scrubDone k) s fun t =>
     (∀ c < 8, ∀ j < 64, ∀ off < 2 ^ 36, s.fon (pgRgn c) (F.rgn.RG_CFG_VALID j) = true → s.fget (pgRgn c) (F.rgn.RG_CFG_KEY j) = k.val →
       s.fget (pgRgn c) (F.rgn.RG_SPAN_BASE j) * 2 ^ 21 ≤ off → off < s.fget (pgRgn c) (F.rgn.RG_SPAN_LIMIT j) * 2 ^ 21 →
       t.cellRaw (c * 2 ^ 32 + off / 16) = 0) ∧
     (∀ x, inRuns (s.scrubRuns k (x / 2 ^ 32)) (x % 2 ^ 32 * 16) = false → t.cellRaw x = s.cellRaw x) ∧
     (∀ c < 8, ∀ x, inPage (pgRgn c) x → ∀ d, Store.get d t.regs x = Store.get d s.regs x) ∧ bitAt (t.fget (pgKs k) F.com.EVT_STAT) 10 = true ∧
     (s.ksHeld k = none → t.ksState k = 0 ∧ t.onyx = s.onyx) ∧
     (∀ key, s.ksHeld k = some key → s.fon pgMbx F.mbx.BOOT_STAT_DEBUG = false → t.ksState k = 1 ∧
       t.onyx = { s.onyx with heldAct := Store.set none s.onyx.heldAct k none, keys := Store.set none s.onyx.keys k (some key) }) ∧
     (∀ key, s.ksHeld k = some key → s.fon pgMbx F.mbx.BOOT_STAT_DEBUG = true → t.ksState k = 0 ∧ t.fget (pgKs k) F.ks.KS_STAT_RESULT = 3 ∧
       t.onyx = { s.onyx with heldAct := Store.set none s.onyx.heldAct k none }) ∧
     Only ([.tiers, .onyx, .log] ++ eventParts) s t))

def Obligations.PortTransmit : Prop :=
  (∀ (n : Fin 8) (b : Bool) (c k : Nat) (q : QFrame) (s : State), c ≤ 7 → s.linkUp n = true → s.fon (pgEth n) F.eth.PORT_STAT_LPI = false →
    s.fget (pgMs n) F.ms.MS_CTRL_TX_AN < 4 →
    (s.msOn n = true → s.fon (pgMs n) (F.ms.MS_SA_TX_VALID (s.fget (pgMs n) F.ms.MS_CTRL_TX_AN)) = true) →
    (∀ x, c < x → x ≤ 7 → (s.port n).next x = none) → (s.port n).next c = some (k, q) → s.mayStart n c q.frame = true →
    let sec := s.msOn n && !s.ptpClear n q.frame
    let an := s.fget (pgMs n) F.ms.MS_CTRL_TX_AN
    Runs (.frameTransmit (n.castLT (by omega)) b) s fun t =>
      t.out[s.out.length]? = some (Out.frame n c q.frame sec) ∧ (t.port n).queue c = ((s.port n).queue c).eraseIdx k ∧
      (∀ x, x ≠ c → (t.port n).queue x = (s.port n).queue x) ∧ PortOnly n s t ∧
      Counted s t (pgEth n) F.eth.TX_FRAMES_COUNT 1 ∧ Counted s t (pgEth n) (F.eth.TXC_COUNT c) 1 ∧
      Counted s t (pgEth n) F.eth.TX_BYTES_COUNT (frameLen q.frame + if sec then 32 else 0) ∧
      (sec = true → t.fget (pgMs n) (F.ms.MS_TX_PN_PN an) = (s.fget (pgMs n) (F.ms.MS_TX_PN_PN an) + 1) % 2 ^ 64 ∧
        Counted s t (pgMs n) F.ms.MS_OUT_PROT_COUNT 1) ∧
      (q.entry = none → Only (.net :: eventParts) s t) ∧
      (∀ j ts, q.entry = some (j, ts) → t.fget (pgEth n) F.eth.TXQ_HEAD_HEAD
        = (j + 1) % 2 ^ s.fget (pgEth n) F.eth.TXQ_CFG_LOG2 % 2 ^ 12 ∧ Only ([.net, .shelf, .tiers] ++ eventParts) s t)) ∧
  (∀ (n : Fin 9) (d : Nat) (eb bs : List Byte) (s s1 s2 : State),
    let p := ringPage n
    let k := s.fget p F.eth.TXQ_HEAD_HEAD % 2 ^ s.fget p F.eth.TXQ_CFG_LOG2
    s.enabled p = true → k ≠ s.fget p F.eth.TXQ_TAIL_TAIL % 2 ^ s.fget p F.eth.TXQ_CFG_LOG2 →
    s.devRead .firmware (s.txEntry n k) 32 = (s1, .ok eb) → checkStruct 32 (leNat eb) = .clean d → txCheck n d = none →
    s1.devRead .firmware (fieldAt d 0 0 52) (fieldAt d 8 0 14) = (s2, .ok bs) →
    (n.val < 8 → (s.port n).fwBusy = false → s.linkUp n = true →
      (frameOfBytes bs).data.length ≤ s.fget (pgEth n) F.eth.PORT_CFG_MAX_PAYLOAD → Runs (.fwTxEntry n) s fun t =>
        let c := fieldAt d 8 16 3
        (t.port n).queue c = (s.port n).queue c ++ [⟨frameOfBytes bs, 3, some (k, fieldAt d 8 19 1 == 1)⟩] ∧
        (∀ x, x ≠ c → (t.port n).queue x = (s.port n).queue x) ∧ (t.port n).fwBusy = true ∧ PortOnly n s t ∧ Only [.regs, .net] s t) ∧
    (n.val = 8 → s.net.mgt = [] → (frameOfBytes bs).data.length ≤ 1500 → Runs (.fwTxEntry n) s fun t =>
        t.net = { s.net with mgt := [⟨bs, some k, 0, none⟩] } ∧ Only [.regs, .net] s t)) ∧
  (∀ (r : Requester) (n : Fin 9) (tail : BitVec 12) (s : State), s.reaches r (ringPage n) 0x0A4 = true → Runs (.txqDoorbell r n tail) s fun t =>
    t.fget (ringPage n) F.eth.TXQ_TAIL_TAIL = tail.toNat ∧ Only [.regs, .hub] s t ∧ RegsOnly [F.eth.TXQ_TAIL_TAIL.key (ringPage n)] s t)

def Obligations.ManagementPort : Prop :=
  (∀ (carrier : Bool) (m : MgtFrame) (rest : List MgtFrame) (s : State), s.net.mgt = m :: rest → m.backoff = none →
    (carrier = false ∨ s.fon pgMgt F.mgt.MGT_CFG_FULL_DUPLEX = true → Runs (.frameTransmit 8 carrier) s fun t =>
      t.out[s.out.length]? = some (Out.mgtFrame m.bytes) ∧ t.net = { s.net with mgt := rest } ∧ Counted s t pgMgt F.mgt.TX_FRAMES_COUNT 1 ∧
      (m.entry = none → Only [.regs, .out, .net] s t) ∧
      (∀ k, m.entry = some k → t.fget pgMgt F.eth.TXQ_HEAD_HEAD = (k + 1) % 2 ^ s.fget pgMgt F.eth.TXQ_CFG_LOG2 % 2 ^ 12 ∧
        Only ([.net, .shelf, .tiers] ++ eventParts) s t)) ∧
    (carrier = true → s.fon pgMgt F.mgt.MGT_CFG_FULL_DUPLEX = false → Runs (.frameTransmit 8 carrier) s fun t =>
      Counted s t pgMgt F.mgt.DEFERRED_COUNT 1 ∧ Only [.regs] s t ∧ RegsOnly [F.mgt.DEFERRED_COUNT.key pgMgt] s t)) ∧
  (∀ (m : MgtFrame) (rest : List MgtFrame) (s : State), s.net.mgt = m :: rest → s.fon pgMgt F.mgt.MGT_CFG_FULL_DUPLEX = false →
    (m.attempts < 15 → Runs (.collision false) s fun t => t.out = s.out ++ [Out.jam] ∧ Counted s t pgMgt F.mgt.COLLISIONS_COUNT 1 ∧
      (∃ b < 2 ^ min (m.attempts + 1) 10, t.net = { s.net with mgt := { m with attempts := m.attempts + 1, backoff := some b } :: rest }) ∧
      Only [.regs, .out, .net, .freeCtr] s t ∧ RegsOnly [F.mgt.COLLISIONS_COUNT.key pgMgt] s t) ∧
    (15 ≤ m.attempts → Runs (.collision false) s fun t => t.net = { s.net with mgt := rest } ∧ Counted s t pgMgt F.mgt.EXCESS_COLL_COUNT 1 ∧
      Counted s t pgMgt F.mgt.COLLISIONS_COUNT 1 ∧ Only ([.net, .shelf, .tiers] ++ eventParts) s t) ∧
    Runs (.collision true) s fun t => t.net = { s.net with mgt := rest } ∧ Counted s t pgMgt F.mgt.LATE_COLL_COUNT 1 ∧
      Counted s t pgMgt F.mgt.COLLISIONS_COUNT 1 ∧ Only ([.net, .shelf, .tiers] ++ eventParts) s t) ∧
  (∀ (m : MgtFrame) (rest : List MgtFrame) (s : State), s.net.mgt = m :: rest → Runs .backoffExpiry s fun t =>
    t.net = { s.net with mgt := { m with backoff := none } :: rest } ∧ Only [.net] s t) ∧
  (∀ (r : Requester) (reg phy : Fin 32) (answer : BitVec 16) (s : State), s.reaches r pgMgt 0x050 = true →
    Runs (.mdioCmd r reg phy true answer) s (fun t => t.out = s.out ++ [Out.mdio phy reg (s.fget pgMgt F.mgt.MDIO_DATA_DATA)] ∧
      Only [.hub, .out] s t) ∧
    Runs (.mdioCmd r reg phy false answer) s fun t => t.fget pgMgt F.mgt.MDIO_DATA_DATA = answer.toNat ∧ Only [.regs, .hub] s t ∧
      RegsOnly [F.mgt.MDIO_DATA_DATA.key pgMgt] s t)

def Obligations.PortLinks : Prop :=
  (∀ (n : Fin 8) (lpi : Bool) (s : State), s.linkUp n = false → s.fget (pgEth n) F.eth.PORT_CFG_MODE ≠ 0 → s.enabled (pgEth n) = true →
    48 ≤ s.fget (pgEth n) F.eth.PORT_CFG_MAX_PAYLOAD → Runs (.linkUp n lpi) s fun t => t.linkUp n = true ∧
      t.fget (pgEth n) F.eth.PORT_STAT_CUR_WIDTH = s.fget (pgEth n) F.eth.PORT_CFG_WIDTH % 4 ∧ (t.port n).lpiPartner = lpi ∧
      bitAt (t.fget (pgEth n) F.com.EVT_STAT) 8 = true ∧
      s.ctlQueued t n 1 lldpMac (placeAt 0 0 16 (s.fget ⟨.vst, 0⟩ F.vst.VSTORE_FAMILY_MEMBER) + placeAt 0 16 3 7) ∧
      PortOnly n s t ∧ Only (.net :: eventParts) s t) ∧
  (∀ (n : Fin 8) (s : State), s.takesCtl n → Runs (.helloTimer n) s fun t =>
    s.ctlQueued t n 1 lldpMac (placeAt 0 0 16 (s.fget ⟨.vst, 0⟩ F.vst.VSTORE_FAMILY_MEMBER) + placeAt 0 16 3 7) ∧ PortOnly n s t ∧
    Only [.net] s t) ∧
  (∀ (n : Fin 8) (s : State), s.linkUp n = true →
    Runs (.linkDown n) s (fun t => t.linkUp n = false ∧ t.fon (pgEth n) F.eth.PORT_STAT_PARTNER_KNQ = false ∧
      t.fon (pgEth n) F.eth.PORT_STAT_LPI = false ∧ t.fon (pgEth n) F.eth.PORT_STAT_SHED_PENDING = false ∧
      t.fget (pgEth n) F.eth.PORT_STAT_CUR_WIDTH = s.fget (pgEth n) F.eth.PORT_CFG_WIDTH % 4 ∧ (∀ c, (t.port n).queue c = []) ∧
      (t.port n).shed = none ∧ Counted s t (pgEth n) F.eth.LINK_DOWNS_COUNT 1 ∧ bitAt (t.fget (pgEth n) F.com.EVT_STAT) 9 = true ∧
      PortOnly n s t ∧ Only ([.net, .shelf, .tiers] ++ eventParts) s t) ∧
    Runs (.hello n 0x00A2) s fun t => t.fon (pgEth n) F.eth.PORT_STAT_PARTNER_KNQ = true ∧ Only [.regs] s t ∧
      RegsOnly [F.eth.PORT_STAT_PARTNER_KNQ.key (pgEth n)] s t) ∧
  (∀ (n : Fin 8) (s : State), s.linkUp n = true → s.fon (pgEth n) F.eth.PORT_CFG_LPI_EN = true →
    s.fon (pgEth n) F.eth.PORT_STAT_PARTNER_KNQ = false → (s.port n).lpiPartner = true → (s.port n).idle = true →
    s.fon (pgEth n) F.eth.PORT_STAT_LPI = false → (s.gatesAt n s.time.toNat).2.1.lpiOk = true →
    (∀ e, (s.gatesAt n s.time.toNat).2.2 = some e → s.time.toNat + 20000 ≤ e) → Runs (.lpiEnter n) s fun t =>
      t.fon (pgEth n) F.eth.PORT_STAT_LPI = true ∧ t.port n = { s.port n with lpiSince := s.time.toNat, waking := false } ∧ PortOnly n s t ∧
      Only [.regs, .net] s t ∧ RegsOnly [F.eth.PORT_STAT_LPI.key (pgEth n)] s t) ∧
  (∀ (n : Fin 8) (s : State), s.fon (pgEth n) F.eth.PORT_STAT_LPI = true →
    Runs (.lpiWake n) s (fun t => t.port n = { s.port n with waking := true } ∧ PortOnly n s t ∧ Only [.net] s t) ∧
    ((s.port n).waking = true → Runs (.lpiWakeDone n) s fun t => t.fon (pgEth n) F.eth.PORT_STAT_LPI = false ∧
      t.port n = { s.port n with waking := false } ∧ Counted s t (pgEth n) F.eth.LPI_NS_COUNT (s.time.toNat - (s.port n).lpiSince) ∧
      PortOnly n s t ∧ Only [.regs, .net] s t ∧ RegsOnly [F.eth.PORT_STAT_LPI.key (pgEth n), F.eth.LPI_NS_COUNT.key (pgEth n)] s t)) ∧
  (∀ (n : Fin 8) (k : Fin 16) (an : Fin 4) (tx rx : Bool) (pdu : List Byte) (s : State),
    let said (op : MkaOp) (v : Nat) : Prop := Runs (.mkpdu n k op pdu) s fun t => t.out = s.out ++ [Out.mka n v] ∧ Only [.out] s t
    let keyed (op : MkaOp) (v : Nat) : Prop := Runs (.mkpdu n k op pdu) s fun t =>
      (∀ x, Store.get none t.net.saks x
        = if (tx ∧ x = 8 * n + an) ∨ (rx ∧ x = 8 * n + 4 + an) then some v else Store.get none s.net.saks x) ∧
      (tx = true → t.fon (pgMs n) (F.ms.MS_SA_TX_VALID an) = true ∧ t.fget (pgMs n) (F.ms.MS_TX_PN_PN an) = 1) ∧
      (rx = true → t.fon (pgMs n) (F.ms.MS_SA_RX_VALID an) = true ∧ Store.get 0 t.net.rxPn (4 * n + an) = 0) ∧
      t.net.ports = s.net.ports ∧ Only [.regs, .net, .freeCtr] s t ∧
      RegsOnly [(F.ms.MS_SA_TX_VALID an).key (pgMs n), (F.ms.MS_TX_PN_PN an).key (pgMs n), (F.ms.MS_SA_RX_VALID an).key (pgMs n)] s t
    (Store.get none s.onyx.caks k = none → ∀ op, said op 0) ∧
    (∀ c, Store.get none s.onyx.caks k = some c → (∀ icv, said (.check icv) (Config.mkaIcv c pdu == icv).toNat) ∧
      said .compute (Config.mkaIcv c pdu) ∧ (s.onyx.drbgStopped = false → keyed (.generate an tx rx) (Config.free s.freeCtr)) ∧
      keyed (.unwrap an tx rx) (Config.mkaSak c pdu)))

def Obligations.TwinRoles : Prop :=
  let became (s t : State) (st e : Nat) : Prop := t.twinIs st (e % 2 ^ 32) ∧ Only (.log :: eventParts) s t
  let stays (s t : State) : Prop := t.twinIs (twState s) (s.fget pgTwin F.eth.TWIN_EPOCH_EPOCH) ∧ Only [.regs] s t
  (∀ (n : Fin 8) (sender : BitVec 48) (h : Heartbeat) (s : State),
    let own := s.fget pgTwin F.eth.TWIN_EPOCH_EPOCH
    (s.twinPort n = false ∨ sender.toNat ≠ s.twinMac → Runs (.heartbeat n sender h) s fun t => t = s) ∧
    (s.twinPort n = true → sender.toNat = s.twinMac → Runs (.heartbeat n sender h) s fun t =>
      t.fget pgTwin F.eth.LAST_HB_TIME = s.time.toNat ∧ t.silent = false ∧ t.linkLost = false ∧
      (twState s = 2 → (h.state = 1 ∨ h.state = 3 → became s t 0 h.epoch) ∧
        (h.state = 2 → s.secondary = false → became s t 3 (max own h.epoch + 1)) ∧
        (h.state = 0 ∨ (h.state = 2 ∧ s.secondary = true) → stays s t)) ∧
      (twState s = 0 → (h.state = 2 ∨ h.failed = true → (s.ownFailed = false → became s t 3 (h.epoch + 1)) ∧
          (s.ownFailed = true → stays s t ∧ Counted s t pgTwin F.eth.DECLINED_COUNT 1)) ∧
        (h.state ≠ 2 → h.failed = false → stays s t)) ∧
      (twState s = 1 → (own < h.epoch → s.fencedTo t 0) ∧
        (h.epoch ≤ own → h.state = 1 ∧ h.epoch = own ∧ s.secondary = true → s.fencedTo t 2) ∧
        (h.epoch ≤ own → ¬ (h.state = 1 ∧ h.epoch = own ∧ s.secondary = true) → stays s t)) ∧
      (twState s = 3 → (own < h.epoch → s.fencedTo t 0) ∧ (h.epoch ≤ own → stays s t)))) ∧
  (∀ (n : Fin 8) (s : State), s.twinPort n = true → s.takesCtl n → Runs (.heartbeatSend n) s fun t =>
    s.ctlQueued t n 2 lldpMac s.beatPayload ∧ PortOnly n s t ∧ Only [.net] s t) ∧
  (∀ s : State, s.hasTwin = true → Runs .linkSilent s fun t => t.silent = true ∧ Only [.regs] s t ∧
    RegsOnly [F.eth.TWIN_STAT_SILENT.key pgTwin] s t) ∧
  (∀ s : State, s.silent = true → Runs .probeSend s fun t =>
    (∀ n < 8, s.twinPort n = false → s.takesCtl n → s.ctlQueued t n 3 (s.twinMac + n) s.beatPayload) ∧
    (∀ n < 8, s.twinPort n = true ∨ s.linkUp n = false → t.port n = s.port n) ∧
    (s.record 8 ≠ 0 → s.record 9 ≠ 0 → ∃ bs, t.net.mgt = s.net.mgt ++ [⟨bs, none, 0, none⟩]) ∧ Only [.regs, .net] s t) ∧
  (∀ (n : Fin 8) (sender : BitVec 48) (s : State), sender.toNat = s.twinMac →
    (s.takesCtl n → Runs (.probe (n.castLT (by omega)) sender) s fun t => s.ctlQueued t n 4 (s.twinMac + n) s.beatPayload ∧ PortOnly n s t ∧
      Only [.net] s t) ∧
    (s.record 8 ≠ 0 → s.record 9 ≠ 0 → Runs (.probe 8 sender) s fun t => (∃ bs, t.net.mgt = s.net.mgt ++ [⟨bs, none, 0, none⟩]) ∧
      t.net.ports = s.net.ports ∧ Only [.net] s t) ∧
    (s.silent = true → Runs (.probeReply sender) s fun t => t.linkLost = true ∧ Only [.regs] s t ∧
      RegsOnly [F.eth.TWIN_STAT_LINK_LOST.key pgTwin] s t)) ∧
  (∀ s : State,
    let own := s.fget pgTwin F.eth.TWIN_EPOCH_EPOCH
    (s.silent = true → s.linkLost = false →
      (twState s = 2 → s.secondary = false → Runs .promoteTimeout s fun t => became s t 3 (own + 1)) ∧
      (twState s = 0 → s.ownFailed = false → Runs .promoteTimeout s fun t => became s t 3 (own + 1)) ∧
      (twState s = 0 → s.ownFailed = true → Runs .promoteTimeout s fun t => stays s t ∧ Counted s t pgTwin F.eth.DECLINED_COUNT 1) ∧
      (twState s = 1 → Runs .fenceTimeout s fun t => s.fencedTo t 2)) ∧
    (twState s = 3 → Runs .promotionComplete s fun t => t.twinIs 1 own ∧ bitAt (t.fget pgTwin F.com.EVT_STAT) 14 = true ∧
      Only (.log :: eventParts) s t)) ∧
  (∀ (r : Requester) (s : State),
    (s.reaches r pgTwin 0x204 = true → (twState s = 1 → Runs (.switchover r) s fun t => s.fencedTo t 2) ∧
      (twState s = 2 → Runs (.resume r) s fun t => became s t 3 (s.fget pgTwin F.eth.TWIN_EPOCH_EPOCH + 1))) ∧
    (s.reaches r pgTwin 0x208 = true →
      (twState s = 1 → Runs (.healthFailed r true) s fun t => t.ownFailed = true ∧ s.fencedTo t 2) ∧
      Runs (.healthFailed r false) s fun t => t.ownFailed = false ∧ Only [.regs, .hub] s t ∧
        RegsOnly [F.eth.TWIN_HEALTH_FAILED.key pgTwin] s t))

def Obligations.GateLists : Prop :=
  (∀ base cycle t : Nat, 0 < cycle → t + 2000 ≤ changeTime base cycle t ∧ (t + 2000 ≤ base → changeTime base cycle t = base) ∧
    (∃ k, changeTime base cycle t = base + k * cycle) ∧ ∀ k, t + 2000 ≤ base + k * cycle → changeTime base cycle t ≤ base + k * cycle) ∧
  (∀ (r : Requester) (n : Fin 8) (s s1 : State) (bs : List Byte), s.reaches r (pgGl n) 0x044 = true → s.enabled (pgGl n) = true →
    let a := s.fget (pgGl n) F.gl.GL_ADDR_ADDR
    let k := s.fget (pgGl n) F.gl.GL_LEN_ENTRIES
    let cycle := s.fget (pgGl n) F.gl.GL_CYCLE_NS
    let raw := (List.range k).map fun i => leNat (slice bs (8 * i) 8)
    (s.fon (pgGl n) F.gl.GL_STAT_PENDING = true → Runs (.glLoad r n) s fun t => t.fget (pgGl n) F.gl.GL_STAT_LOAD_STATUS = 3 ∧
      bitAt (t.fget (pgGl n) F.com.EVT_STAT) 10 = true ∧ Only eventParts s t) ∧
    (s.fon (pgGl n) F.gl.GL_STAT_PENDING = false → (s.releaseHolds r).devRead .firmware a (8 * k) = (s1, .ok bs) →
      (∀ j, j < 1024 → (∀ i < j, ∃ d, checkStruct 8 (leNat (slice bs (8 * i) 8)) = .clean d) → j < k →
        checkStruct 8 (leNat (slice bs (8 * j) 8)) = .failed → Runs (.glLoad r n) s fun t =>
          t.fget (pgGl n) F.gl.GL_STAT_LOAD_STATUS = 0x80 ∧ t.fget (pgGl n) F.gl.GL_STAT_ITEM = j ∧ t.net = s.net ∧ Only eventParts s t) ∧
      ((∀ d ∈ raw, checkStruct 8 d = .clean d ∧ reservedSet 8 d [(0, 0, 32), (4, 0, 7), (4, 8, 7), (4, 16, 2)] = false) →
        1 ≤ k → k ≤ 1024 → 1000 ≤ cycle → cycle ≤ 1000000000 → a % 8 = 0 → s.inFirmware a (8 * k) = true → Runs (.glLoad r n) s fun t =>
          let c := changeTime (s.fget (pgGl n) F.gl.GL_BASE_TIME_TIME) cycle s.time.toNat
          t.port n = { s.port n with pend := some ⟨raw.map gateOf, cycle, c⟩ } ∧ t.fon (pgGl n) F.gl.GL_STAT_PENDING = true ∧
          t.fget (pgGl n) F.gl.GL_STAT_LOAD_STATUS = 0 ∧ t.fget (pgGl n) F.gl.GL_CHANGE_TIME = c % 2 ^ 64 ∧
          bitAt (t.fget (pgGl n) F.com.EVT_STAT) 8 = true ∧ PortOnly n s t ∧ Only (.net :: eventParts) s t))) ∧
  (∀ (r : Requester) (n : Fin 8) (l : GateList) (s : State), (s.port n).pend = some l →
    (s.reaches r (pgGl n) 0x044 = true → s.time.toNat < l.start → Runs (.glCancel r n) s fun t =>
      t.port n = { s.port n with pend := none } ∧ t.fon (pgGl n) F.gl.GL_STAT_PENDING = false ∧ PortOnly n s t ∧ Only [.regs, .hub, .net] s t ∧
      RegsOnly [F.gl.GL_STAT_PENDING.key (pgGl n)] s t) ∧
    (l.start ≤ s.time.toNat → Runs (.gateChange n) s fun t => (t.port n).oper = some l ∧ (t.port n).pend = none ∧
      t.fon (pgGl n) F.gl.GL_STAT_PENDING = false ∧ t.fon (pgGl n) F.gl.GL_STAT_OPER_VALID = true ∧
      bitAt (t.fget (pgGl n) F.com.EVT_STAT) 9 = true ∧ (∀ c, (t.port n).queue c = (s.port n).queue c) ∧ PortOnly n s t ∧
      Only (.net :: eventParts) s t)) ∧
  (∀ (n : Fin 8) (s : State), Runs (.gateEntryBoundary n) s fun t =>
    t.fget (pgGl n) F.gl.GL_POS_ENTRY = (s.gatesAt n s.time.toNat).1 % 2 ^ 10 ∧
    t.fget (pgGl n) F.gl.GL_POS_GATES = (s.gatesAt n s.time.toNat).2.1.gates % 2 ^ 7 ∧ (t.port n).oper = (s.port n).oper ∧
    (t.port n).pend = (s.port n).pend ∧ (∀ c, (t.port n).queue c = (s.port n).queue c) ∧ PortOnly n s t ∧ Only [.regs, .net] s t ∧
    RegsOnly [F.gl.GL_POS_ENTRY.key (pgGl n), F.gl.GL_POS_GATES.key (pgGl n), F.gl.GL_CYCLES_COUNT.key (pgGl n)] s t)

def Obligations.LaneShedding : Prop :=
  let shed (n : Nat) (s t : State) (x : Option Shed) : Prop := (t.port n).shed = x ∧ t.fon (pgEth n) F.eth.PORT_STAT_SHED_PENDING = x.isSome ∧
    PortOnly n s t
  (∀ (n target t : Nat) (s : State), s.ungated n = true → ∃ x, s.chooseSwitch n target t = some x ∧ x % 1000 = 0 ∧ t + 20000 ≤ x ∧
    x < t + 21000) ∧
  (∀ (r : Requester) (n : Fin 8) (target : Fin 3) (x : Nat) (s : State), s.reaches r (pgEth n) 0x054 = true → s.mayShed n = true →
    s.takesCtl n → target.val ≠ s.fget (pgEth n) F.eth.PORT_STAT_CUR_WIDTH → (s.port n).shed = none →
    s.chooseSwitch n target s.time.toNat = some x → Runs (.shedTarget r n target) s fun t =>
      t.fget (pgEth n) F.eth.SHED_CTRL_TARGET = target ∧ shed n s t (some ⟨true, x, target, false⟩) ∧
      s.ctlQueued t n 5 lldpMac (placeAt 0 0 64 x + placeAt 8 0 3 target) ∧ Only [.regs, .hub, .net] s t) ∧
  (∀ (n : Fin 8) (sender : BitVec 48) (x : BitVec 64) (target : Fin 8) (s : State), s.takesCtl n →
    ((s.port n).shed = none → (s.shedReason n x.toNat target = none → Runs (.shedReq n sender x target) s fun t =>
        shed n s t (some ⟨false, x.toNat, target, true⟩) ∧
        s.ctlQueued t n 6 lldpMac (placeAt 0 0 64 x.toNat + placeAt 8 0 3 target) ∧ Only [.regs, .net] s t) ∧
      (∀ why, s.shedReason n x.toNat target = some why → Runs (.shedReq n sender x target) s fun t => (t.port n).shed = none ∧ PortOnly n s t ∧
        s.ctlQueued t n 7 lldpMac (placeAt 0 0 64 x.toNat + placeAt 8 0 3 target + placeAt 8 8 8 why) ∧ Only [.net] s t)) ∧
    (∀ y, (s.port n).shed = some y → y.proposer = true → y.agreed = false → s.macBase < sender.toNat →
      Runs (.shedReq n sender x target) s fun t => t = s)) ∧
  (∀ (n : Fin 8) (x : Shed) (s : State), (s.port n).shed = some x →
    (x.proposer = true → Runs (.shedAck n) s fun t => t.port n = { s.port n with shed := some { x with agreed := true } } ∧ PortOnly n s t ∧
      Only [.net] s t) ∧
    (x.proposer = true → x.agreed = false → ∀ c ∈ [Instr.shedNak n, .shedNoAnswer n], Runs c s fun t =>
      Counted s t (pgEth n) F.eth.SHED_NAK_COUNT 1 ∧ (∀ y, (t.port n).shed = some y → y.proposer = true ∧ y.agreed = false ∧
        s.time.toNat + 100000 ≤ y.at_) ∧ PortOnly n s t ∧ Only [.regs, .net] s t) ∧
    (x.agreed = true → Runs (.shedSwitch n) s fun t => shed n s t none ∧
      t.fget (pgEth n) F.eth.PORT_STAT_CUR_WIDTH = x.target % 4 ∧ Counted s t (pgEth n) F.eth.SHED_DONE_COUNT 1 ∧
      bitAt (t.fget (pgEth n) F.com.EVT_STAT) 11 = true ∧ (∀ c, (t.port n).queue c = (s.port n).queue c) ∧ Only (.net :: eventParts) s t)) ∧
  (∀ (n : Fin 8) (s : State), s.linkUp n = true → Runs (.shedRelockFail n) s fun t => t.linkUp n = false ∧ shed n s t none ∧
    Counted s t (pgEth n) F.eth.SHED_FAIL_COUNT 1 ∧ bitAt (t.fget (pgEth n) F.com.EVT_STAT) 12 = true ∧
    Only ([.net, .shelf, .tiers] ++ eventParts) s t)

def Obligations.Communicators : Prop :=
  ∀ (r : Requester) (d : Fin 2) (k : Fin 16) (s : State), s.reaches r (pgComm d) 0x040 = true →
    let mask := s.fget (pgComm d) (F.comm.CM_MASK_MASK k)
    let self := s.fget (pgComm d) F.comm.SELF_PEER
    let right := s.commState d k = 0 ∧ bitAt mask self = true ∧ ∀ p ∈ bitList 64 mask, s.fon (pgComm d) (F.comm.PR_CFG_VALID p) = true
    let idle := (s.commState d k = 1 ∨ s.commState d k = 4) ∧ s.outstanding d k = []
    let reports (t : State) (st : Nat) : Prop := t.fget (pgComm d) F.comm.COMM_RESULT_STATUS = st ∧
      bitAt (t.fget (pgComm d) F.com.EVT_STAT) 8 = true ∧ (∀ j < 16, j ≠ k.val → t.commState d j = s.commState d j ∧
        t.commEpoch d j = s.commEpoch d j) ∧ Only eventParts s t
    (right → Runs (.define r d k) s fun t => reports t 0 ∧ t.commState d k = 1 ∧ t.commRank d k = popCount self mask % 64 ∧
      t.commSize d k = popCount 64 mask ∧ t.fget (pgComm d) (F.comm.CM_OPSEQ_OPSEQ k) = 0 ∧
      t.commEpoch d k = s.fget (pgComm d) (F.comm.CM_CFG_EPOCH k) % 2 ^ 16) ∧
    (¬ right → Runs (.define r d k) s fun t => reports t 3 ∧ t.commState d k = s.commState d k) ∧
    (idle → Runs (.commRetire r d k) s fun t => reports t 0 ∧ t.commState d k = 0) ∧
    (¬ idle → Runs (.commRetire r d k) s fun t => reports t 3 ∧ t.commState d k = s.commState d k)

def Obligations.CollectiveDescriptors : Prop :=
  let row (op : Nat) (d : Fin 2) : Instr := match op with
    | 1 => .colSignal d | 2 => .allReduce d | 3 => .reduceScatter d | 4 => .allGather d | 5 => .broadcast d | 6 => .permute d
    | 7 => .ringPass d | 8 => .reshard d | _ => .barrier d
  (∀ (op : Nat) (d : Fin 2) (x : Nat) (rest : List DieOp) (s : State), s.colTaken d x rest → CD.op x = op →
    (colLocal x = true → Runs (row op d) s fun t => t.colEng d = { s.colEng d with queue := rest } ∧
      t.agate.notices = s.agate.notices ++ (if descTallyEn x then [⟨d, descTally x, 1, srcCode 4 d⟩] else []) ∧ Only [.regs, .col, .agate] s t) ∧
    (colLocal x = false → op ≠ 8 → Runs (row op d) s fun t =>
      let n := s.fget (pgComm d) (F.comm.CM_OPSEQ_OPSEQ (CD.comm x % 16))
      t.colEng d = { s.colEng d with queue := rest, waiting := (s.colEng d).waiting ++ [{ desc := x, opseq := n }] } ∧
      t.fget (pgComm d) (F.comm.CM_OPSEQ_OPSEQ (CD.comm x % 16)) = (n + 1) % 2 ^ 32 ∧ Only [.regs, .col] s t)) ∧
  (∀ (d : Fin 2) (x : Nat) (rest : List DieOp) (s : State), s.colTaken d x rest → CD.op x = 8 →
    let k := CD.comm x % 16
    let n := s.fget (pgComm d) (F.comm.CM_OPSEQ_OPSEQ k)
    s.commState d k = 1 → (∀ j < 16, j ≠ k → s.commState d j ≠ 2) → (∀ y ∈ s.outstanding d k, CD.op y.desc ≠ 8) →
    ((∃ y ∈ s.outstanding d k, seqBefore y.opseq n = true) → Runs (.reshard d) s fun t => t.commState d k = 2 ∧
      t.commEpoch d k = s.commEpoch d k ∧ (t.colEng d).waiting = (s.colEng d).waiting ++ [{ desc := x, opseq := n }] ∧
      Only [.regs, .col] s t) ∧
    (s.outstanding d k = [] → (s.colEng d).hold = [] → Runs (.reshard d) s fun t => t.commState d k = 3 ∧ t.commEpoch d k = CD.newEpoch x ∧
      (t.colEng d).waiting = (s.colEng d).waiting ++ [{ desc := x, opseq := n }] ∧ Only [.regs, .col] s t)) ∧
  (∀ (d : Fin 2) (o : ColOp) (rest : List ColOp) (s : State), (s.colEng d).waiting = o :: rest → (s.colEng d).running.length < 8 →
    (∀ y ∈ (s.colEng d).running, ¬ (CD.comm y.desc = CD.comm o.desc ∧ CD.op y.desc = 8)) → (s.colEng d).hold = [] → s.noFence →
    o.send = [] → o.fail = none →
    let k := CD.comm o.desc % 16
    (CD.op o.desc = 9 → Runs (.colOpStart d) s fun t => ∃ p, (t.colEng d).running.getLast? = some p ∧ p.desc = o.desc ∧ p.opseq = o.opseq ∧
      p.moving = true ∧ p.due = s.commSize d k - 1 ∧ (∀ j ∈ s.others d k, ∃ f ∈ p.send, f.rank = j ∧ f.unacked = [⟨0, 0, 0, [], 0⟩]) ∧
      (t.colEng d).waiting = rest ∧ (t.colEng d).running.length = (s.colEng d).running.length + 1 ∧ Only [.regs, .col, .net] s t) ∧
    (CD.op o.desc = 5 → CD.root o.desc ≠ s.commRank d k → Runs (.colOpStart d) s fun t =>
      (t.colEng d).running.getLast? = some { o with moving := true, last := s.commRank d k, due := CD.len o.desc } ∧
      (t.colEng d).waiting = rest ∧ (t.colEng d).running.length = (s.colEng d).running.length + 1 ∧ Only [.regs, .col] s t))

def Obligations.CollectiveFrames : Prop :=
  (∀ (n : Fin 8) (f : Frame) (h : Nat) (s : State), s.noFence →
    let d := CH.comm h / 16
    let k := CH.comm h % 16
    let data := slice f.data 32 (CH.len h)
    (checkStruct 32 (leNat (f.data.take 32)) = .failed → Runs (.colDataFrame n f) s fun t =>
      Counted s t (pgCol (n / 4)) (F.com.EVT_CNT 3) 1 ∧ bitAt (t.fget (pgCol (n / 4)) F.com.EVT_STAT) 11 = true ∧ t.col = s.col ∧
      Only eventParts s t) ∧
    (checkStruct 32 (leNat (f.data.take 32)) = .clean h → d < 2 → CH.type h = 1 → s.enabled (pgCol d) = true →
      s.fromMember d k h f.src = false → Runs (.colDataFrame n f) s fun t => Counted s t (pgCol d) F.col.FOREIGN_COUNT 1 ∧ Only [.regs] s t ∧
        RegsOnly [F.col.FOREIGN_COUNT.key (pgCol d)] s t) ∧
    (s.colHeader d f h → d < 2 → CH.type h = 1 →
      seqBefore (CH.opseq h) (s.fget (pgComm d) (F.comm.CM_OPSEQ_OPSEQ k)) = false →
      (∀ g ∈ (s.colEng d).hold, ¬ (CH.comm g.hdr = CH.comm h ∧ CH.src g.hdr = CH.src h ∧ CH.opseq g.hdr = CH.opseq h ∧ CH.psn g.hdr = CH.psn h)) →
      s.fget (pgCol d) F.col.HOLD_BYTES_BYTES + 32 + data.length ≤ 2 ^ 20 → Runs (.colDataFrame n f) s fun t =>
        t.colEng d = { s.colEng d with hold := (s.colEng d).hold ++ [⟨n, h, data⟩] } ∧ Only [.regs, .col] s t) ∧
    (∀ (o : ColOp) (g : RecvFlow) (s1 : State), s.colHeader d f h → d < 2 → CH.type h = 1 →
      seqBefore (CH.opseq h) (s.fget (pgComm d) (F.comm.CM_OPSEQ_OPSEQ k)) = true → CH.epoch h = s.commEpoch d k →
      s.opOf d k (CH.opseq h) = some o → o.moving = true → o.fail = none →
      (o.recv.find? (·.rank == CH.src h) = some g ∨
        (o.recv.find? (·.rank == CH.src h) = none ∧ g = { rank := CH.src h } ∧ s.fget (pgCol d) F.col.COL_STAT_FLOWS < 512)) →
      g.owed < 31 →
      (g.base ≤ CH.psn h → CH.psn h ∉ g.marks → CH.psn h < g.base + 256 → (CD.op o.desc = 4 ∨ CD.op o.desc = 5) →
        s.disagrees d o h data = false → CH.off h + CH.len h ≤ s.dstRegion d o.desc → data ≠ [] →
        (s.bump (pgCol d) F.col.RX_BYTES_COUNT data.length).devWrite (s.commTenant d (CD.comm o.desc % 16)) (CD.dst o.desc + CH.off h) data
          = (s1, .ok ()) → Runs (.colDataFrame n f) s fun t =>
          let p : ColOp := { o with
            last := CH.src h, due := o.due - data.length
            recv := g.mark (CH.psn h) :: o.recv.filter (·.rank != g.rank) }
          t = s1.putOp d p ∧ t.opOf d k (CH.opseq h) = some p) ∧
      (CH.psn h < g.base ∨ CH.psn h ∈ g.marks → Runs (.colDataFrame n f) s fun t => Counted s t (pgCol d) F.col.DUP_FRAMES_COUNT 1 ∧
        t.opOf d k (CH.opseq h) = some { o with recv := { g with owed := g.owed + 1 } :: o.recv.filter (·.rank != g.rank) } ∧
        Only [.regs, .col] s t))) ∧
  (∀ (n : Fin 8) (f : Frame) (h : Nat) (o : ColOp) (s : State), s.noFence →
    let d := CH.comm h / 16
    let k := CH.comm h % 16
    s.colHeader d f h → d < 2 → s.opOf d k (CH.opseq h) = some o →
    (CH.type h = 2 → Runs (.colAck n f) s fun t =>
      t.opOf d k (CH.opseq h) = some (o.acked (CH.src h) (CH.psn h) (leNat ((slice f.data 32 (CH.len h)).take 8))) ∧ Only [.regs, .col] s t) ∧
    (CH.type h = 3 → CD.op o.desc ≠ 8 → CD.comm o.desc < 32 → s.fget (pgCol d) F.col.ARR_HEAD_HEAD < 16 → Runs (.colNack n f) s fun t =>
      s.colEnded t d { o with last := CH.src h } (leNat ((slice f.data 32 (CH.len h)).take 1)) ∧
      bitAt (t.fget (pgCol d) F.com.EVT_STAT) 14 = true)) ∧
  (∀ (d : Fin 2) (i : Fin 8) (rank : Fin 64) (o : ColOp) (g : RecvFlow) (s : State), (s.colEng d).running[i.val]? = some o →
    o.recv.find? (fun f => f.rank == rank.val && 0 < f.owed) = some g → Runs (.colAckDelay d i rank) s fun t =>
      let p : ColOp := { o with recv := o.recv.map fun x => if x.rank = rank.val then { x with owed := 0 } else x }
      t = (s.sendAck d o g).putOp d p ∧ Only [.regs, .col, .net] s t)

def Obligations.CollectiveProgress : Prop :=
  (∀ (d : Fin 2) (i : Fin 8) (rank : Fin 64) (psn : BitVec 32) (o : ColOp) (g : SendFlow) (y : SentFrame) (s : State),
    (s.colEng d).running[i.val]? = some o → o.send.find? (·.rank == rank.val) = some g → g.unacked.find? (·.psn == psn.toNat) = some y →
    (y.tries < s.fget (pgCol d) F.col.RETRIES_COUNT → Runs (.colRto d i rank psn) s fun t =>
      Counted s t (pgCol d) F.col.RETRANSMITS_COUNT 1 ∧ Counted s t (pgCol d) F.col.TX_BYTES_COUNT y.data.length ∧
      (∃ p ∈ (t.colEng d).running, p.desc = o.desc ∧ p.opseq = o.opseq ∧ ∃ x ∈ p.send, x.rank = rank.val ∧
        ∃ z ∈ x.unacked, z = { y with tries := y.tries + 1 }) ∧ Only [.regs, .col, .net] s t) ∧
    (s.fget (pgCol d) F.col.RETRIES_COUNT ≤ y.tries → s.noFence → CD.op o.desc ≠ 8 → CD.comm o.desc < 32 → o.last < 64 →
      s.fget (pgCol d) F.col.ARR_HEAD_HEAD < 16 → Runs (.colRto d i rank psn) s fun t =>
      s.colEnded t d o 13 ∧ bitAt (t.fget (pgCol d) F.com.EVT_STAT) 13 = true)) ∧
  (∀ (d : Fin 2) (i : Fin 8) (o : ColOp) (s : State), (s.colEng d).running[i.val]? = some o → s.noFence →
    (CD.op o.desc = 7 → s.ringMayAdmit d o (o.admitted + 1) = true → o.fail = none → o.sent ≠ 0 → o.stepIn o.sent = false →
      Runs (.ringStepAdmit d i) s fun t => t = s.putOp d { o with admitted := o.admitted + 1 } ∧ Only [.regs, .col] s t) ∧
    (s.colComplete d o = true → CD.comm o.desc < 32 → o.last < 64 → s.fget (pgCol d) F.col.ARR_HEAD_HEAD < 16 →
      (CD.op o.desc = 8 → ∀ y ∈ s.outstanding d (CD.comm o.desc % 16), CD.op y.desc = 8 →
        y.opseq = o.opseq ∧ CD.comm y.desc = CD.comm o.desc ∧ y ∈ (s.colEng d).running) →
      (CD.op o.desc = 8 → ∀ y ∈ (s.colEng d).waiting, CD.op y.desc ≠ 8) → Runs (.colComplete d i) s fun t =>
      s.colEnded t d o (if o.sat then 10 else 0) ∧
      (o.sat = false → t.agate.notices = s.agate.notices ++ (if descTallyEn o.desc then [⟨d, descTally o.desc, 1, srcCode 4 d⟩] else [])) ∧
      (∀ t0, o.lastSend = some t0 → CD.op o.desc ∈ [2, 3, 4, 9] →
        t.slack = s.slack ++ [⟨CD.comm o.desc, o.last, min (2 ^ 32 - 1) (s.time.toNat - t0)⟩]) ∧
      (CD.op o.desc = 8 → t.commState d (CD.comm o.desc % 16) = 1) ∧ Only [.regs, .col, .agate, .slack, .net, .freeCtr] s t))

def Obligations.CamernContexts : Prop :=
  let done (t : State) (st : Nat) : Prop := t.fget pgCtx F.ctx.CTX_RESULT_STATUS = st
  (∀ (r : Requester) (n : BitVec 20) (c q : Nat) (bs : List Byte) (s u v : State), s.ctxTaken u r n.toNat c → cget c CX.state = 0 →
    u.devRead .firmware (u.fget pgCtx F.ctx.CTX_SRC_ADDR) 256 = (v, .ok bs) → checkStruct 64 (leNat (bs.take 64)) = .clean q →
    v.versionOk pgXpt (fieldAt q 0 0 4) = true → reservedSet 64 q CX.quarter0 = false → ctxMalformed q = false → cget q CX.cls ≤ 5 →
    v.ctxBarred q = false → v.enabled pgXpt = true → Runs (.ctxCreate r n) s fun t => done t 0 ∧
      (∃ z, t.ctxOf n.toNat = some z ∧ cget z CX.state = 1 ∧ cget z CX.incarnation = (cget c CX.incarnation + 1) % 256 ∧
        cget z CX.keyGen = v.selGen (cget q CX.tenant) % 2 ^ 16 ∧ cget z CX.txPsn < 2 ^ 62 ∧
        cget z CX.cwnd = 1024 * v.fget pgCong (F.cong.CC_CWND_INIT_CWND_INIT (cget q CX.profile)) % 2 ^ 32 ∧
        (∀ f ∈ [CX.cls, CX.profile, CX.tenant, CX.twin, CX.peer, CX.keyId, CX.payload64, CX.peerIp, CX.tenantTag, CX.udpSrc, CX.vlan, CX.paths,
          CX.nextHop], cget z f = cget q f) ∧
        ∀ k, Store.get none v.onyx.keys (cget q CX.tenant) = some k →
          (∀ e ∈ v.xpt.live, e.1 = n.toNat ∨ e.2 ≠ some (cget q CX.keyId, cget q CX.tenant)) →
          let m := Config.camernKey k.secret k.tag k.gen (cget q CX.keyId)
          cget z CX.key = m % 2 ^ 256 ∧ cget z CX.salt = m / 2 ^ 256 % 2 ^ 32) ∧
      CtxOnly n.toNat s t ∧ Only [.regs, .hub, .xpt, .freeCtr] s t) ∧
  (∀ (r : Requester) (n : BitVec 20) (c : Nat) (s u : State), s.ctxTaken u r n.toNat c →
    let k := n.toNat
    let right := cget c CX.state = 1 ∧ u.ctxBarred c = false ∧ u.xpt.keyed.contains k = true ∧ u.enabled pgXpt = true
    let kept (t : State) : Prop := t.ctxOf k = some c ∧ CtxOnly k s t ∧ Only [.regs, .hub, .xpt] s t
    (ctxMalformed c = true → Runs (.listen r n) s (fun t => done t 8 ∧ kept t) ∧ Runs (.connect r n) s fun t => done t 8 ∧ kept t) ∧
    (ctxMalformed c = false → ¬ right → Runs (.listen r n) s (fun t => done t 3 ∧ kept t) ∧ Runs (.connect r n) s fun t => done t 3 ∧ kept t) ∧
    (ctxMalformed c = false → right → Runs (.listen r n) s (fun t => done t 0 ∧ t.ctxOf k = some (cput c CX.state 2) ∧ CtxOnly k s t ∧
        Only [.regs, .hub, .xpt] s t) ∧
      let z := cput (cput c CX.state 3) CX.initiator 1
      ∀ p port, u.nextPath k z p port → Runs (.connect r n) s fun t => done t 0 ∧
        t.ctxOf k = some (cput z CX.txPsn (cget z CX.txPsn + 1)) ∧ u.packetAway t z p port 6 (fun _ => True) ∧
        Store.get none t.xpt.sent k = some 0 ∧ CtxOnly k s t ∧ Only (.hub :: sendParts) s t) ∧
    (cget c CX.state ≠ 4 → Runs (.ctxClose r n) s fun t => done t 3 ∧ kept t) ∧
    (cget c CX.state = 4 →
      let z := cput c CX.state 5
      let busy := ∃ e ∈ u.xpt.entries, XD.conn e.desc = k ∧ descOpcode e.desc ≠ 1 ∧ e.status = 0 ∧ e.ended < u.msgs e.desc
      (cget c CX.outstanding = 0 → ¬ busy → ∀ p port, u.nextPath k z p port → Runs (.ctxClose r n) s fun t => done t 0 ∧
        t.ctxOf k = some (cput z CX.txPsn (cget z CX.txPsn + 1)) ∧ u.packetAway t z p port 8 (fun h => PH.status h = 0) ∧
        Store.get none t.xpt.sent k = some 0 ∧ CtxOnly k s t ∧ Only (.hub :: sendParts) s t) ∧
      (cget c CX.outstanding ≠ 0 ∨ busy → Runs (.ctxClose r n) s fun t => done t 0 ∧ t.ctxOf k = some z ∧ CtxOnly k s t ∧
        Only [.regs, .hub, .xpt] s t)) ∧
    (cget c CX.state ∈ [1, 2, 6, 7] → Runs (.ctxFree r n) s fun t => done t 0 ∧
      t.ctxOf k = some (cput (placeAt 0 0 4 1) CX.incarnation (cget c CX.incarnation)) ∧ Store.get none t.xpt.live k = none ∧
      t.xpt.keyed.contains k = false ∧ CtxOnly k s t ∧ Only [.regs, .hub, .xpt] s t) ∧
    (cget c CX.state ∉ [1, 2, 6, 7] → Runs (.ctxFree r n) s fun t => done t 3 ∧ kept t) ∧
    ∀ v, u.devWrite .firmware (u.fget pgCtx F.ctx.CTX_SRC_ADDR) (leBytes 256 (sealCtx (cput c CX.key 0))) = (v, .ok ()) →
      Runs (.ctxRead r n) s fun t => done t 0 ∧ t.ctxOf k = some c ∧ CtxOnly k s t ∧ Only [.regs] v t) ∧
  (∀ (n : BitVec 20) (c k : Nat) (s : State), s.ctxOf n.toNat = some c → Store.get none s.xpt.sent n.toNat = some k →
    let again (i : Instr) (type : Nat) : Prop := ∀ p port, s.nextPath n.toNat c p port → Runs i s fun t =>
      t.ctxOf n.toNat = some (cput c CX.txPsn (cget c CX.txPsn + 1)) ∧ s.packetAway t c p port type (fun _ => True) ∧
      Counted s t pgXpt F.xpt.RETRANSMITS_COUNT 1 ∧ Store.get none t.xpt.sent n.toNat = some (k + 1) ∧ CtxOnly n.toNat s t ∧ Only sendParts s t
    let more := k < s.prof n.toNat F.cong.CC_RETRIES_RETRIES
    (cget c CX.state = 3 → (more → again (.connectRetransmit n) 6) ∧ (¬ more → Runs (.connectRetransmit n) s fun t =>
      t.cof n.toNat CX.state = 7 ∧ t.connIdle n.toNat ∧ Store.get none t.xpt.sent n.toNat = none ∧
      bitAt (t.fget pgXpt F.com.EVT_STAT) 9 = true ∧ CtxOnly n.toNat s t ∧ Only (.xpt :: eventParts) s t)) ∧
    (cget c CX.state = 5 → (more → again (.closeRetransmit n) 8) ∧ (¬ more → Runs (.closeRetransmit n) s fun t =>
      t.cof n.toNat CX.state = 6 ∧ t.connIdle n.toNat ∧ Store.get none t.xpt.sent n.toNat = none ∧ CtxOnly n.toNat s t ∧
      Only [.regs, .xpt] s t))) ∧
  (∀ (n : BitVec 20) (c : Nat) (s : State), s.ctxOf n.toNat = some c → Store.get none s.xpt.sent n.toNat = none → cget c CX.state = 5 →
    ∀ p port, s.nextPath n.toNat c p port → Runs (.closeRetransmit n) s fun t =>
      t.ctxOf n.toNat = some (cput c CX.txPsn (cget c CX.txPsn + 1)) ∧ s.packetAway t c p port 8 (fun h => PH.status h = 0) ∧
      Store.get none t.xpt.sent n.toNat = some 0 ∧ CtxOnly n.toNat s t ∧ Only sendParts s t)

def Obligations.CamernWork : Prop :=
  (∀ (r : Requester) (q tail : BitVec 12) (s : State), s.reaches r pgXpt 0x044 = true → Runs (.wqDoorbell r q tail) s fun t =>
    (∀ j, Store.get 0 t.xpt.tails j = if j = q.toNat ∧ q.toNat < 4094 then tail.toNat else Store.get 0 s.xpt.tails j) ∧
    t.xpt = { s.xpt with tails := t.xpt.tails } ∧ Only [.hub, .xpt] s t) ∧
  (∀ (q : Fin 4096) (raw x : Nat) (s u : State), s.enabled pgXpt = true → (s.xpt.entries.filter (·.queue == q.val)).length < 64 →
    s.xcqRoom q = true → s.headEntry q = (u, some (.ok raw)) → checkStruct 64 raw = .clean x →
    (descOpcode x = 2 ∨ descOpcode x = 3 → s.ctxOf (XD.conn x) ≠ none) →
    (u.entryCheck q x = none →
      (XD.chain x = true → (s.qget (XD.waitQ x) F.xpt.Q_COMP_COMP + 2 ^ 32 - XD.waitCount x) % 2 ^ 32 < 2 ^ 31) →
      (XD.fence x = true → (∀ y ∈ s.xpt.entries, y.queue ≠ q.val) ∧ ∀ y ∈ s.xpt.records, y.queue ≠ q.val) →
      Runs (.xptEntryStart q) s fun t =>
        t.xpt.entries = s.xpt.entries ++ [⟨q, x, s.xpt.serial, s.qTenant q, 0, 0, 0, 0, false⟩] ∧ t.xpt.serial = s.xpt.serial + 1 ∧
        (q.val < 4094 → t.qget q F.xpt.Q_STAT_HEAD
          = (s.qget q F.xpt.Q_STAT_HEAD + 1) % 2 ^ s.qget q F.xpt.Q_CTRL_WQ_LOG2 % 2 ^ 12) ∧
        t.qget q F.xpt.Q_STAT_WAITING = 0 ∧ t.xpt.ctx = s.xpt.ctx ∧ t.xpt.tracks = s.xpt.tracks ∧ Only [.regs, .xpt] s t) ∧
    (∀ st, u.entryCheck q x = some st → (∀ y ∈ s.xpt.records, y.queue ≠ q.val) → Runs (.xptEntryStart q) s fun t =>
        s.entryEnded t q x st 0 ∧ t.xpt.entries = s.xpt.entries ∧ bitAt (t.fget pgXpt F.com.EVT_STAT) 10 = true ∧
        (q.val < 4094 → Only ([.xpt, .shelf, .tiers] ++ eventParts) s t))) ∧
  (∀ (i : Nat) (e : XEntry) (s : State), s.xpt.entries[i]? = some e → s.recordRoom e.queue →
    let gone (t : State) : Prop := t.xpt.entries = s.xpt.entries.filter (·.serial ≠ e.serial) ∧ t.xpt.tracks = s.xpt.tracks ∧
      t.xpt.ctx = s.xpt.ctx ∧ (e.queue < 4094 → Only ([.xpt, .shelf, .tiers] ++ eventParts) s t)
    (descOpcode e.desc = 1 → e.run = false → Runs (.xptSignal i) s fun t => s.entryEnded t e.queue e.desc 0 0 ∧ gone t) ∧
    (e.run = false → e.status = 0 → XD.len e.desc = 0 → XD.bump e.desc = false →
      (descOpcode e.desc = 2 → Runs (.xptWrite i) s fun t => s.entryEnded t e.queue e.desc 0 0 ∧ gone t) ∧
      (descOpcode e.desc = 3 → Runs (.xptRead i) s fun t => s.entryEnded t e.queue e.desc 0 0 ∧ gone t)) ∧
    ((∀ y ∈ s.xpt.tracks, ¬ (y.req = true ∧ y.entry = e.serial)) → (e.status ≠ 0 ∧ descOpcode e.desc = 2) ∨
        (e.status = 0 ∧ e.run = true ∧ s.msgs e.desc ≤ e.ended) → Runs (.xptEntryComplete i) s fun t =>
      s.entryEnded t e.queue e.desc e.status e.bytes ∧ gone t) ∧
    ((∀ y ∈ s.xpt.tracks, ¬ (y.req = true ∧ y.entry = e.serial)) → e.status ≠ 0 → Runs (.xptEntryComplete i) s fun t =>
      t.qget e.queue F.xpt.Q_COMP_COMP = (s.qget e.queue F.xpt.Q_COMP_COMP + 1) % 2 ^ 32 ∧
      t.xpt.entries = s.xpt.entries.filter (·.serial ≠ e.serial))) ∧
  (∀ (i : Nat) (e : XEntry) (c p port : Nat) (s : State), s.xpt.entries[i]? = some e → s.aloneOn e → e.run = false → e.started = 0 →
    e.status = 0 → s.ctxOf (XD.conn e.desc) = some c → cget c CX.state = 4 → s.nextPath (XD.conn e.desc) c p port →
    (cget c CX.txNext + 2 ^ 32 - cget c CX.txOldest) % 2 ^ 32 < 32 → (s.xpt.tracks.filter (·.req)).length < 16384 →
    cget c CX.outstanding + 1 < 2 ^ 15 → 16 ≤ cget c CX.payload64 → XD.len e.desc ≠ 0 →
    let k := XD.conn e.desc
    let x := e.desc
    let n := XD.len x
    let trk : Track := { conn := k, msg := cget c CX.txNext, req := true, send := descOpcode x == 2, len := n, addr := XD.addr x, win := XD.win x,
                         winGen := XD.winGen x, winOff := XD.remote x, bump := if XD.bump x then some (XD.bumpDie x, XD.rtally x) else none,
                         entry := e.serial }
    let ran (t : State) : Prop := t.xpt.entries = s.xpt.entries.map (fun y => if y.serial = e.serial then { e with run := true, started := 1 } else y) ∧
      t.cof k CX.txNext = (cget c CX.txNext + 1) % 2 ^ 32 ∧ t.cof k CX.outstanding = cget c CX.outstanding + 1 ∧
      t.cof k CX.txPsn = cget c CX.txPsn + 1 ∧ CtxOnly k s t ∧ Only sendParts s t
    (descOpcode x = 2 → n ≤ s.pay k → cget c CX.inFlight = 0 → n ≤ cget c CX.cwnd → s.canRead (s.connAgent k) (XD.addr x) n →
      Runs (.xptWrite i) s fun t => ran t ∧ t.xpt.tracks = s.xpt.tracks ++ [{ trk with next := 1 }] ∧ t.cof k CX.inFlight = n ∧
        Counted s t pgXpt F.xpt.TX_PAYLOAD_COUNT n ∧
        s.packetAway t c p port 1 fun h => PH.msg h = cget c CX.txNext ∧ PH.len h = n ∧ PH.off h = 0 ∧ PH.last h = true ∧ PH.win h = XD.win x ∧
          PH.winGen h = XD.winGen x ∧ PH.winOff h = XD.remote x) ∧
    (descOpcode x = 3 → n ≤ s.msgSize k → Runs (.xptRead i) s fun t => ran t ∧ t.xpt.tracks = s.xpt.tracks ++ [trk] ∧
      s.packetAway t c p port 2 fun h => PH.msg h = cget c CX.txNext ∧ PH.len h = n % 2 ^ 22 ∧ PH.win h = XD.win x ∧ PH.winGen h = XD.winGen x ∧
        PH.winOff h = XD.remote x)) ∧
  (∀ (r : Requester) (q : Nat) (s : State), s.reaches r pgXpt 0x04C = true → Store.get 0 s.hub.qsel r.key = q → q < 4094 →
    s.qget q F.xpt.Q_CTRL_ENABLE = 1 → s.qget q F.xpt.Q_CTRL_WQ_LOG2 ≤ 12 →
    let n := 2 ^ s.qget q F.xpt.Q_CTRL_WQ_LOG2
    let h := s.qget q F.xpt.Q_STAT_HEAD % n
    Runs (.qAbort r) s (fun t => t.qget q F.xpt.Q_STAT_HEAD % n = Store.get 0 s.xpt.tails q % n ∧ t.xpt.entries = s.xpt.entries ∧
      t.xpt.tracks = s.xpt.tracks ∧ t.xpt.ctx = s.xpt.ctx) ∧
    ∀ raw u, (h + 1) % n = Store.get 0 s.xpt.tails q % n → h ≠ Store.get 0 s.xpt.tails q % n → s.recordRoom q →
      (s.releaseHolds r).headEntry q = (u, some (.ok raw)) → Runs (.qAbort r) s fun t => s.entryEnded t q raw 12 0 ∧
        t.qget q F.xpt.Q_STAT_HEAD = (h + 1) % n % 2 ^ 12) ∧
  (∀ (k c p port : Nat) (x : Track) (s : State), s.xpt.tracks[k]? = some x → s.ctxOf x.conn = some c → s.nextPath x.conn c p port →
    (s.whole x = true → x.req = false →
      let z := cput c CX.rxDone (cget c CX.rxDone ||| (let j := (x.msg + 2 ^ 32 - cget c CX.rxBase) % 2 ^ 32; if j < 32 then 2 ^ j else 0))
      let v := match x.bump with | some (d, y) => s.advanceTally d y 1 (srcCode 7 (cget c CX.peer)) | none => s
      Runs (.messageComplete k) s fun t => t.agate = v.agate ∧
        (∀ d y, x.bump = some (d, y) → d < 2 → y < 4096 → t.tally d y = (s.tally d y + 1) % 2 ^ 32) ∧ t.xpt.tracks = s.xpt.tracks.filter (!·.same x) ∧
        t.ctxOf x.conn = some (cput z CX.txPsn (cget c CX.txPsn + 1)) ∧ s.packetAway t z p port 4 (fun _ => True) ∧ CtxOnly x.conn s t) ∧
    (∀ e, s.whole x = true → x.req = true → cget c CX.state = 4 → (∀ y ∈ s.xpt.tracks, y.conn = x.conn → y = x) →
        s.xpt.entries.find? (·.serial == x.entry) = some e → (∀ y ∈ s.xpt.entries, y.serial = e.serial → y = e) →
        (∀ y ∈ s.xpt.entries, XD.conn y.desc = x.conn → y.run = true ∧ s.msgs y.desc ≤ y.started) → Runs (.messageComplete k) s fun t =>
      t.xpt.tracks = s.xpt.tracks.filter (!·.same x) ∧ t.cof x.conn CX.outstanding = cget c CX.outstanding - 1 ∧
      t.xpt.entries = s.xpt.entries.map (fun y => if y.serial = e.serial then { e with ended := e.ended + 1, bytes := e.bytes + x.len } else y) ∧
      s.packetAway t c p port 4 (fun _ => True) ∧ CtxOnly x.conn s t ∧ Only sendParts s t) ∧
    (x.send = false → x.owed ≠ 0 → Runs (.cmrnAckDelay k) s fun t =>
      t.xpt.tracks = s.xpt.tracks.map (fun y => if y.same x then { x with owed := 0 } else y) ∧
      t.ctxOf x.conn = some (cput c CX.txPsn (cget c CX.txPsn + 1)) ∧ s.packetAway t c p port 4 (fun _ => True) ∧ CtxOnly x.conn s t ∧
      Only sendParts s t) ∧
    (Store.get 0 x.tries 0 < s.prof x.conn F.cong.CC_RETRIES_RETRIES →
      let z := cput c CX.cwnd (1024 * s.prof x.conn F.cong.CC_CWND_MIN_CWND_MIN)
      let t' (t : State) : Prop := t.xpt.tracks = s.xpt.tracks.map (fun y => if y.same x
          then { x with tries := Store.set 0 x.tries 0 (Store.get 0 x.tries 0 + 1) } else y) ∧
        t.ctxOf x.conn = some (cput z CX.txPsn (cget c CX.txPsn + 1)) ∧ Counted s t pgXpt F.xpt.RETRANSMITS_COUNT 1 ∧
        CtxOnly x.conn s t ∧ Only sendParts s t
      (x.send = true → x.next = 1 → bitAt x.acked 0 = false → s.canRead (s.connAgent x.conn) x.addr (s.plen x 0) → Runs (.cmrnRto k) s fun t =>
        t' t ∧ s.packetAway t z p port (if x.req then 1 else 3) fun h => PH.msg h = x.msg % 2 ^ 32 ∧ PH.off h = 0) ∧
      (x.send = false → x.req = true → x.got = 0 → Runs (.cmrnRto k) s fun t => t' t ∧
        s.packetAway t z p port 2 fun h => PH.msg h = x.msg % 2 ^ 32)) ∧
    (s.prof x.conn F.cong.CC_RETRIES_RETRIES ≤ Store.get 0 x.tries 0 → x.send = true → x.next = 1 → bitAt x.acked 0 = false →
      Runs (.cmrnRto k) s fun t => t.cof x.conn CX.state = 7 ∧ t.connIdle x.conn ∧ bitAt (t.fget pgXpt F.com.EVT_STAT) 9 = true ∧
        Counted s t pgXpt F.xpt.TIMEOUTS_COUNT 1 ∧ CtxOnly x.conn s t ∧ Only ([.xpt, .net, .freeCtr] ++ eventParts) s t))

def Obligations.CamernPackets : Prop :=
  let row (type : Nat) (n : Fin 8) (f : Frame) : Instr := match type with
    | 1 => .writePacket n f | 2 => .readReq n f | 3 => .readResp n f | 4 => .ackPacket n f | 5 => .nackPacket n f | 6 => .connectPacket n f
    | 7 => .accept n f | 8 => .closePacket n f | _ => .closeAck n f
  (∀ (n : Fin 8) (f : Frame) (g : Datagram) (c : Nat) (s : State), s.camernFrame f = some g → s.enabled pgXpt = true → g.clean = true →
    let h := leNat (g.payload.take 48)
    let k := PH.conn h
    let type := PH.type h
    1 ≤ type → type ≤ 9 → type ≠ 6 → g.payload.length = 64 + (if type = 2 ∨ type = 5 ∨ 8 ≤ type then 0 else PH.plen h) →
    reservedSet 48 h (packetFields type) = false → s.ctxOf k = some c → cget c CX.state ∉ [0, 3] → (∀ m ∈ s.xpt.missed, m.conn ≠ k) →
    PH.inc h = cget c CX.incarnation → PH.version h = cget c CX.negVersion →
    let body := g.payload.drop 48
    (PH.keyGen h ≠ cget c CX.keyGen → Runs (row type n f) s fun t => Counted s t pgXpt F.xpt.RX_RETIRED_GEN_COUNT 1 ∧ t.xpt = s.xpt ∧
      Only [.regs] s t) ∧
    (PH.keyGen h = cget c CX.keyGen → (openPacket c h body = none → Runs (row type n f) s fun t => Counted s t pgXpt F.xpt.RX_AUTH_FAIL_COUNT 1 ∧
        bitAt (t.fget pgXpt F.com.EVT_STAT) 8 = true ∧ t.xpt = s.xpt ∧ Only eventParts s t) ∧
      ∀ data, openPacket c h body = some data →
        (replayed c (PH.psn h) = true → Runs (row type n f) s fun t => Counted s t pgXpt F.xpt.RX_REPLAY_COUNT 1 ∧ t.xpt = s.xpt ∧
          Only [.regs] s t) ∧
        (replayed c (PH.psn h) = false → cget c CX.state = 1 → Runs (row type n f) s fun t => Counted s t pgXpt F.xpt.RX_CLOSED_COUNT 1 ∧
          t.ctxOf k = some (markPsn c (PH.psn h)) ∧ CtxOnly k s t ∧ Only [.regs, .xpt] s t))) ∧
  (∀ (n : Fin 8) (f : Frame) (k c h p port : Nat) (data : List Byte) (s : State),
    let m := markPsn c (PH.psn h)
    let z := setRemote m (leNat data)
    (s.packetIn f 6 k c h data → cget c CX.state = 2 → fieldAt (leNat data) 8 0 32 = cget c CX.tenantTag → ∀ v,
      s.commonVersion (fieldAt (leNat data) 4 0 16) = some v →
      let o := cput (cput (cput z CX.negVersion v) CX.payload64 (min (cget z CX.payload64) (fieldAt (leNat data) 0xC 0 8))) CX.state 4
      s.nextPath k o p port → Runs (.connectPacket n f) s fun t => t.ctxOf k = some (cput o CX.txPsn (cget o CX.txPsn + 1)) ∧
        s.packetAway t o p port 7 (fun _ => True) ∧ CtxOnly k s t ∧ Only sendParts s t) ∧
    (s.packetIn f 6 k c h data → cget c CX.state = 2 → fieldAt (leNat data) 8 0 32 ≠ cget c CX.tenantTag →
      s.nextPath k (cput z CX.negVersion 1) p port → Runs (.connectPacket n f) s fun t => t.cof k CX.state = 7 ∧
        s.packetAway t (cput z CX.negVersion 1) p port 8 (fun h => PH.status h = 3) ∧ bitAt (t.fget pgXpt F.com.EVT_STAT) 9 = true ∧
        CtxOnly k s t ∧ Only ([.xpt, .net, .freeCtr] ++ eventParts) s t) ∧
    (s.packetIn f 7 k c h data → cget c CX.state = 3 → Runs (.accept n f) s fun t =>
      t.ctxOf k = some (cput (cput (cput z CX.negVersion (PH.version h)) CX.payload64 (fieldAt (leNat data) 0xC 0 8)) CX.state 4) ∧
      Store.get none t.xpt.sent k = none ∧ CtxOnly k s t ∧ Only [.regs, .xpt] s t) ∧
    (s.packetIn f 8 k c h data → cget c CX.state = 4 → s.nextPath k m p port → Runs (.closePacket n f) s fun t =>
      t.cof k CX.state = 6 ∧ t.connIdle k ∧ s.packetAway t (cput m CX.state 6) p port 9 (fun _ => True) ∧ CtxOnly k s t ∧
      Only sendParts s t) ∧
    (s.packetIn f 9 k c h data → cget c CX.state = 5 → Runs (.closeAck n f) s fun t => t.cof k CX.state = 6 ∧ t.connIdle k ∧ CtxOnly k s t ∧
      Only [.regs, .xpt] s t)) ∧
  (∀ (n : Fin 8) (f : Frame) (k c h p port : Nat) (data : List Byte) (s : State), cget c CX.state = 4 →
    let u := s.putCtx k (markPsn c (PH.psn h))
    let x := u.trackerOf k h
    let read : State := { u with xpt.tracks := u.xpt.tracks ++ [x] }
    (∀ v, s.packetIn f 1 k c h data → u.newMessage k h → u.winCheck k h = none → data ≠ [] →
      read.devWrite (u.connAgent k) (x.addr + PH.off h) data = (v, .ok ()) → Runs (.writePacket n f) s fun t =>
        t.track k (PH.msg h) false = some { x with got := 2 ^ (PH.off h / u.pay k), count := data.length, owed := 1, ts := PH.ts h, at_ := s.time.toNat } ∧
        Counted v t pgXpt F.xpt.RX_PAYLOAD_COUNT data.length ∧ SameBytes v t ∧ t.ctxOf k = u.ctxOf k ∧ CtxOnly k s t ∧ Only [.regs, .xpt] v t) ∧
    (s.packetIn f 2 k c h data → u.newMessage k h → u.winCheck k h = none → 0 < PH.len h → PH.len h ≤ u.pay k → cget c CX.inFlight = 0 →
      PH.len h ≤ cget c CX.cwnd → (∀ y ∈ s.xpt.tracks, y.conn ≠ k) → (∀ e ∈ s.xpt.entries, XD.conn e.desc ≠ k) →
      u.canRead (u.connAgent k) x.addr (PH.len h) → u.nextPath k (markPsn c (PH.psn h)) p port → Runs (.readReq n f) s fun t =>
        t.track k (PH.msg h) false = some { x with next := 1 } ∧ t.cof k CX.inFlight = PH.len h ∧
        s.packetAway t (markPsn c (PH.psn h)) p port 3 (fun g => PH.msg g = PH.msg h ∧ PH.len g = PH.len h ∧ PH.off g = 0 ∧ PH.last g = true) ∧
        CtxOnly k s t ∧ Only sendParts s t) ∧
    (∀ st, s.packetIn f 1 k c h data ∨ s.packetIn f 2 k c h data → u.newMessage k h → u.winCheck k h = some st → PH.bump h = false →
      s.fget pgWin F.win.VIOL_HEAD_HEAD < 16 →
      u.nextPath k (markPsn c (PH.psn h)) p port → Runs (row (PH.type h) n f) s fun t =>
        let b := (PH.msg h + 2 ^ 32 - cget c CX.rxBase) % 2 ^ 32
        let i := s.fget pgWin F.win.VIOL_HEAD_HEAD
        bitAt (t.cof k CX.rxDone) b = true ∧ bitAt (t.cof k CX.rxFail) b = true ∧ t.cof k CX.failMsg = PH.msg h ∧ t.cof k CX.failStatus = st ∧
        t.xpt.tracks = s.xpt.tracks ∧ t.fget pgWin (F.win.VIOL_STATUS_STATUS i) = st ∧ t.fget pgWin (F.win.VIOL_WINDOW_WINDOW i) = PH.win h ∧
        t.fget pgWin (F.win.VIOL_CONN_CONN i) = k % 2 ^ 20 ∧ t.fget pgWin F.win.VIOL_HEAD_HEAD = (i + 1) % 16 ∧
        Counted s t pgWin F.win.VIOLATIONS_COUNT 1 ∧ bitAt (t.fget pgWin F.com.EVT_STAT) 8 = true ∧
        s.packetAway t (markPsn c (PH.psn h)) p port 5 (fun g => PH.msg g = PH.msg h ∧ PH.status g = st) ∧ CtxOnly k s t ∧
        Only ([.xpt, .net, .freeCtr] ++ eventParts) s t) ∧
    (∀ y v, s.packetIn f 3 k c h data → u.track k (PH.msg h) true = some y → y.send = false → PH.len h = y.len → PH.off h % u.pay k = 0 →
      0 < u.pay k → PH.plen h = min (u.pay k) (y.len - PH.off h) → PH.last h = (PH.off h + PH.plen h == y.len) →
      bitAt y.got (PH.off h / u.pay k) = false → y.owed = 0 → u.devWrite (u.connAgent k) (y.addr + PH.off h) data = (v, .ok ()) →
      Runs (.readResp n f) s fun t => t.track k (PH.msg h) true = some { y with
            got := y.got ||| 2 ^ (PH.off h / u.pay k), count := y.count + data.length, owed := 1, ts := PH.ts h, at_ := s.time.toNat } ∧
        Counted v t pgXpt F.xpt.RX_PAYLOAD_COUNT data.length ∧ SameBytes v t ∧ CtxOnly k s t ∧ Only [.regs, .xpt] v t) ∧
    (∀ y e, u.track k (PH.msg h) true = some y → (∀ w ∈ s.xpt.tracks, w.conn = k → w = y) → s.xpt.entries.find? (·.serial == y.entry) = some e →
      (∀ w ∈ s.xpt.entries, w.serial = e.serial → w = e) →
      (∀ w ∈ s.xpt.entries, XD.conn w.desc = k → w.run = true ∧ s.msgs w.desc ≤ w.started) → y.conn = k → y.msg = PH.msg h → y.req = true →
      (s.packetIn f 5 k c h data → e.status = 0 → PH.status h ≠ 0 → Runs (.nackPacket n f) s fun t =>
        Counted s t pgXpt F.xpt.NACK_RECEIVED_COUNT 1 ∧ t.xpt.tracks = s.xpt.tracks.filter (!·.same y) ∧
        t.xpt.entries = s.xpt.entries.map (fun w => if w.serial = e.serial then { e with status := PH.status h } else w) ∧
        t.cof k CX.outstanding = cget c CX.outstanding - 1 ∧ CtxOnly k s t ∧ Only [.regs, .xpt] s t)) ∧
    (∀ y e, let v := leNat data
      let rec' := bitsOf v (8 * 0x10) 320
      let bytes := s.plen y 0
      let arrival := s.stamp n F.eth.TS_LAT_RX_LAT / 256 % 2 ^ 32
      let rtt := (arrival + 2 ^ 33 - fieldAt v 0 0 32 - fieldAt v 4 0 32) % 2 ^ 32
      s.packetIn f 4 k c h data → fieldAt v 8 0 4 = 1 → fieldAt rec' 4 0 2 = 1 → u.track k (fieldAt rec' 0 0 32) true = some y → y.send = true →
      y.next = 1 → y.acked = 0 → (∀ w ∈ s.xpt.tracks, w.conn = k → w = y) → s.xpt.entries.find? (·.serial == y.entry) = some e →
      (∀ w ∈ s.xpt.entries, w.serial = e.serial → w = e) →
      (∀ w ∈ s.xpt.entries, XD.conn w.desc = k → w.run = true ∧ s.msgs w.desc ≤ w.started) → y.conn = k → y.req = true →
      u.sampleValid k (fieldAt v 0 0 32) arrival = true → rtt ≤ s.prof k F.cong.CC_TARGET_NS_TARGET_NS → 0 < cget c CX.cwnd →
      let w := cget c CX.cwnd
      Runs (.ackPacket n f) s fun t => t.xpt.tracks = s.xpt.tracks.filter (!·.same y) ∧
        t.xpt.entries = s.xpt.entries.map (fun w => if w.serial = e.serial then { e with ended := e.ended + 1, bytes := e.bytes + y.len } else w) ∧
        t.cof k CX.inFlight = cget c CX.inFlight - bytes ∧ t.cof k CX.outstanding = cget c CX.outstanding - 1 ∧
        t.cof k CX.cwnd = max (1024 * s.prof k F.cong.CC_CWND_MIN_CWND_MIN)
          (min (w + s.prof k F.cong.CC_AI_BYTES_AI_BYTES * bytes / w) (1024 * s.prof k F.cong.CC_CWND_MAX_CWND_MAX)) % 2 ^ 32 ∧
        CtxOnly k s t ∧ Only [.regs, .xpt] s t))

def Obligations.CamernSpillAndWindows : Prop :=
  (∀ (ns : BitVec 32) (k : Nat) (rest : List Nat) (s : State), s.xpt.fetching = k :: rest → s.xpt.wanted = [] →
    let s1 : State := { s with xpt.fetching := rest }
    let s2 : State := s1.fput pgCtx F.ctx.FETCH_NS_MAX_NS (max (s.fget pgCtx F.ctx.FETCH_NS_MAX_NS) ns.toNat)
    let slowest (t : State) : Prop := t.fget pgCtx F.ctx.FETCH_NS_MAX_NS = max (s.fget pgCtx F.ctx.FETCH_NS_MAX_NS) ns.toNat % 2 ^ 32
    (∀ c u, s2.ctxLoad k = (u, .ok c) → (∀ m ∈ s.xpt.missed, m.conn ≠ k) → Runs (.contextFetchDone ns .none) s fun t =>
      t.ctxOf k = some c ∧ k ∈ t.xpt.lru ∧ t.xpt.fetching = rest ∧ slowest t ∧ CtxOnly k s t ∧ Only [.regs, .xpt] s t) ∧
    (∀ part, Runs (.contextFetchDone ns (.failed part)) s fun t => t.xpt.ctx = s.xpt.ctx ∧ t.xpt.fetching = rest ∧
      t.xpt.missed = s.xpt.missed.filter (·.conn != k) ∧ slowest t ∧
      Counted s t pgCtx F.ctx.FETCH_FAIL_COUNT (s.xpt.missed.filter (·.conn == k)).length ∧ Only [.regs, .xpt] s t)) ∧
  (∀ (k c : Nat) (rest : List (Nat × Nat)) (s v : State), s.xpt.writing = (k, c) :: rest → s.xpt.wanted = [] →
    ({ s with xpt.writing := rest } : State).devWrite .firmware (s.fget pgCtx F.ctx.CTX_TABLE_ADDR + 256 * k) (leBytes 256 (sealCtx c)) = (v, .ok ()) →
    Runs .contextWriteBackDone s fun t => t.xpt = { s.xpt with writing := rest } ∧ SameBytes v t ∧ Only [.regs] v t) ∧
  (∀ (k : Nat) (m : Missed) (s : State), s.xpt.missed[k]? = some m → Runs (.missTimeout k) s fun t =>
    t.xpt = { s.xpt with missed := s.xpt.missed.eraseIdx k } ∧ Counted s t pgCtx F.ctx.MISS_TIMEOUTS_COUNT 1 ∧ Only [.regs, .xpt] s t) ∧
  (∀ (r : Requester) (i : BitVec 16) (s : State), s.winReady r →
    let w := Store.get 0 s.xpt.wins i.toNat
    let others (t : State) : Prop := ∀ j, j ≠ i.toNat → Store.get 0 t.xpt.wins j = Store.get 0 s.xpt.wins j
    let began (t : State) (z cmd : Nat) : Prop := Store.get 0 t.xpt.wins i.toNat = z ∧ others t ∧ t.xpt.winCmd = some (i.toNat, cmd) ∧
      t.fon pgWin F.win.WIN_RESULT_BUSY = true ∧ t.xpt = { s.xpt with wins := t.xpt.wins, winCmd := t.xpt.winCmd } ∧ Only [.regs, .hub, .xpt] s t
    Runs (.winRevoke r i) s (fun t => began t (withCheck 32 (cput (cput w (0, 16, 16) (fieldAt w 0 16 16 + 1)) (0, 4, 1) 0)) 2) ∧
    (∀ bs x u, (s.releaseHolds r).devRead .firmware (s.fget pgWin F.win.WIN_SRC_ADDR) 32 = (u, .ok bs) → checkStruct 32 (leNat bs) = .clean x →
      (u.winImageCheck x = none → Runs (.winOpen r i) s fun t =>
        began t (withCheck 32 (cput (cput x (0, 16, 16) (fieldAt w 0 16 16 + 1)) (0, 4, 1) 1)) 1) ∧
      (∀ st, u.winImageCheck x = some st → Runs (.winOpen r i) s fun t => t.fget pgWin F.win.WIN_RESULT_STATUS = st ∧
        t.fon pgWin F.win.WIN_RESULT_BUSY = false ∧ t.xpt = s.xpt ∧ Only [.regs, .hub] s t)) ∧
    (∀ v, (s.releaseHolds r).devWrite .firmware (s.fget pgWin F.win.WIN_SRC_ADDR) (leBytes 32 w) = (v, .ok ()) → Runs (.winRead r i) s fun t =>
      t.fget pgWin F.win.WIN_RESULT_STATUS = 0 ∧ t.xpt = s.xpt ∧ SameBytes v t ∧ Only [.regs] v t)) ∧
  (∀ (i cmd : Nat) (s : State), s.xpt.winCmd = some (i, cmd) → Runs .winCmdDone s fun t =>
    t.fget pgWin F.win.WIN_RESULT_STATUS = 0 ∧ t.fon pgWin F.win.WIN_RESULT_BUSY = false ∧ t.xpt = { s.xpt with winCmd := none } ∧
    (cmd = 2 → bitAt (t.fget pgWin F.com.EVT_STAT) 9 = true) ∧ Only (.xpt :: eventParts) s t)
def Obligations.TimeAndLog : Prop :=
  (∀ (s : State), s.pending = [] → ∃ t, step s = .next t ∧ t.uptime = s.uptime + 1 ∧ (s.tbase.set = false → t.time = s.time) ∧
    (s.tbase.set = true → s.freqAdj = 0 → s.tbase.frac < 256000000000 → t.time = s.time + 1 ∧ t.tbase.frac = s.tbase.frac) ∧
    Only [.uptime, .time, .tbase] s t) ∧
  (∀ (r : Requester) (v : BitVec 64) (s : State), s.reaches r pgTim 0x48 = true →
    (s.agateIdle = true → Runs (.timeSet r v) s fun t => t.time = v ∧ t.tbase = { s.tbase with frac := 0, set := true } ∧
      Only ([.time, .tbase, .net] ++ eventParts) s t) ∧
    (s.agateIdle = false → Runs (.timeSet r v) s fun t => t.time = s.time ∧ t.tbase = s.tbase ∧
      bitAt (t.fget pgTim F.com.EVT_STAT) 8 = true ∧ Only eventParts s t)) ∧
  (∀ (s : State),
    (s.tbase.ppsSeen = true → s.uptime < s.tbase.ppsAt + 500000000 → Runs .ppsEdge s fun t => t = s) ∧
    (s.tbase.ppsSeen = false ∨ s.tbase.ppsAt + 500000000 ≤ s.uptime → Runs .ppsEdge s fun t =>
      t.fget pgServo F.servo.PPS_CAPT_TIME = s.time.toNat ∧ bitAt (t.fget pgServo F.com.EVT_STAT) 8 = true ∧ t.time = s.time ∧
      t.tbase.ppsSeen = true ∧ t.tbase.ppsAt = s.uptime ∧ Only (.tbase :: eventParts) s t ∧
      (s.fget pgServo F.servo.SERVO_CTRL_MODE = 1 → ∀ e : Int, -500000000 < e → e ≤ 500000000 → (s.time.toNat - e) % 1000000000 = 0 →
        s.servoTook t e) ∧
      (s.fget pgServo F.servo.SERVO_CTRL_MODE ≠ 1 → t.tbase.integral = s.tbase.integral ∧ t.freqAdj = s.freqAdj))) ∧
  (∀ (r : Requester) (e : BitVec 32) (s : State), s.reaches r pgServo 0x48 = true → s.fget pgServo F.servo.SERVO_CTRL_MODE = 2 →
    Runs (.servoOffset r e) s fun t => s.servoTook t e.toInt ∧ Only (.tbase :: eventParts) s t) ∧
  (∀ (s : State), s.fget pgServo F.servo.SERVO_CTRL_MODE ≠ 0 → Runs .holdover s fun t =>
    t.freqAdj = max (-51200000) (min 51200000 s.tbase.integral) ∧ t.fget pgServo F.servo.SERVO_STAT_STATE = 2 ∧
    t.tbase = { s.tbase with good := 0 } ∧ t.time = s.time ∧
    (s.fget pgServo F.servo.SERVO_STAT_STATE = 1 → bitAt (t.fget pgServo F.com.EVT_STAT) 10 = true) ∧ Only (.tbase :: eventParts) s t) ∧
  (∀ (s : State), s.tbase.set = true → s.time.toNat % 1000000000 = 0 → s.fon pgServo F.servo.PPS_OUT_CFG_EN = true →
    Runs .ppsOutPulse s fun t => t.out = s.out ++ [Out.pulse (s.fget pgServo F.servo.PPS_OUT_CFG_WIDTH_MS)] ∧ Only [.out] s t) ∧
  (∀ (r : Requester) (code : BitVec 16) (status : BitVec 8) (s : State), s.reaches r pgElog 0xA4 = true → r.isCore = true →
    s.log.pwrFail = false → s.log.prog = none → s.log.open_ = false ∨ s.log.last = [] →
    let c := r.key - 4
    let seq := (s.fget pgElog F.elog.LOG_HEAD_SEQ + 1 + s.log.torn) % 2 ^ 32
    let up := !s.tbase.set
    Runs (.logAdd r code status) s fun t => t.fon pgElog F.elog.LOG_STAT_BUSY = true ∧ (∃ img, t.log.prog = some (seq, img) ∧
        fieldAt img 0 0 64 = (if up then s.uptime / 1000 % 2 ^ 64 else s.time.toNat) ∧ fieldAt img 8 0 32 = seq ∧
        fieldAt img 0xC 0 12 = PageType.ccr.code ∧ fieldAt img 0xC 16 8 = c ∧ fieldAt img 0xC 31 1 = up.toNat ∧ fieldAt img 0x10 0 16 = code.toNat ∧
        fieldAt img 0x10 16 8 = status.toNat ∧ fieldAt img 0x10 24 8 = min 255 s.log.dropped ∧
        fieldAt img 0x14 0 32 = s.fget pgElog F.elog.LOG_ADD_DETAIL_DETAIL % 2 ^ 32 ∧
        fieldAt img 0x18 0 16 = s.fget pgElog F.elog.BOOT_PROGRESS_BOOT % 2 ^ 16) ∧
      t.log.entries = s.log.entries ∧ t.log.wait = s.log.wait ∧ t.log.dropped = 0 ∧ Only [.regs, .hub, .log] s t) ∧
  (∀ (seq img : Nat) (s : State), s.log.prog = some (seq, img) →
    let wrote (t : State) : Prop := t.log.entries = Store.set none s.log.entries seq (some img) ∧
      t.fget pgElog F.elog.LOG_HEAD_SEQ = seq % 2 ^ 32 ∧ Counted s t pgElog F.elog.LOG_WRITES_COUNT 1 ∧
      bitAt (t.fget pgElog F.com.EVT_STAT) 8 = true ∧ Only (.log :: eventParts) s t
    (s.log.wait = [] → Runs .logProgramDone s fun t => wrote t ∧ t.log.prog = none ∧ t.fon pgElog F.elog.LOG_STAT_BUSY = false) ∧
    (∀ e rest, s.log.wait = e :: rest → s.log.pwrFail = false → seq < 2 ^ 32 → Runs .logProgramDone s fun t => wrote t ∧ t.log.wait = rest ∧
      (∃ img', t.log.prog = some ((seq + 1) % 2 ^ 32, img') ∧ fieldAt img' 0x10 0 16 = e.code % 2 ^ 16) ∧
      t.fon pgElog F.elog.LOG_STAT_BUSY = true)) ∧
  (∀ (r : Requester) (seq : BitVec 32) (s : State), s.reaches r pgElog 0x6C = true →
    (∀ img, s.logAt seq.toNat = some img → Runs (.logRead r seq) s fun t => t.fget pgElog F.elog.LOG_READ_SEQ = seq.toNat ∧
      t.fon pgElog F.elog.LOG_STAT_READ_VALID = true ∧ t.fon pgElog F.elog.LOG_STAT_MISSING = false ∧
      (∀ k < 8, t.fget pgElog (F.elog.LOG_DATA_ENTRY k) = fieldAt img (4 * k) 0 32) ∧ Only [.regs, .hub] s t ∧ PageOnly pgElog s t) ∧
    (s.logAt seq.toNat = none → Runs (.logRead r seq) s fun t => t.fget pgElog F.elog.LOG_READ_SEQ = seq.toNat ∧
      t.fon pgElog F.elog.LOG_STAT_READ_VALID = false ∧ t.fon pgElog F.elog.LOG_STAT_MISSING = true ∧ Only [.regs, .hub] s t ∧
      PageOnly pgElog s t))
def Obligations.AgateRuns : Prop :=
  (∀ (r : Requester) (s : State), s.reaches r (pgAgt 0) 0x40 = true →
    (s.pwrState = 0 →
      (s.agateIdle = true → s.tilesIdle = true → s.enabled (pgAgt 0) = true → Runs (.load r) s fun t =>
        t.agtState 0 = 1 ∧ t.agtState 1 = 1 ∧ t.fget (pgAgt 0) F.agt.LOAD_STAT_STATUS = 0 ∧
        t.agate = { s.agate with tenant := 0, retiring := [] } ∧ Only ([.log, .boot, .agate] ++ eventParts) s t) ∧
      ((s.agateIdle && s.tilesIdle && s.enabled (pgAgt 0)) = false → Runs (.load r) s fun t =>
        t.fget (pgAgt 0) F.agt.LOAD_STAT_STATUS = 3 ∧ Only [.regs, .hub] s t ∧ RegsOnly [F.agt.LOAD_STAT_STATUS.key (pgAgt 0)] s t) ∧
      (s.agtState 0 = 2 → s.agtState 1 = 2 → s.enabled (pgAgt 0) = true → s.fget (pgAgt 0) F.agt.START_SEG_SEG < s.agate.nsegs →
        let a := s.fget (pgAgt 0) F.agt.START_TIME_TIME
        let g := s.fget (pgAgt 0) F.agt.START_SEG_SEG
        (s.time.toNat + 2000 ≤ a → Runs (.start r) s fun t =>
          t.running = true ∧ t.agtState 0 = 3 ∧ t.agtState 1 = 3 ∧ t.agate.entry = 0 ∧
          (∀ d < 2, ∀ st < 33, t.stream d st = ({} : Stream).enter g 0 a false) ∧
          (∀ d < 2, t.fget (pgAgt d) F.agt.AGT_STAT_SEGMENT = g % 2 ^ 10 ∧ t.fget (pgAgt d) F.agt.ITER_COUNT = 0) ∧
          t.shelf = (if s.agate.lastTenant = none ∨ s.agate.lastTenant = some 0 then s.shelf else []) ∧
          Only [.regs, .hub, .agate, .shelf, .host] s t) ∧
        (a < s.time.toNat + 2000 → Runs (.start r) s fun t => t.fget (pgAgt 0) F.agt.AGT_STAT_END_STATUS = 0x81 ∧ Only [.regs, .hub] s t ∧
          RegsOnly [F.agt.AGT_STAT_END_STATUS.key (pgAgt 0)] s t))) ∧
    (s.pwrState = 2 →
      (Runs (.load r) s fun t => t.pwrState = 4 ∧ t.pwr.held = s.pwr.held ++ [.load] ∧ t.agate = s.agate ∧ Only (.pwr :: eventParts) s t) ∧
      (Runs (.start r) s fun t => t.pwrState = 4 ∧ t.pwr.held = s.pwr.held ++ [.start] ∧ t.agate = s.agate ∧
        Only (.pwr :: eventParts) s t)) ∧
    (s.agtState 0 = 3 → Runs (.stop r) s fun t => t.agtState 0 = 4 ∧ t.agtState 1 = 4 ∧ Only [.regs, .hub] s t ∧
      RegsOnly ([0, 1].map fun d => F.agt.AGT_STAT_STATE.key (pgAgt d)) s t) ∧
    (s.running = true → Runs (.abort r) s fun t => runEnded t 12 ∧ Only ([.tiles, .agate, .tiers, .xpt, .col] ++ eventParts) s t)) ∧
  (∀ (s s1 : State), s.agtState 0 = 1 →
    (∀ f, s.readImage (s.fget (pgAgt 0) F.agt.IMAGE_ADDR_ADDR) = (s1, .error f) → s.agate.job = none → Runs .loadDone s fun t =>
      t.agtState 0 = 0 ∧ t.agtState 1 = 0 ∧ t.fget (pgAgt 0) F.agt.LOAD_STAT_STATUS = f.status % 2 ^ 8 ∧
      t.fget (pgAgt 0) F.agt.LOAD_STAT_SECTION = f.section_ % 2 ^ 10 ∧ t.fget (pgAgt 0) F.agt.LOAD_STAT_ITEM = f.item % 2 ^ 16 ∧
      bitAt (t.fget (pgAgt 0) F.com.EVT_STAT) 8 = true ∧ Only eventParts s1 t) ∧
    (∀ b h es, s.readImage (s.fget (pgAgt 0) F.agt.IMAGE_ADDR_ADDR) = (s1, .ok (b, h, es)) → s.agate.job = none →
      Runs .loadDone s fun t => t.agtState 0 = 2 ∧ t.agtState 1 = 2 ∧ bitAt (t.fget (pgAgt 0) F.com.EVT_STAT) 8 = true ∧
        t.agate = (s1.placeImage b h es).agate ∧
        ((∀ e ∈ es, e.ty ≤ 6) → ∀ d < 2, ∀ k < 4096, t.tally d k = 0 ∧ t.fget (tallyPage d k) (F.tal.SRC_LAST_SRC (k % 256)) = 0) ∧
        Only ([.agate, .slotHeld] ++ eventParts) s1 t)) ∧
  (∀ (k : Nat) (q : Deciding) (s : State), s.agate.deciding[k]? = some q → q.die < 2 →
    q.fired + s.fget (pgAgt q.die) F.agt.DEC_TIMEOUT_NS ≤ s.time.toNat → Runs (.decTimeout k) s fun t => runEnded t 13) ∧
  (∀ (d : Fin 2) (st : Fin 33) (w : WinBeat) (s : State), s.running = true → (s.stream d st).head = some w →
    s.fget (pgAgt d) F.agt.WATCH_NS ≠ 0 → w.anchor + BT.notBefore w.beat + s.fget (pgAgt d) F.agt.WATCH_NS ≤ s.time.toNat →
    Runs (.watchTimeout d st) s fun t => runEnded t 13) ∧
  (∀ (k : Nat) (n : Notice) (s : State), s.agate.notices[k]? = some n → n.die < 2 → n.tally < 4096 → n.amount ≠ 0 →
    Runs (.tallyIncrement k) s fun t => t.tally n.die n.tally = (s.tally n.die n.tally + n.amount) % 2 ^ 32 ∧
      t.fget (tallyPage n.die n.tally) (F.tal.SRC_LAST_SRC (n.tally % 256)) = n.src % 2 ^ 16 ∧
      t.agate.notices = s.agate.notices.eraseIdx k ∧ Only [.regs, .agate] s t ∧
      RegsOnly [(F.tal.COUNT_COUNT (n.tally % 256)).key (tallyPage n.die n.tally),
        (F.tal.SRC_LAST_SRC (n.tally % 256)).key (tallyPage n.die n.tally)] s t) ∧
  (∀ (r : Requester) (d : Fin 2) (k : Fin 16) (j : BitVec 8) (n : BitVec 16) (s : State),
    s.reaches r ⟨.tal, 16 * d.val + k.val⟩ 0x40 = true →
    let q := 256 * k.val + j.toNat
    (n ≠ 0 → Runs (.tallyAdd r d k j n) s fun t => t.tally d q = (s.tally d q + n.toNat) % 2 ^ 32 ∧
      t.fget (tallyPage d q) (F.tal.SRC_LAST_SRC (q % 256)) = 9 * 2 ^ 12 ∧ Only [.regs, .hub, .agate] s t ∧
      RegsOnly [(F.tal.COUNT_COUNT (q % 256)).key (tallyPage d q), (F.tal.SRC_LAST_SRC (q % 256)).key (tallyPage d q)] s t) ∧
    (n = 0 → Runs (.tallyAdd r d k j n) s fun t => Only [.hub] s t))

def Obligations.AgateBeats : Prop :=
  (∀ (d : Fin 2) (st : Fin 33) (up : BitVec 256) (g pos e i a : Nat) (s : State), s.running = true → (s.stream d st).window.length < 64 →
    (s.stream d st).fetch = some (g, pos, e, i, a) →
    let raw := Store.get 0 s.agate.beats (d.val * 2 ^ 16 + (s.listFirst d g st + pos)) ^^^ up.toNat
    let took (t : State) (b : Nat) : Prop := StreamOnly d st s t ∧ FireOnly s t ∧ t.stream d st = (s.stream d st).push b (s.listFirst d g st + pos)
      (g, pos, e, i, a) ∧ t.agate.notices = s.agate.notices
    (∀ b, checkStruct 32 raw = .clean b → Runs (.beatFetch d st up) s fun t => took t b ∧ Only [.regs, .agate] s t) ∧
    (∀ b, checkStruct 32 raw = .corrected b → Runs (.beatFetch d st up) s fun t => took t b ∧
      Counted s t (pgAgt d) F.agt.STORE_CORR_COUNT 1 ∧ bitAt (t.fget (pgAgt d) F.com.EVT_STAT) 11 = true ∧ Only (.agate :: eventParts) s t) ∧
    (checkStruct 32 raw = .failed → Runs (.beatFetch d st up) s fun t => runEnded t 0x80)) ∧
  (∀ (d : Fin 2) (st : Fin 33) (w : WinBeat) (s : State),
    let fired (t : State) : Prop := s.beatFired t d st w ∧ s.signalled t d st w ∧ Only fireParts s t
    (s.firesNow d st 1 w → Runs (.issue d st) s fun t => fired t ∧ FireOnly s t ∧ (t.stream d st).deliver = deliveries d st w) ∧
    (s.firesNow d st 3 w → st.val < 32 →
      let k := 4 * (32 * d.val + st.val) + BT.relTile w.beat
      let n := BT.relBuf w.beat
      Runs (.release d st) s fun t => fired t ∧ FireOnly s t ∧ t.lbState k n = 0 ∧
        t.fget (tilPage k) (F.til.LB_STAT_GEN n)
          = if s.lbState k n = 2 then (s.fget (tilPage k) (F.til.LB_STAT_GEN n) + 1) % 2 ^ (F.til.LB_STAT_GEN n).width
            else s.fget (tilPage k) (F.til.LB_STAT_GEN n)) ∧
    (s.firesNow d st 4 w → Runs (.decideBeat d st) s fun t => fired t ∧ t.agate.fills = s.agate.fills ∧ t.agate.deciding = s.agate.deciding ++
      [⟨d, w.entry, w.seg, BT.dpoint w.beat, 2 * d.val + PE.core (Store.get 0 s.agate.preds (d.val * 256 + BT.dpoint w.beat)),
        s.time.toNat, w.anchor⟩]) ∧
    (s.firesNow d st 6 w → Runs (.beatSignal d st) s fun t => fired t ∧ FireOnly s t) ∧
    (s.firesNow d st 5 w → s.agate.entry = w.entry → (∃ e < 2, ∃ j < 33, ¬ (e = d.val ∧ j = st.val) ∧ (s.stream e j).ended ≤ w.entry) →
      Runs (.beatEnd d st) s fun t => fired t ∧ (t.stream d st).ended = w.entry + 1 ∧ t.running = true ∧ t.agate.entry = s.agate.entry ∧
        (SG.decides (s.seg w.seg) = false → SG.next (s.seg w.seg) ≠ 0x3FF →
          Store.get 0 t.agate.segAt (w.entry + 1) = SG.next (s.seg w.seg) + 1 ∧
          (st.val = 32 → t.fget (pgAgt d) F.agt.AGT_STAT_SEGMENT = SG.next (s.seg w.seg)))) ∧
    (∀ x : WinBeat, s.running = true → (s.stream d st).head = some x → s.mayFire d st x = false → s.waitOver d st x.spec x.beat = true →
      BT.kind x.beat = 1 → Runs (.issue d st) s fun t => bitAt (t.fget (pgAgt d) F.com.EVT_STAT) 12 = true ∧ Only eventParts s t) ∧
    ((s.stream d st).nextFill = some w → st.val < 32 → w.spec = false → s.mayFill d st (s.stream d st) w = true → s.viewsOk →
      let f := s.fillOf d st w
      (s.rangeCheck (.tenant (Fin.ofNat 16 s.agate.tenant)) false f.src f.len = none → Runs (.fill d st) s fun t =>
        s.beatFired t d st w ∧ t.agate.fills = s.agate.fills ++ [f] ∧ t.lbState f.tile f.buf = 1 ∧ t.agate.notices = s.agate.notices ∧
        Only fireParts s t) ∧
      (∀ e, s.rangeCheck (.tenant (Fin.ofNat 16 s.agate.tenant)) false f.src f.len = some e → e < 2 ^ 8 →
        Runs (.fill d st) s fun t => runEnded t e)) ∧
    (st.val < 32 → Runs (.waitMetNotice d st) s fun t => t.fget (pgSeq d st) F.seq.SEQ_WAIT_REASON = s.waitReason d st ∧
      t.fget (pgSeq d st) F.seq.SEQ_WAIT_WINDOW = (s.stream d st).window.length % 2 ^ 7 ∧ t.agate.streams = s.agate.streams ∧
      Only [.regs, .agate] s t ∧ PageOnly (pgSeq d st) s t) ∧
    (∀ v rest, (s.stream d st).deliver = v :: rest → s.running = true → v.held = false →
      let td := Store.get 0 s.agate.tileDesc ((32 * d.val + st.val) * 2048 + v.index)
      let dd := Store.get 0 s.agate.dieDesc (d.val * 2048 + v.index)
      let sent (t : State) : Prop := (t.stream d st).deliver = rest ∧ StreamOnly d st s t ∧ FireOnly s t
      (∀ x, v.unit = 1 → v.tile < 256 → (s.tile v.tile).queue.length < 4 → checkStruct 64 td = .clean x → s.tileCheck v.tile x = none →
        Runs (.descriptorDeliver d st) s fun t => sent t ∧ t.tile v.tile = { s.tile v.tile with queue := (s.tile v.tile).queue ++ [⟨x, false, false⟩] } ∧
          TileOnly v.tile s t ∧ Only [.regs, .tiles, .agate] s t) ∧
      (∀ x, v.unit = 2 → v.tile < 256 → (s.tile v.tile).vqueue.length < 4 → checkStruct 64 td = .clean x → s.vecCheck v.tile x = none →
        Runs (.descriptorDeliver d st) s fun t => sent t ∧ t.tile v.tile = { s.tile v.tile with vqueue := (s.tile v.tile).vqueue ++ [⟨x, false⟩] } ∧
          TileOnly v.tile s t ∧ Only [.regs, .tiles, .agate] s t) ∧
      (v.unit = 3 → Runs (.descriptorDeliver d st) s fun t => sent t ∧
        (t.colEng d).queue = (s.colEng d).queue ++ [⟨d, dd, false⟩] ∧ Only [.regs, .agate, .col] s t) ∧
      (∀ x, v.unit = 4 → checkStruct 64 dd = .clean x → s.moveCheck x = none → Runs (.descriptorDeliver d st) s fun t => sent t ∧
        t.tiers = { s.tiers with queue := s.tiers.queue ++ [⟨d, x, false⟩] } ∧ Only [.regs, .agate, .tiers] s t) ∧
      (v.unit = 5 → Runs (.descriptorDeliver d st) s fun t => sent t ∧
        Store.get [] t.xpt.beat d.val = Store.get [] s.xpt.beat d.val ++ [⟨d, dd, false⟩] ∧ Only [.regs, .agate, .xpt] s t))) ∧
  (∀ (k : Nat) (guard : Option (Fin 1023)) (q : Deciding) (s : State), s.agate.deciding[k]? = some q → q.die < 2 →
    let e := Store.get 0 s.agate.preds (q.die * 256 + q.dpoint)
    let dp : Page := ⟨.dp, q.die⟩
    (∀ i ∈ entrySlots e, s.fon dp (F.dp.SLOT_STAT_COMPLETE i) = true) → ∀ succ,
    ((∃ j < PE.nrules e, s.ruleHolds q.die e j = true ∧ (∀ i < j, s.ruleHolds q.die e i = false) ∧ succ = PE.succ e j) ∨
      ((∀ j < PE.nrules e, s.ruleHolds q.die e j = false) ∧ succ = PE.dflt e)) →
    let planned := q.anchor + SG.period (s.seg q.seg)
    let later := max planned (s.time.toNat + 350)
    let align := SG.align (s.seg succ)
    Runs (.decisionEvaluate k guard) s fun t => ∃ x : Decision, x.entry = q.entry ∧ x.succ = succ ∧ x.core = q.core ∧
      (∀ d < 2, Store.get [] t.agate.sent d = Store.get [] s.agate.sent d ++ [x]) ∧
      (succ = SG.predict (s.seg q.seg) → x.anchor = planned) ∧
      (succ ≠ SG.predict (s.seg q.seg) → succ = 0x3FF ∨ align = 0 → x.anchor = later) ∧
      (succ ≠ SG.predict (s.seg q.seg) → succ ≠ 0x3FF → align ≠ 0 →
        later ≤ x.anchor ∧ x.anchor < later + align ∧ (x.anchor - planned) % align = 0) ∧
      t.fget dp F.dp.DEC_LAST_DPOINT = q.dpoint % 2 ^ 8 ∧ t.fget dp F.dp.DEC_LAST_SUCC = succ % 2 ^ 10 ∧
      t.fget dp F.dp.DEC_TIME_TIME = s.time.toNat ∧ Counted s t dp F.dp.DECISIONS_COUNT 1 ∧
      t.host.skips = s.host.skips + (if guard.any (fun g => g.val == succ) then 1 else 0) ∧
      t.agate.deciding = s.agate.deciding.eraseIdx k ∧
      (∀ i ∈ entrySlots e, t.fget dp (F.dp.SLOT_STAT_COUNT i) = 0 ∧ t.fon dp (F.dp.SLOT_STAT_COMPLETE i) = false) ∧
      Only [.regs, .agate, .host, .slotHeld] s t ∧ PageOnly dp s t) ∧
  (∀ (d : Fin 2) (q : Decision) (rest : List Decision) (s : State), Store.get [] s.agate.sent d.val = q :: rest → q.succ ≠ 0x3FF → q.core < 4 →
    (∀ st < 33, ∀ x ∈ (s.stream d st).specCursors, x.1 < 64) →
    Runs (.decisionArrive d) s fun t => Store.get [] t.agate.sent d.val = rest ∧ t.decidedAt d q.entry = some (q.succ, q.anchor) ∧
      (∀ st < 33, ((s.stream d st).specFrom = none → t.stream d st = s.stream d st) ∧
        ((s.stream d st).specFrom ≠ none → (t.stream d st).specFrom = none ∧ (t.stream d st).specCursors = [] ∧ (t.stream d st).deferred = [] ∧
          (t.stream d st).window = (if q.predicted then (s.stream d st).window.map (fun w => { w with spec := false })
            else (s.stream d st).window.filter (fun w => !w.spec)) ∧
          (q.predicted = true → (t.stream d st).fetch = (s.stream d st).fetch ∧ ∀ v < 64, ∀ c, (s.stream d st).specCursors = [(v, c)] →
            t.cursor d st v = (s.cursor d st v + c) % 2 ^ 32) ∧
          (q.predicted = false → ∀ v < 64, t.cursor d st v = s.cursor d st v))) ∧
      Only ([.tiles, .agate, .shelf, .tiers, .freeCtr] ++ eventParts) s t)

def Obligations.RunEnd : Prop :=
  ∀ (d : Fin 2) (st : Fin 33) (w : WinBeat) (s : State), s.firesNow d st 5 w → s.agate.entry = w.entry →
    Store.get 0 s.agate.segAt w.entry = w.seg + 1 →
    (∀ e < 2, ∀ j < 33, ¬ (e = d.val ∧ j = st.val) → w.entry < (s.stream e j).ended) →
    (SG.decides (s.seg w.seg) = false ∧ SG.next (s.seg w.seg) = 0x3FF) ∨ s.agtState 0 = 4 →
    Runs (.beatEnd d st) s fun t => ∃ status, runEnded t status
def Obligations.JobQueues : Prop :=
  (∀ (r : Requester) (q : Fin 1024) (tail : BitVec 12) (s : State), s.reaches r (jqPage q) 0x58 = true →
    Runs (.sqDoorbell r q tail) s fun t => t.fget (jqPage q) F.jq.SQ_TAIL_TAIL = tail.toNat ∧ Only [.regs, .hub] s t ∧
      RegsOnly [F.jq.SQ_TAIL_TAIL.key (jqPage q)] s t) ∧
  (∀ (r : Requester) (tail : BitVec 12) (s : State),
    (∀ q : Fin 1024, s.reaches r (jqPage q) 0x64 = true → s.host.waiting = [] → Runs (.cqTailWrite r (.job q) tail) s fun t =>
      t.fget (jqPage q) F.jq.CQ_TAIL_TAIL = tail.toNat ∧ Only [.regs, .hub] s t ∧ RegsOnly [F.jq.CQ_TAIL_TAIL.key (jqPage q)] s t) ∧
    (s.reaches r pgMq 0x68 = true → s.tiers.drv = [] → s.tiers.drvOut = [] → Runs (.cqTailWrite r .driver tail) s fun t =>
      t.fget pgMq F.mq.CQ_TAIL_TAIL = tail.toNat ∧ Only [.regs, .hub] s t ∧
      RegsOnly [F.mq.CQ_TAIL_TAIL.key pgMq, F.mq.MQ_STAT_STALLED.key pgMq] s t) ∧
    (s.reaches r pgMq 0x98 = true → r.isCore = true → s.tiers.fwr = [] → s.tiers.fwOut = [] → Runs (.cqTailWrite r .firmware tail) s fun t =>
      t.fget pgMq F.mq.FCQ_TAIL_TAIL = tail.toNat ∧ Only [.regs, .hub] s t ∧
      RegsOnly [F.mq.FCQ_TAIL_TAIL.key pgMq, F.mq.MQ_STAT_FSTALLED.key pgMq] s t) ∧
    (s.reaches r pgXpt 0x64 = true → s.xpt.records = [] → Runs (.cqTailWrite r .xpt tail) s fun t =>
      t.qget (Store.get 0 s.hub.qsel r.key) F.xpt.Q_CQ_TAIL_TAIL = tail.toNat ∧ Only [.regs, .hub] s t)) ∧
  (∀ (q : Fin 1024) (h d : Nat) (s : State),
    (s.jobNext q 1 h d → s.jobCheck q d = none → Runs (.jobSignal q) s fun t =>
      s.jobPassed t q h ∧ s.jobRecorded t q (JE.opId d) 0 1 h ∧ Only eventParts s t) ∧
    (∀ st, s.jobNext q 1 h d → s.jobCheck q d = some st → Runs (.jobSignal q) s fun t =>
      s.jobPassed t q h ∧ s.jobRecorded t q (JE.opId d) st 1 h ∧ Counted s t (jqPage q) F.jq.JQ_REFUSED_COUNT 1 ∧
      bitAt (t.fget (jqPage q) F.com.EVT_STAT) 10 = true ∧ Only eventParts s t) ∧
    (s.jobHead q = some h → checkStruct 64 (s.jobRaw q h) = .clean d → JE.op d = 1 → s.cqRoom q = false → Runs (.jobSignal q) s fun t =>
      t.fon (jqPage q) F.jq.JQ_STAT_WAITING = true ∧ t.fget (jqPage q) F.jq.JQ_STAT_REASON = 3 ∧ Only [.regs] s t ∧
      RegsOnly [F.jq.JQ_STAT_WAITING.key (jqPage q), F.jq.JQ_STAT_REASON.key (jqPage q)] s t) ∧
    (s.jobNext q 4 h d → s.jobCheck q d = none → s.agtState 0 = 3 → Runs (.jobStop q) s fun t =>
      s.jobPassed t q h ∧ s.jobRecorded t q (JE.opId d) 0 4 h ∧ t.agtState 0 = 4 ∧ t.agtState 1 = 4 ∧ Only eventParts s t) ∧
    (s.jobNext q 2 h d → s.jobCheck q d = none →
      (s.agateIdle = true → s.tilesIdle = true → s.enabled (pgAgt 0) = true → Runs (.jobRun q) s fun t =>
        s.jobPassed t q h ∧ t.agtState 0 = 1 ∧ t.agtState 1 = 1 ∧ t.fget (pgAgt 0) F.agt.IMAGE_ADDR_ADDR = JE.addrA d ∧
        t.agate = { s.agate with job := some (q.val, h, JE.opId d), jobStart := some (JE.startSeg d, JE.startTime d),
                                 tenant := s.jqTenant q, retiring := [] } ∧
        t.host.services = (if JE.svcEn d then [⟨JE.service d, JE.admitTally d, JE.doneTally d, JE.ringLog2 d, JE.addrB d, JE.slots d,
          s.jqTenant q, 0, 0⟩] else []) ∧ Only ([.log, .boot, .agate] ++ eventParts) s t) ∧
      (s.agateIdle = false → Runs (.jobRun q) s fun t => t.fon (jqPage q) F.jq.JQ_STAT_WAITING = true ∧
        t.fget (jqPage q) F.jq.JQ_STAT_REASON = 1 ∧ Only [.regs] s t ∧
        RegsOnly [F.jq.JQ_STAT_WAITING.key (jqPage q), F.jq.JQ_STAT_REASON.key (jqPage q)] s t)) ∧
    (∀ v bs u w, s.jobNext q 3 h d → s.jobCheck q d = none → s.serviceOf (JE.service d) = some v → s.admitWaits d = none →
      (s.jobPass q h).devRead (s.jqAgent q) (JE.addrA d) 64 = (u, .ok bs) →
      u.devWrite (s.jqAgent q) (v.ringAddr + 64 * (v.admissions % 2 ^ v.ringLog2)) bs = (w, .ok ()) → Runs (.admitEntry q []) s fun t =>
        s.jobPassed t q h ∧
        t.host.admitted = s.host.admitted ++ [⟨q, h, JE.opId d, v.number, v.admissions,
          (bitList 32 (JE.slots d)).map fun k => (Fin.ofNat 32 k, w.fget pgSlot (F.slot.SL_SVC_GEN k))⟩] ∧
        t.host.services = (s.host.services.map fun x => if x.number = v.number then { x with admissions := x.admissions + 1 } else x) ∧
        (v.admitTally < 4096 → t.tally 0 v.admitTally = (s.tally 0 v.admitTally + 1) % 2 ^ 32) ∧
        SameBytes w t)) ∧
  (∀ (i : Nat) (a : Admitted) (v : Service) (s : State), s.host.admitted[i]? = some a → s.serviceOf a.service = some v →
    a.k + 1 ≤ s.finishedOf v → a.pins = [] → s.cqRoom a.queue = true → Runs (.admitComplete i) s fun t =>
      t.host.admitted = s.host.admitted.eraseIdx i ∧ s.jobRecorded t a.queue a.opId 0 3 a.index ∧ Only eventParts s t) ∧
  (∀ (i : Nat) (a : Admitted) (v : Service) (k : Fin 32) (s : State), s.host.admitted[i]? = some a → s.serviceOf a.service = some v →
    a.k + 1 ≤ s.finishedOf v → a.pins = [(k, 1)] → Runs (.admitComplete i) s fun t =>
      t.fget pgSlot (F.slot.SL_SVC_PIN1 k) = (s.fget pgSlot (F.slot.SL_SVC_PIN1 k) - 1) % 2 ^ 8 ∧
      t.fget pgSlot (F.slot.SL_SVC_PIN0 k) = s.fget pgSlot (F.slot.SL_SVC_PIN0 k)) ∧
  (∀ (q : Fin 1024) (s : State), Store.get 0 s.host.unsignalled q.val ≠ 0 →
    let v := s.fget (jqPage q) F.jq.IRQ_CFG_VECTOR
    (s.fon (jqPage q) F.jq.IRQ_CFG_IRQ_EN = true → s.msixWord (4 * v + 3) % 2 = 0 → Runs (.coalTimeout q) s fun t =>
      t.out = s.out ++ [.msi (s.moduleFor (s.fget (jqPage q) F.jq.JQ_CFG_MODULE)) (s.msixWord (4 * v) + 2 ^ 32 * s.msixWord (4 * v + 1))
        (s.msixWord (4 * v + 2))] ∧ Store.get 0 t.host.unsignalled q.val = 0 ∧ Only [.out, .host] s t) ∧
    (s.fon (jqPage q) F.jq.IRQ_CFG_IRQ_EN = true → s.msixWord (4 * v + 3) % 2 = 1 → Runs (.coalTimeout q) s fun t =>
      Store.get false t.hub.pba v = true ∧ t.out = s.out ∧ Store.get 0 t.host.unsignalled q.val = 0 ∧ Only [.hub, .host] s t) ∧
    (s.fon (jqPage q) F.jq.IRQ_CFG_IRQ_EN = false → Runs (.coalTimeout q) s fun t =>
      Store.get 0 t.host.unsignalled q.val = 0 ∧ Only [.host] s t))

def Obligations.HostLinks : Prop :=
  (∀ (m : Fin 4) (degraded memEn : Bool) (s : State), s.fon (pgLnk m) F.lnk.LINK_CTRL_DISABLE = false →
    Store.get false s.host.stuck m.val = false → s.boot.links = true →
    (s.linkStage m < 3 → Runs (.linkStageAdvance m degraded memEn) s fun t => t.linkStage m = s.linkStage m + 1 ∧ Only [.regs] s t ∧
      RegsOnly [F.lnk.LINK_STAT_STAGE.key (pgLnk m)] s t) ∧
    (s.linkStage m = 3 → Runs (.linkStageAdvance m degraded memEn) s fun t => t.linkStage m = 4 ∧
      t.fget (pgLnk m) F.lnk.LINK_STAT_LANES = (if degraded then 32 else 64) ∧ t.fon (pgLnk m) F.lnk.LINK_STAT_DEGRADED = degraded ∧
      t.fon (pgLnk m) F.lnk.LINK_STAT_MEM_EN = memEn ∧ bitAt (t.fget pgHst F.hst.HOST_STAT_MODULES_UP) m = true ∧
      bitAt (t.fget (pgLnk m) F.com.EVT_STAT) 8 = true ∧ (degraded = true → bitAt (t.fget (pgLnk m) F.com.EVT_STAT) 10 = true) ∧
      Only eventParts s t)) ∧
  (∀ (m : Fin 4) (s : State), 0 < s.linkStage m → s.linkStage m < 4 → Store.get false s.host.stuck m.val = false →
    Runs (.linkStageTimeout m) s fun t => t.linkStage m = s.linkStage m ∧ Store.get false t.host.stuck m.val = true ∧
      bitAt (t.fget (pgLnk m) F.com.EVT_STAT) 9 = true ∧ (∀ degraded memEn, exec (.linkStageAdvance m degraded memEn) t = .next t) ∧
      Only eventParts s t) ∧
  (∀ (r : Requester) (m : Fin 4) (s : State),
    let falls (stage : Nat) (c : Instr) : Prop :=
      (s.linkStage m = 4 → Runs c s fun t => t.linkDown m stage ∧ Counted s t (pgLnk m) F.lnk.DOWNS_COUNT 1 ∧
        bitAt (t.fget (pgLnk m) F.com.EVT_STAT) 9 = true ∧ Only eventParts s t) ∧
      (s.linkStage m ≠ 4 → Runs c s fun t => t.linkDown m stage ∧ Only [.regs, .hub, .host] s t ∧
        RegsOnly (F.lnk.LINK_CTRL_DISABLE.key (pgLnk m) :: linkShown m) s t)
    (s.reaches r (pgLnk m) 0x44 = true → s.fon (pgLnk m) F.lnk.LINK_CTRL_DISABLE = false → falls 1 (.retrain r m)) ∧
    (s.reaches r (pgLnk m) 0x44 = true → s.fon (pgLnk m) F.lnk.LINK_CTRL_DISABLE = true → Runs (.retrain r m) s fun t => Only [.hub] s t) ∧
    (s.reaches r (pgLnk m) 0x44 = true → falls 0 (.linkDisable r m) ∧
      Runs (.linkDisable r m) s fun t => t.fon (pgLnk m) F.lnk.LINK_CTRL_DISABLE = true) ∧
    falls 0 (.moduleReset m) ∧
    (s.linkStage m = 4 → falls 0 (.moduleDown m)) ∧ (s.linkStage m ≠ 4 → exec (.moduleDown m) s = .next s)) ∧
  (∀ (m : Fin 4) (x : BitVec 29) (s : State), s.linkStage m = 4 → s.fon (pgLnk m) F.lnk.LINK_STAT_MEM_EN = true → s.pwrState = 0 → s.pwr.goal ≠ 2 →
    let t := x.toNat / 2 ^ 21
    let a := t * 2 ^ 21 + x.toNat % 2 ^ 21 / 64 * 64
    (x.toNat % 2 ^ 21 < 0x180000 → s.fon (tilPage t) F.com.ENABLED = true → s.isolated (tilPage t) = false →
      (Runs (.cxlMemAccess m x none) s fun u => u.out = s.out ++ [Out.read a (Store.read 0 s.shelf a 64)] ∧ Only [.regs, .out] s u) ∧
      (∀ en data, Runs (.cxlMemAccess m x (some (en, data))) s fun u =>
        (∀ j < 64, Store.get 0 u.shelf (a + j) = if en.getLsbD j then BitVec.ofNat 8 (data.toNat / 2 ^ (8 * j)) else Store.get 0 s.shelf (a + j)) ∧
        ShelfOnly ((List.range 64).map (a + ·)) s u ∧ Only [.regs, .shelf] s u)) ∧
    (0x180000 ≤ x.toNat % 2 ^ 21 ∨ s.fon (tilPage t) F.com.ENABLED = false →
      (Runs (.cxlMemAccess m x none) s fun u => u.out = s.out ++ [Out.read a (List.replicate 64 0)] ∧
        Counted s u pgHst (F.com.EVT_CNT 7) 1 ∧ Only [.regs, .out] s u) ∧
      (∀ y, Runs (.cxlMemAccess m x (some y)) s fun u => Counted s u pgHst (F.com.EVT_CNT 7) 1 ∧ Only [.regs] s u ∧
        RegsOnly [(F.com.EVT_CNT 7).key pgHst] s u)))
def Obligations.PowerLevels : Prop :=
  (∀ (n : PhaseNote) (rest : List PhaseNote) (s : State), s.agate.reports = n :: rest → s.pwrState = 0 → n.src < 64 → n.phase < 256 →
    s.groupPhase n.src < 256 → Runs .phaseReport s fun t =>
      t.agate = { s.agate with reports := rest } ∧ t.groupPhase n.src = n.phase ∧ (t.pwrGroup n.src).pref = some (s.prefOf n.phase) ∧
      (t.pwrGroup n.src).sum = 0 ∧ (t.pwrGroup n.src).ticks = 0 ∧
      (let f := F.ops.EST_GROUP_MW (s.groupPhase n.src)
       let x := s.pwrGroup n.src
       let mean := x.sum / x.ticks
       (x.ticks = 0 → t.fget pgOps f = s.fget pgOps f) ∧
       (x.ticks ≠ 0 → s.fget pgOps f = 0xFFFF → t.fget pgOps f = min mean 0xFFFE) ∧
       (x.ticks ≠ 0 → s.fget pgOps f < 0xFFFF → mean < 0xFFFF →
         (t.fget pgOps f : Int) = (s.fget pgOps f : Int) + ((mean : Int) - s.fget pgOps f) / 8)) ∧
      t.levelChosen ∧ s.levelsFollow t ∧ Only (.agate :: levelParts) s t) ∧
  (∀ (n : PhaseNote) (rest : List PhaseNote) (s : State), s.agate.forecasts = n :: rest → s.pwrState = 0 →
    (s.time.toNat + 20000 < n.at_ → Runs .phaseForecast s fun t => t.agate = { s.agate with forecasts := rest } ∧
      t.pwr = { s.pwr with planned := s.pwr.planned ++ [n] } ∧ Only [.agate, .pwr] s t) ∧
    (n.at_ ≤ s.time.toNat + 20000 → Runs .phaseForecast s fun t => t.agate = { s.agate with forecasts := rest } ∧
      t.pwr.planned = s.pwr.planned ++ [n] ∧
      t.fget pgPwr F.pwr.LEVEL_PKG_LEVEL = max (s.fget pgPwr F.pwr.LEVEL_PKG_LEVEL) (t.chooseLevel (max s.time.toNat n.at_)) ∧
      (s.fget pgPwr F.pwr.LEVEL_PKG_LEVEL < t.fget pgPwr F.pwr.LEVEL_PKG_LEVEL → s.levelsFollow t) ∧ Only (.agate :: levelParts) s t)) ∧
  (∀ (n : PhaseNote) (s : State), n ∈ s.pwr.planned → n.at_ ≤ s.time.toNat → s.pwrState = 0 → Runs .forecastTime s fun t =>
    t.levelChosen ∧ s.levelsFollow t ∧ Only levelParts s t) ∧
  (∀ (p10 : BitVec 32) (s : State), s.pwrState = 0 → s.fget pgPwr F.pwr.LEVEL_PKG_LEVEL ≤ 12 → Runs (.capTick p10) s fun t =>
    let p := p10.toNat
    let l := s.fget pgPwr F.pwr.LEVEL_PKG_LEVEL
    let l' := t.fget pgPwr F.pwr.LEVEL_PKG_LEVEL
    let step := if s.budget < p then l - 1 else l
    let cap := 1000 * s.fget pgPwr F.pwr.PWR_CAP_CAP_W
    let n := min 99 t.pwr.window.length + 1
    let past := (t.pwr.window.take 99).foldl (· + ·) 0
    t.pwr.window = (p :: s.pwr.window).take 100 ∧ t.fget pgPwr F.pwr.PKG_MW_MW = meanOf t.pwr.window % 2 ^ 32 ∧
    t.fget pgPwr F.pwr.PKG_PEAK_MW_MW = max (s.fget pgPwr F.pwr.PKG_PEAK_MW_MW) p % 2 ^ 32 ∧
    (s.pwr.capTicks < 99 → t.fget pgPwr F.pwr.CAL_RATIO = s.fget pgPwr F.pwr.CAL_RATIO) ∧
    (past + p ≤ cap * n → s.budget < p → l' = l - 1) ∧
    (past + p ≤ cap * n → p ≤ s.budget →
      l' = if l < min t.pwr.limit t.topCeiling ∧ t.fits (t.activePower (l + 1)) t.budget = true then l + 1 else l) ∧
    (cap * n < past + p → l' ≤ step ∧ (l' = step ∨ l' = 0 ∨ t.fits (t.activePower l') (cap * n - past) = true) ∧
      ∀ k ≤ step, l' < k → t.fits (t.activePower k) (cap * n - past) = false) ∧
    s.levelsFollow t ∧ Only levelParts s t) ∧
  (∀ (dyn : List (BitVec 20)) (unc : List (BitVec 24)) (s : State), s.agate.tenant < 16 → Runs (.learnTick dyn unc) s fun t =>
    let dynOf (g : Nat) : Nat := (dyn.getD g 0).toNat
    let work := ((List.range 64).map dynOf).foldl (· + ·) 0 + (unc.getD 0 0).toNat + (unc.getD 1 0).toNat
    let key := 16 + s.agate.tenant
    let e := Store.get 0 s.pwr.energy key + work * s.fget pgPwr F.pwr.CAL_RATIO
    (∀ g < 64, (t.pwrGroup g).ticks = (s.pwrGroup g).ticks + (if s.fon pgPwr F.pwr.PWR_CTRL_LEARN_EN then 1 else 0) ∧
      (t.pwrGroup g).sum = (s.pwrGroup g).sum + (if s.fon pgPwr F.pwr.PWR_CTRL_LEARN_EN
        then dynOf g * (1600 * 750 ^ 2) / (opMHz (s.level g) * opMilliV (s.level g) ^ 2) else 0)) ∧
    (s.running = true → Counted s t pgThr (F.thr.ENERGY_TENANT_UJ s.agate.tenant) (e / 32768000) ∧
      Store.get 0 t.pwr.energy key = e % 32768000) ∧
    (s.running = false → ∀ k < 16, t.fget pgThr (F.thr.ENERGY_TENANT_UJ k) = s.fget pgThr (F.thr.ENERGY_TENANT_UJ k)) ∧
    (∀ g < 64, t.level g = s.level g) ∧ Only [.regs, .pwr] s t) ∧
  (∀ (g : Fin 64) (l : Nat) (s : State), (s.pwrGroup g).target = some l → l ≤ 12 → Runs (.rampComplete g) s fun t =>
    t.level g = l ∧ (t.pwrGroup g).target = none ∧ t.fget pgDom (F.dom.DOM_MHZ g) = opMHz l ∧
    t.fget pgThr (F.thr.GRP_REASON g) = t.reasonOf g ∧ (∀ k < 64, k ≠ g.val → t.level k = s.level k) ∧ Only levelParts s t) ∧
  (∀ (g : Fin 64) (s : State),
    (Runs (.droop g) s fun t => t.fon pgDom (F.dom.DOM_STRETCH g) = true ∧ t.fget pgThr (F.thr.GRP_REASON g) = 7 ∧
      (∀ k < 64, t.level k = s.level k) ∧ Only levelParts s t) ∧
    (Runs (.droopEnd g) s fun t => t.fon pgDom (F.dom.DOM_STRETCH g) = false ∧ t.fget pgThr (F.thr.GRP_REASON g) = t.reasonOf g ∧
      (∀ k < 64, t.level k = s.level k) ∧ Only levelParts s t)) ∧
  (∀ (s : State),
    (Runs .currentAlarm s fun t => t.pwr.current = min 12 (s.pwr.current + 2) ∧ t.pwr.alarm = true ∧ s.levelsFollow t ∧ Only levelParts s t) ∧
    (Runs .currentRelease s fun t => t.pwr.current = s.pwr.current - 1 ∧ t.pwr.alarm = false ∧ s.levelsFollow t ∧ Only levelParts s t) ∧
    (s.pwr.trip = true → s.pwrState = 0 → Runs .thermalTripRelease s fun t => t.pwr.trip = false ∧ t.levelChosen ∧ t.levelsLed ∧
      (∀ g < 64, t.level g ≤ s.level g) ∧ Only levelParts s t)) ∧
  (∀ (tj : BitVec 8) (g : Fin 64) (s : State),
    let shown (t : State) : Prop := t.fget pgPwr F.pwr.TJ_CFG_TJ_NOW = tj.toNat ∧ t.fget pgPwr F.pwr.TJ_CFG_TJ_GROUP = g
    let lim := s.fget pgPwr F.pwr.TJ_CFG_TJ_LIMIT
    let l := s.fget pgPwr F.pwr.LEVEL_PKG_LEVEL
    (s.pwrState = 0 → l ≤ 12 → lim < tj.toNat → Runs (.thermalTick tj g) s fun t => shown t ∧ t.pwr.limit = l - 1 ∧
      t.fget pgPwr F.pwr.LEVEL_PKG_LEVEL = l - 1 ∧ s.levelsFollow t ∧ Only levelParts s t) ∧
    (s.pwrState = 0 → tj.toNat + 3 ≤ lim → s.pwr.limit < 12 → Runs (.thermalTick tj g) s fun t => shown t ∧
      t.pwr.limit = s.pwr.limit + 1 ∧ t.levelChosen ∧ s.levelsFollow t ∧ Only levelParts s t) ∧
    (tj.toNat ≤ lim → lim < tj.toNat + 3 → Runs (.thermalTick tj g) s fun t => shown t ∧ Only [.regs] s t ∧
      RegsOnly [F.pwr.TJ_CFG_TJ_NOW.key pgPwr, F.pwr.TJ_CFG_TJ_GROUP.key pgPwr] s t) ∧
    Runs (.thermalTrip tj g) s fun t => shown t ∧ t.pwr.trip = true ∧ (∀ k < 64, t.level k = 0) ∧
      bitAt (t.fget pgPwr F.com.EVT_STAT) 10 = true ∧ Only (.log :: levelParts) s t)

def Obligations.PowerStates : Prop :=
  (∀ (r : Requester) (s : State), s.reaches r pgPwr 0x48 = true →
    let turned (t : State) : Prop := Counted s t pgPwr (F.com.EVT_CNT 7) 1 ∧ Only [.regs, .hub] s t ∧ RegsOnly [(F.com.EVT_CNT 7).key pgPwr] s t
    let refused (t : State) (m : Nat) : Prop := t.pwrState = s.pwrState ∧ t.pwrAnswer 3 m ∧ Counted s t pgPwr F.pwr.REFUSED_COUNT 1 ∧
      bitAt (t.fget pgPwr F.com.EVT_STAT) 9 = true ∧ Only eventParts s t
    let entered (t : State) (goal : Nat) : Prop := t.tookPwr 1 ∧ t.pwrAnswer 0 0 ∧ t.pwr.goal = goal ∧ Only (.pwr :: eventParts) s t
    (s.pwrState = 0 → (s.refusers 2 ≠ 0 ∨ s.enabled pgPwr = false → Runs (.nap r) s fun t => refused t (s.refusers 2)) ∧
      (s.refusers 2 = 0 → s.enabled pgPwr = true → Runs (.nap r) s fun t => entered t 2)) ∧
    (s.pwrState ≠ 0 → Runs (.nap r) s turned) ∧
    (s.pwrState = 0 ∨ s.pwrState = 2 → (s.refusers 3 ≠ 0 ∨ s.enabled pgPwr = false → Runs (.standby r) s fun t => refused t (s.refusers 3)) ∧
      (s.refusers 3 = 0 → s.enabled pgPwr = true → Runs (.standby r) s fun t => entered t 3)) ∧
    (s.pwrState = 1 ∨ s.pwrState = 3 ∨ s.pwrState = 4 → Runs (.standby r) s turned) ∧
    (s.pwrState = 1 → Runs (.wake r) s fun t => t.tookPwr 4 ∧ t.fget pgPwr F.pwr.PWR_STATE_RESULT = 12 ∧ Only (.pwr :: eventParts) s t) ∧
    (s.pwrState = 2 → Runs (.wake r) s fun t => t.tookPwr 4 ∧ t.pwrAnswer 0 0 ∧ Only (.pwr :: eventParts) s t) ∧
    (s.pwrState = 3 → Runs (.wake r) s fun t => t.tookPwr 4 ∧ t.pwrAnswer 0 0 ∧ t.pwr.stage = 1 ∧
      (∀ p ∈ [Pin.enAttic, .enCore0, .enCore1, .enSerdes], p ∈ t.outPins) ∧ Only ([.pwr, .outPins] ++ eventParts) s t) ∧
    (s.pwrState = 0 ∨ s.pwrState = 4 → Runs (.wake r) s turned)) ∧
  (∀ (s : State), s.pwrState = 1 →
    (s.refusers s.pwr.goal ≠ 0 → Runs .stateEntryComplete s fun t => t.tookPwr 4 ∧
      t.pwrAnswer 12 ((s.fget pgPwr F.pwr.PWR_STATE_REFUSERS ||| s.refusers s.pwr.goal) % 2 ^ 8) ∧
      t.pwr.stage = (if s.pwr.goal = 3 then 1 else s.pwr.stage) ∧ Only (.pwr :: eventParts) s t) ∧
    (s.refusers s.pwr.goal = 0 → s.pwr.goal = 2 → Runs .stateEntryComplete s fun t => t.tookPwr 2 ∧
      Counted s t pgPwr F.pwr.ENTRIES_NAP_COUNT 1 ∧ (∀ k < 256, t.isolated (tilPage k) = true) ∧
      (∀ g < 64, t.isolated ⟨.seq, g⟩ = true ∧ t.fon pgDom (F.dom.DOM_OFF g) = true) ∧ Only (.pwr :: eventParts) s t) ∧
    (s.refusers s.pwr.goal = 0 → s.pwr.goal = 3 → s.xpt.ctx = [] → s.xpt.writing = [] → Runs .stateEntryComplete s fun t => t.tookPwr 3 ∧
      Counted s t pgPwr F.pwr.ENTRIES_STANDBY_COUNT 1 ∧ t.shelf = [] ∧ t.tiles = [] ∧ t.col = [] ∧ t.agate.streams = [] ∧ t.agate.beats = [] ∧
      t.tiers = { s.tiers with queue := [] } ∧ t.time = s.time ∧ t.tbase = s.tbase ∧ t.onyx = s.onyx ∧
      (∀ g < 64, t.fget ⟨.seq, g⟩ F.seq.SEQ_PHYS_PHYS_ID = s.fget ⟨.seq, g⟩ F.seq.SEQ_PHYS_PHYS_ID % 2 ^ 7) ∧
      (∀ k < 256, t.isolated (tilPage k) = true) ∧ (∀ c < 8, t.fon (pgCel c) F.cel.CEL_STAT_SELF_REFRESH = true) ∧
      (∀ p ∈ [Pin.enAttic, .enCore0, .enCore1, .enSerdes], p ∉ t.outPins))) ∧
  (∀ (s : State),
    (s.pwrState = 2 → Runs .napAutoWake s fun t => t.tookPwr 4 ∧ Counted s t pgPwr F.pwr.WAKES_AUTO_COUNT 1 ∧ Only (.pwr :: eventParts) s t) ∧
    (s.pwrState = 3 → Runs .wakeN s fun t => t.tookPwr 4 ∧ t.pwr.stage = 1 ∧ Only ([.pwr, .outPins] ++ eventParts) s t) ∧
    (s.pwrState = 1 → s.pwr.goal = 3 → Runs .wakeN s fun t => t.tookPwr 4 ∧ t.pwr.stage = 1 ∧ t.fget pgPwr F.pwr.PWR_STATE_RESULT = 12 ∧
      Only (.pwr :: eventParts) s t) ∧
    (s.pwrState ≠ 3 → ¬ (s.pwrState = 1 ∧ s.pwr.goal = 3) → Runs .wakeN s fun t => t = s) ∧
    (s.pwrState = 4 → s.pwr.goal ≠ 3 → s.pwr.held = [] → Runs .napWakeDone s fun t => t.tookPwr 0 ∧ (∀ k < 256, t.isolated (tilPage k) = false) ∧
      (∀ g < 64, t.isolated ⟨.seq, g⟩ = false ∧ t.fon pgDom (F.dom.DOM_OFF g) = false) ∧ t.levelChosen ∧ s.levelsFollow t ∧
      Only levelParts s t)) ∧
  (∀ (s : State), s.pwrState = 0 → s.fget pgPwr F.pwr.LEVEL_CLIM ≤ 12 →
    let u := s.takeSlack
    let cs := bitList 32 (s.fget pgPwr F.pwr.SHIFT_CFG_COMM_MASK)
    let clim := s.fget pgPwr F.pwr.LEVEL_CLIM
    (s.fon pgPwr F.pwr.PWR_CTRL_SHIFT_EN = true → Runs .shiftPeriodEnd s fun t => t.slack = [] ∧ t.pwr.period = [] ∧
      (cs = [] → t.fget pgPwr F.pwr.LEVEL_CLIM = clim) ∧
      (cs ≠ [] → (∀ c ∈ cs, s.fget pgPwr F.pwr.SLACK_HIGH_NS ≤ u.slackNs c) → t.fget pgPwr F.pwr.LEVEL_CLIM
        = if s.fget pgPwr F.pwr.PWR_CTRL_SHIFT_FLOOR < clim then clim - 1 else clim) ∧
      ((∃ c ∈ cs, u.slackNs c < s.fget pgPwr F.pwr.SLACK_HIGH_NS) → (∃ c ∈ cs, u.slackNs c < s.fget pgPwr F.pwr.SLACK_LOW_NS) →
        t.fget pgPwr F.pwr.LEVEL_CLIM = min 12 (clim + 1)) ∧
      ((∃ c ∈ cs, u.slackNs c < s.fget pgPwr F.pwr.SLACK_HIGH_NS) → (∀ c ∈ cs, s.fget pgPwr F.pwr.SLACK_LOW_NS ≤ u.slackNs c) →
        t.fget pgPwr F.pwr.LEVEL_CLIM = clim) ∧
      ((∃ c ∈ cs, u.named c = true) → t.fon pgPwr F.pwr.LEVEL_BOOST = true) ∧
      ((∀ c ∈ cs, u.named c = false) → t.fon pgPwr F.pwr.LEVEL_BOOST = (s.fon pgPwr F.pwr.LEVEL_BOOST && decide (s.pwr.quiet = 0))) ∧
      t.levelChosen ∧ s.levelsFollow t ∧ Only ([.slack, .net, .freeCtr] ++ levelParts) s t) ∧
    (s.fon pgPwr F.pwr.PWR_CTRL_SHIFT_EN = false → Runs .shiftPeriodEnd s fun t => t.slack = [] ∧ t.pwr.period = [] ∧ Only [.slack, .pwr] s t)) ∧
  (∀ (sender : BitVec 48) (c : Fin 32) (last : Option (Fin 64)) (k : Nat) (s : State),
    (s.members (c.val / 16) (c.val % 16)).findIdx? (fun p => s.fget (pgComm (c.val / 16)) (F.comm.PR_MAC_MAC_BASE p) == sender.toNat) = some k →
    (last.map (·.val) = some (s.commRank (c.val / 16) (c.val % 16)) → k ∉ (s.period c).namers → Runs (.powerHint sender c last) s fun t =>
      Counted s t pgPwr F.pwr.HINTS_RX_COUNT 1 ∧ (t.period c).namers = (s.period c).namers ++ [k] ∧ Only [.regs, .pwr] s t ∧
      RegsOnly [F.pwr.HINTS_RX_COUNT.key pgPwr] s t) ∧
    (last.map (·.val) ≠ some (s.commRank (c.val / 16) (c.val % 16)) → Runs (.powerHint sender c last) s fun t =>
      Counted s t pgPwr F.pwr.HINTS_RX_COUNT 1 ∧ Only [.regs] s t ∧ RegsOnly [F.pwr.HINTS_RX_COUNT.key pgPwr] s t))
def Obligations.BootStages : Prop :=
  (∀ s : State, s.attic.selWrite = none → Store.wf none s.net.siteNext = true →
    Runs .coldReset s s.wasReset ∧ Runs .powerLoss s s.wasReset) ∧
  (∀ s : State, s.boot.held = true → Runs .resetRelease s fun t => t.boot = { s.boot with held := false } ∧ t.uptime = 0 ∧
    Pin.enAttic ∈ t.outPins ∧ Only [.boot, .uptime, .outPins, .out] s t) ∧
  (∀ (b : BootReport) (s : State),
    (s.stageNow = 1 → Runs (.bootStageComplete b) s fun t => s.stageEnded t 1 ∧ Only (.log :: eventParts) s t) ∧
    (s.stageNow = 2 → b.fail = 0 → Runs (.bootStageComplete b) s fun t => s.stageEnded t 2 ∧ t.boot = { s.boot with recordBad := b.record } ∧
      (∀ d < 2, t.fget (pgCcr d) F.ccr.CORE_STAT_RUNNING = 3) ∧ t.pwr = { s.pwr with stage := 1 } ∧
      (∀ i < 17, t.fget pgThr (F.thr.COEF_VALUE i) = t.record (200 + i) % 2 ^ 32) ∧
      (∀ p ∈ [Pin.enCore0, .enCore1, .enSerdes, .enHbmC, .enHbmQ], p ∈ t.outPins) ∧
      t.fon pgMbx F.mbx.BOOT_STAT_POLICY_MET = t.policyMet ∧ Only (.onyx :: .pwr :: .freeCtr :: bootParts) s t) ∧
    (s.stageNow = 2 → b.fail ≠ 0 → Runs (.bootStageComplete b) s fun t => t.fget pgMbx F.mbx.BOOT_STAT_FAIL = b.fail ∧ s.bootFailed t 2 15 ∧
      Only bootParts s t) ∧
    (s.stageNow = 3 → s.pwr.stage = 0 → s.fget pgWake F.wake.WAKE_STAT_STAGE = 4 → Runs (.bootStageComplete b) s fun t =>
      s.stageEnded t 3 ∧ t.shelf = [] ∧ (∀ g < 64, t.level g = 9) ∧ t.fget pgSeam F.seam.SEAM_STAT_CH_UP = 0xFF ∧
      Only (.shelf :: .log :: eventParts) s t) ∧
    (s.stageNow = 4 → s.allMeasured = true → s.groupsEnough → Runs (.bootStageComplete b) s fun t => s.stageEnded t 4 ∧ s.groupsMapped t ∧
      Only (.log :: eventParts) s t) ∧
    (s.stageNow = 4 → s.allMeasured = true → ¬ s.groupsEnough → Runs (.bootStageComplete b) s fun t => s.bootFailed t 4 3 ∧ Only bootParts s t) ∧
    (s.stageNow = 5 → Runs (.bootStageComplete b) s fun t => (∀ c < 8, t.fon (pgCel c) F.cel.CEL_STAT_TRAINED = bitAt b.trained.toNat c) ∧
      (b.trained = 0xFF#8 → s.stageEnded t 5 ∧ t.boot = { s.boot with links := true }) ∧
      (b.trained ≠ 0xFF#8 → s.bootFailed t 5 6) ∧ Only bootParts s t) ∧
    (s.stageNow = 6 → Runs (.bootStageComplete b) s fun t => t.boot = { s.boot with failedAt := none } ∧
      t.fget pgElog (F.elog.BOOT_US_US 5) = s.uptime / 1000 % 2 ^ 32 ∧
      (s.fon pgElog F.elog.BOOT_PROGRESS_FAILED = true ∨ s.mayBeReady = false → s.stageEnded t 6 ∧
        t.fon pgHst F.hst.HOST_STAT_READY = s.fon pgHst F.hst.HOST_STAT_READY) ∧
      (s.fon pgElog F.elog.BOOT_PROGRESS_FAILED = false → s.mayBeReady = true → s.stageEnded t 7 ∧
        t.fon pgHst F.hst.HOST_STAT_READY = true ∧ t.log.open_ = true) ∧ Only bootParts s t) ∧
    (s.stageNow = 7 → (s.mayBeReady = true → Runs (.bootStageComplete b) s fun t => s.stageEnded t 7 ∧
      t.fon pgHst F.hst.HOST_STAT_READY = true ∧ t.log.open_ = true ∧ Only (.log :: eventParts) s t) ∧
      (s.mayBeReady = false → Runs (.bootStageComplete b) s (· = s)))) ∧
  (∀ s : State, s.stageNow ∈ [1, 2, 4, 5] → Runs .bootStageTimeout s fun t => s.bootFailed t s.stageNow 13 ∧ Only bootParts s t) ∧
  (∀ s : State, s.standbyWakes = true ∨ s.stageNow = 3 → 0 < s.pwr.stage → s.pwr.stage ≤ 4 → s.pwr.from_ = 3 ∨ s.pwr.held = [] →
    Runs .wakeStageReady s fun t =>
    t.fget pgWake (F.wake.WAKE_T_TIME (s.pwr.stage - 1)) = s.time.toNat ∧ t.fget pgWake F.wake.WAKE_STAT_STAGE = s.pwr.stage ∧
    (s.pwr.stage < 4 → t.pwr = { s.pwr with stage := s.pwr.stage + 1 } ∧ Only [.regs, .pwr] s t) ∧
    (s.pwr.stage = 4 → s.standbyWakes = false → t.pwr = { s.pwr with stage := 0 } ∧ Only [.regs, .pwr] s t) ∧
    (s.pwr.stage = 4 → s.standbyWakes = true → t.tookPwr 0 ∧ t.pwr.stage = 0 ∧ t.pwr.goal = 0 ∧
      (s.pwr.from_ = 3 → t.fget pgServo F.servo.SERVO_STAT_STATE = 2) ∧ t.levelChosen ∧ t.levelsLed ∧ t.isolated pgXpt = false ∧ Only (.tbase :: levelParts) s t)) ∧
  (∀ (dom : Fin 100) (s : State), s.standbyWakes = true ∨ s.stageNow = 3 → s.pwr.stage ≠ 0 → Runs (.wakeStageTimeout dom) s fun t =>
    t.fon pgWake F.wake.WAKE_STAT_FAILED = true ∧ t.fget pgWake F.wake.WAKE_STAT_FAIL_DOMAIN = dom ∧ t.pwr.stage = 0 ∧
    (∀ p ∈ [Pin.enSerdes, .enCore0, .enCore1], p ∉ t.outPins) ∧ t.fget pgPwr F.pwr.PWR_STATE_RESULT = 13 ∧
    (s.standbyWakes = true → t.tookPwr 3 ∧ Pin.enAttic ∉ t.outPins) ∧
    (s.standbyWakes = false → s.bootFailed t 3 13 ∧ Pin.enHbmC ∉ t.outPins ∧ Pin.enHbmQ ∉ t.outPins) ∧
    (s.standbyWakes = false ∨ s.pwr.from_ = 3 → Only (.pwr :: bootParts) s t) ∧
    (s.standbyWakes = true → s.pwr.from_ ≠ 3 → t.shelf = [] ∧ t.tiles = [] ∧ (∀ k < 256, t.isolated (tilPage k) = true))) ∧
  (∀ (p : Fin 68) (s : State), s.stageNow = 4 → Store.get 0 s.boot.measured p = 0 →
    let g : CharGroup := Store.get {} s.boot.trials p
    let ends (t : State) (g' : CharGroup) (mhz : Option Nat) : Prop :=
      t.boot = { s.boot with trials := Store.set {} s.boot.trials p g', measured := (mhz.map fun m => Store.set 0 s.boot.measured p (m + 1)).getD s.boot.measured } ∧
      (∀ m, mhz = some m → t.measuredOf p = m) ∧ Only (.log :: .boot :: eventParts) s t
    g.failed < 7 →
    (Runs (.charTrialEnd p true) s fun t => ends t { g with passed := g.passed + 1 } (if g.passed = 2 then some (1750 - 50 * g.failed) else none)) ∧
    (Runs (.charTrialEnd p false) s fun t => ends t ⟨g.failed + 1, 0⟩ (if g.failed = 6 then some 0 else none)))

def Obligations.FaultsAndSite : Prop :=
  (∀ (d : Fin 2) (col row : Fin 6) (seam : Bool) (s : State),
    let p := if seam then pgSeam else pgNet d
    let corrF := if seam then F.seam.SEAM_HDR_CORR_COUNT else F.net.NET_HDR_CORR_COUNT
    let failF := if seam then F.seam.SEAM_HDR_FAIL_COUNT else F.net.NET_HDR_FAIL_COUNT
    let n := (s.recentFaults 0).length + (s.recentFaults 1).length
    Runs (.netPacket d col row seam .clean) s (· = s) ∧
    (Runs (.netPacket d col row seam .corrected) s fun t => Counted s t p corrF 1 ∧ bitAt (t.fget p F.com.EVT_STAT) 8 = true ∧
      Only eventParts s t) ∧
    Runs (.netPacket d col row seam .failed) s fun t => Counted s t p failF 1 ∧ bitAt (t.fget p F.com.EVT_STAT) 9 = true ∧
      t.fon (pgCcr d) F.ccr.FAULT_STAT_DIE_FAULT = true ∧ Counted s t (pgCcr d) F.ccr.DIE_FAULTS_COUNT 1 ∧
      bitAt (t.fget (pgCcr d) F.com.EVT_STAT) 8 = true ∧ t.boot = { s.boot with faults := Store.set [] s.boot.faults d (s.uptime :: s.recentFaults d) } ∧
      t.running = false ∧ (∀ k < 128, t.tile (128 * d + k) = {} ∧ t.resetting (tilPage (128 * d + k)) = true) ∧ t.resetting (pgCol d) = true ∧
      (∀ m ∈ t.tiers.moves, m.die ≠ d) ∧ (n < 3 → t.fatalNow = s.fatalNow ∧ t.attic = s.attic ∧ t.net.saks = s.net.saks) ∧
      (3 ≤ n → s.fataled t 6) ∧ ∀ q ∈ [Part.pending, .time, .tbase, .uptime], q.same s t) ∧
  (∀ (d : Fin 2) (s : State), s.fon (pgCcr d) F.ccr.FAULT_STAT_DIE_FAULT = true → Runs (.dieFaultClear d) s fun t =>
    t.fon (pgCcr d) F.ccr.FAULT_STAT_DIE_FAULT = false ∧ (∀ k < 128, t.resetting (tilPage (128 * d + k)) = false) ∧
    t.resetting (pgCol d) = false ∧ (s.resetting (pgCol d) = true → bitAt (t.fget (pgCol d) F.com.EVT_STAT) 3 = true) ∧ Only eventParts s t) ∧
  (∀ s : State, s.boot.held = false →
    (s.pwrState ≠ 1 → s.pwrState ≠ 4 → 3 ≤ s.fget pgElog F.elog.BOOT_PROGRESS_STAGE → Runs .pgFall s fun t => s.fataled t 4 ∧ t.boot = s.boot) ∧
    (∀ c : Fin 8, 3 ≤ s.fget pgElog F.elog.BOOT_PROGRESS_STAGE → bitAt (s.fget pgSeam F.seam.SEAM_STAT_CH_UP) c = true →
      Runs (.seamChannelDown c) s fun t => s.fataled t 5 ∧ bitAt (t.fget pgSeam F.seam.SEAM_STAT_CH_UP) c = false ∧ t.boot = s.boot) ∧
    (Runs .refclkStop s fun t => s.fataled t 4 ∧ t.boot = s.boot) ∧
    (Runs .overTemp s fun t => s.fataled t 7 ∧ Pin.thermShdnN ∈ t.outPins ∧ t.boot = s.boot) ∧
    (2 ≤ s.fget pgElog F.elog.BOOT_PROGRESS_STAGE → Runs .pwrWatchdogExpiry s fun t => s.fataled t 2 ∧ t.boot = s.boot) ∧
    (s.stageNow ≠ 1 → s.stageNow ≠ 2 → Runs .onyxWatchdogExpiry s fun t => s.fataled t 3 ∧ t.boot = s.boot) ∧
    (s.stageNow = 2 → Runs .onyxWatchdogExpiry s fun t => s.bootFailed t 2 13 ∧ Only bootParts s t)) ∧
  (∀ (r : Requester) (d : Fin 2) (cores : BitVec 2) (s : State), s.reaches r (pgCcr d) 0x048 = true → Runs (.wdKick r d cores) s fun t =>
    (∀ k < 2, bitAt (t.fget (pgCcr d) F.ccr.CORE_STAT_WD_WARNED) k =
      (bitAt (s.fget (pgCcr d) F.ccr.CORE_STAT_WD_WARNED) k && !bitAt cores.toNat k)) ∧
    Only [.regs, .hub] s t ∧ RegsOnly [F.ccr.CORE_STAT_WD_WARNED.key (pgCcr d)] s t) ∧
  (∀ (c : Fin 4) (s : State),
    let p := pgCcr (c / 2)
    let w := s.fget p F.ccr.CORE_STAT_WD_WARNED
    bitAt (s.fget p F.ccr.CORE_STAT_RUNNING) (c % 2) = true →
    (bitAt w (c % 2) = false → Runs (.coreWatchdogExpiry c) s fun t => bitAt (t.fget p F.ccr.CORE_STAT_WD_WARNED) (c % 2) = true ∧
      bitAt (t.fget p F.ccr.CORE_STAT_WD_WARNED) (1 - c % 2) = bitAt w (1 - c % 2) ∧ Counted s t p F.ccr.WD_EXPIRIES_COUNT 1 ∧
      bitAt (t.fget p F.com.EVT_STAT) 10 = true ∧ Only (.log :: eventParts) s t) ∧
    (bitAt w (c % 2) = true → Runs (.coreWatchdogExpiry c) s fun t => Counted s t p F.ccr.WD_EXPIRIES_COUNT 1 ∧ s.fataled t 1 ∧ t.boot = s.boot)) ∧
  (∀ s : State, s.log.pwrFail = false → Runs .powerFailWarning s fun t => t.pwr.zero = true ∧ (∀ g < 64, t.level g = 0) ∧ t.log.pwrFail = true ∧
    (s.log.last = [] → s.log.prog = none → ∃ seq img, t.log.prog = some (seq, img) ∧ fieldAt img 0x10 0 16 = 0xA ∧ fieldAt img 8 0 32 = seq) ∧
    (s.log.last = [] → s.log.prog ≠ none → ∃ e, t.log.wait = s.log.wait ++ [e] ∧ e.code = 0xA) ∧ Only (.log :: levelParts) s t) ∧
  (∀ s : State, s.log.pwrFail = true → Runs .powerFailRelease s fun t => t.log.pwrFail = false ∧ t.pwr.zero = s.fatalNow ∧
    (s.pwrState = 0 → t.levelChosen ∧ s.levelsFollow t) ∧ (s.log.prog = none → ∀ e rest, s.log.wait = e :: rest →
      t.log.wait = rest ∧ ∃ seq img, t.log.prog = some (seq, img) ∧ fieldAt img 0x10 0 16 = e.code % 2 ^ 16) ∧ Only (.log :: levelParts) s t) ∧
  (∀ (r : Requester) (p : Fin 68) (keep : Bool) (s : State), s.reaches r (pgCcr 0) 0x058 = true →
    s.fon (pgCcr 0) F.ccr.SITE_RESULT_BUSY = true → ∀ c ∈ [Instr.siteRetire r p keep, .siteRestore r p, .siteParams r],
      Runs c s fun t => Counted s t (pgCcr 0) (F.com.EVT_CNT 7) 1 ∧ Only [.regs, .hub] s t ∧ RegsOnly [(F.com.EVT_CNT 7).key (pgCcr 0)] s t) ∧
  (∀ (r : Requester) (p : Fin 68) (s : State), s.siteReady r →
    let retiring := if p.val ∈ s.agate.retiring then s.agate.retiring else s.agate.retiring ++ [p.val]
    (s.freeSpares (p / 34) = 0 → ∀ keep, Runs (.siteRetire r p keep) s fun t => t.siteReports 3 ∧ Only eventParts s t) ∧
    (s.freeSpares (p / 34) ≠ 0 →
      (Runs (.siteRetire r p true) s fun t => s.siteBegun t ⟨1, p, true, 0, []⟩ ∧ t.agate = { s.agate with retiring := retiring } ∧
        Only [.regs, .hub, .agate, .boot] s t) ∧
      Runs (.siteRetire r p false) s fun t => t.siteReports 0 ∧ t.agate = { s.agate with retiring := retiring } ∧
        Only (.agate :: eventParts) s t) ∧
    (let retired := s.retired p = true ∨ bitAt (s.recordNext 1) p = true ∨ p.val ∈ s.agate.retiring
     (¬ retired → Runs (.siteRestore r p) s fun t => t.siteReports 3 ∧ Only eventParts s t) ∧
     (retired → Runs (.siteRestore r p) s fun t => s.siteBegun t ⟨2, p, false, 0, []⟩ ∧ Only [.regs, .hub, .boot] s t)) ∧
    (∀ u bs, (s.releaseHolds r).devRead .firmware (s.fget (pgCcr 0) F.ccr.SITE_SRC_ADDR) 64 = (u, .ok bs) → Runs (.siteParams r) s fun t =>
      (paramsReserved (leNat bs) = true → t.siteReports 14 ∧ Only eventParts u t) ∧
      (paramsReserved (leNat bs) = false → u.siteBegun t ⟨3, 0, false, 0, bs⟩ ∧ Only [.regs, .boot] u t))) ∧
  (∀ (c : SiteCmd) (s : State), s.boot.site = some c → c.status < 256 → 1 ≤ c.op → c.op ≤ 3 → Runs .siteDone s fun t =>
    let v := leNat c.block
    t.boot = { s.boot with site := none } ∧ t.siteReports c.status ∧ t.recordNext 0 = (s.recordNext 0 + 1) % 2 ^ 32 ∧
    (c.op < 3 → (∀ j, bitAt (t.recordNext 1) j = if j = c.phys then decide (c.op = 1) else bitAt (s.recordNext 1) j) ∧
      ∀ k, 2 ≤ k → t.recordNext k = s.recordNext k) ∧
    (c.op = 3 → t.recordNext 2 = fieldAt v 0x14 0 8 ∧ t.recordNext 3 = fieldAt v 0x14 8 1 ∧ t.recordNext 4 = fieldAt v 0x14 9 1 ∧
      t.recordNext 5 = fieldAt v 0x14 12 3 ∧ t.recordNext 6 = fieldAt v 0x14 15 1 ∧
      t.recordNext 7 = fieldAt v 0x18 0 32 + 2 ^ 32 * fieldAt v 0x1C 0 16 ∧ t.recordNext 8 = bitsOf v 256 128 ∧
      t.recordNext 9 = bitsOf v 384 128 ∧ ∀ k, k = 1 ∨ 9 < k → t.recordNext k = s.recordNext k) ∧
    (∀ k, t.record k = s.record k) ∧ Only (.boot :: .net :: eventParts) s t)

def Obligations.FramesAndShards : Prop :=
  (∀ (n : Fin 8) (a : Arrival) (s : State), s.enabled (pgEth n) = true → s.linkUp n = true →
    let row : Instr := .frameReceive (n.castLT (by omega)) a
    let wire := frameLen a.wire
    let top := s.maxFrame n
    let counted (p : Page) (f : Fld) : Prop := Runs row s fun t => Counted s t p f 1 ∧ Only [.regs] s t ∧ RegsOnly [f.key p] s t
    let mine := s.forPort n a.wire.dst = true ∧ s.foreignOnTwin n a.wire.src = false
    (top < wire → Runs row s fun t => ∃ v, Counted s v (pgEth n) F.eth.RX_TRUNC_COUNT 1 ∧ bitAt (v.fget (pgEth n) F.com.EVT_STAT) 10 = true ∧
      Only eventParts s v ∧ v.ringed t n a.wire true a.fcsOk false 2 wire top) ∧
    (wire ≤ top → a.fcsOk = false → counted (pgEth n) F.eth.RX_FCS_ERR_COUNT) ∧
    (wire ≤ top → a.fcsOk = true → wire < 64 → counted (pgEth n) F.eth.RX_RUNT_COUNT) ∧
    (wire ≤ top → a.fcsOk = true → 64 ≤ wire → ¬ mine → counted (pgEth n) F.eth.RX_FILTERED_COUNT) ∧
    (wire ≤ top → a.fcsOk = true → 64 ≤ wire → mine → a.wire.ety = 0x8808 → counted (pgEth n) F.eth.RX_PAUSE_COUNT) ∧
    (wire ≤ top → a.fcsOk = true → 64 ≤ wire → mine → a.wire.ety ≠ 0x8808 →
      (s.msOn n = true → a.prot = none → a.wire.ety ≠ 0x888E → s.ptpClear n a.wire = false → counted (pgMs n) F.ms.MS_IN_UNTAGGED_COUNT) ∧
      (∀ p, s.msOn n = true → a.prot = some p →
        let known := p.sci = s.fget (pgMs n) F.ms.MS_RX_SCI_SCI ∧ s.fon (pgMs n) (F.ms.MS_SA_RX_VALID p.an) = true
        let fresh := Store.get 0 s.net.rxPn (4 * n + p.an) < p.pn + s.fget (pgMs n) F.ms.MS_REPLAY_WINDOW
        (¬ known → counted (pgMs n) F.ms.MS_IN_NO_SA_COUNT) ∧ (known → ¬ fresh → counted (pgMs n) F.ms.MS_IN_LATE_COUNT) ∧
        (known → fresh → p.icvOk = false → Runs row s fun t => Counted s t (pgMs n) F.ms.MS_IN_NOT_VALID_COUNT 1 ∧
          bitAt (t.fget (pgMs n) F.com.EVT_STAT) 8 = true ∧ Only eventParts s t) ∧
        (known → fresh → p.icvOk = true → Counted s (s.msAccept n p) (pgMs n) F.ms.MS_IN_OK_COUNT 1 ∧
          (∀ x, Store.get 0 (s.msAccept n p).net.rxPn x =
            if x = 4 * n + p.an then max p.pn (Store.get 0 s.net.rxPn x) else Store.get 0 s.net.rxPn x) ∧
          Only [.regs, .net] s (s.msAccept n p))) ∧
      (∀ v g sec, s.accepted v n a g sec →
        let u := v.countRx n wire
        let as_ (c : Instr) : Prop := exec row s = exec c u
        let col := g.ety = v.fget ⟨.col, n / 4⟩ F.col.COL_CFG_ETHERTYPE
        let ctl := g.ety = v.fget (pgEth n) F.eth.CTL_ETHERTYPE_TYPE
        (Counted v u (pgEth n) F.eth.RX_FRAMES_COUNT 1 ∧ Counted v u (pgEth n) F.eth.RX_BYTES_COUNT wire ∧ Only [.regs] v u) ∧
        (col → (colTyped 1 g = true → as_ (.colDataFrame n g)) ∧ (colTyped 2 g = true → as_ (.colAck n g)) ∧
          (colTyped 3 g = true → as_ (.colNack n g))) ∧
        (¬ col → ctl → (ctlParse g = none → Runs row s fun t => Counted v t (pgEth n) F.eth.CTL_BAD_COUNT 1 ∧ Only [.regs] v t) ∧
          ∀ h p, ctlParse g = some (h, p) → (∀ c, ctlRow n h p c (fieldAt h 0 8 8) → as_ c) ∧
            (fieldAt h 0 8 8 = 0 → Runs row s fun t => u.ringed t n g false true sec 3 wire top)) ∧
        (¬ col → ¬ ctl → ∀ x, v.camernFrame g = some x → ∀ c, packetRow n g c (PH.type (leNat (x.payload.take 48))) → as_ c) ∧
        (¬ col → ¬ ctl → v.camernFrame g = none → Runs row s fun t => u.ringed t n g false true sec
          (if g.ety = 0x888E then 4 else if isPtp g = true then 5 else 1) wire top)))) ∧
  (∀ (a : Arrival) (s : State), s.enabled pgMgt = true →
    let wire := frameLen a.wire
    (a.fcsOk = false → Runs (.frameReceive 8 a) s fun t => Counted s t pgMgt F.mgt.RX_FCS_ERR_COUNT 1 ∧ Only [.regs] s t) ∧
    (a.fcsOk = true → wire < 64 → Runs (.frameReceive 8 a) s (· = s)) ∧
    (a.fcsOk = true → 64 ≤ wire → Runs (.frameReceive 8 a) s fun t => ∃ v, Counted s v pgMgt F.mgt.RX_FRAMES_COUNT 1 ∧ Only [.regs] s v ∧
      v.ringed t 8 a.wire (decide (1522 < wire)) true false (if 1522 < wire then 2 else if a.wire.ety = 0x888E then 4
        else if isPtp a.wire = true then 5 else 1) wire 1522)) ∧
  (∀ (n : Fin 9) (a : Arrival) (s : State), s.enabled (ringPage n) = false ∨ n.val < 8 ∧ s.linkUp n = false →
    Runs (.frameReceive n a) s (· = s)) ∧
  (∀ (d : Fin 2) (k : Fin 16) (shard : BitVec 52) (step : BitVec 32) (td : Fin 2) (y : Fin 4096) (s : State), ∃ w,
    wordIs w step.toNat 1 (s.fget (pgComm d) (F.comm.CM_EPOCH_CUR_EPOCH k)) ∧
    ∀ v, s.devWrite .firmware (shard.toNat + 0x48) (leBytes 8 w) = (v, .ok ()) →
      Runs (.gradientStamp d k shard step td y) s fun t => v.oneisorTally t td y) ∧
  (∀ (d : Fin 2) (k : Fin 16) (shard : BitVec 52) (step : BitVec 32) (waits : List ((Fin 2 × Fin 4096) × BitVec 32)) (td : Fin 2) (y : Fin 4096)
      (s u : State), (∀ x ∈ waits, x.2.toNat ≤ s.tally x.1.1 x.1.2) →
    (∀ bs ew, s.devRead .firmware (shard.toNat + 0x40) 8 = (u, .ok bs) → checked 8 (leNat bs) = some ew → ∃ w,
      wordIs w step.toNat (1 - fieldAt ew 4 7 1) (u.fget (pgComm d) (F.comm.CM_EPOCH_CUR_EPOCH k)) ∧
      ∀ v, u.devWrite .firmware (shard.toNat + 0x40) (leBytes 8 w) = (v, .ok ()) →
        Runs (.epochFlip d k shard step waits td y) s fun t => v.oneisorTally t td y) ∧
    (∀ r, s.devRead .firmware (shard.toNat + 0x40) 8 = (u, r) → (∀ bs, r = .ok bs → checked 8 (leNat bs) = none) →
      Runs (.epochFlip d k shard step waits td y) s fun t => Only (.log :: .freeCtr :: eventParts) u t)) ∧
  (∀ (d : Fin 2) (k : Fin 16) (shard : BitVec 52) (last : BitVec 32) (s u v : State) (r1 r2 : Except Nat (List Byte)),
    s.devRead .firmware (shard.toNat + 0x40) 8 = (u, r1) → u.devRead .firmware (shard.toNat + 0x48) 8 = (v, r2) →
    let layout := v.fget (pgComm d) (F.comm.CM_EPOCH_CUR_EPOCH k)
    let n := last.toNat
    let is (c : ShardClass) : Prop := Runs (.classify d k shard last) s fun t => t.out = v.out ++ [Out.shard shard.toNat c] ∧ Only [.out] v t
    (∀ b1 b2 e g, r1 = .ok b1 → r2 = .ok b2 → checked 8 (leNat b1) = some e → checked 8 (leNat b2) = some g →
      let held := fieldAt e 4 8 16 = layout
      let ready := fieldAt g 4 7 1 = 1 ∧ fieldAt g 0 0 32 = n ∧ fieldAt g 4 8 16 = fieldAt e 4 8 16
      (¬ held → is .fenced) ∧ (held → fieldAt e 0 0 32 = n → is .regather) ∧
      (held → fieldAt e 0 0 32 + 1 = n → (ready → is .commitPending) ∧ (¬ ready → is .rerunStep)) ∧
      (held → fieldAt e 0 0 32 ≠ n → fieldAt e 0 0 32 + 1 ≠ n → is .lost)) ∧
    ((∀ b, r1 = .ok b → checked 8 (leNat b) = none) ∨ (∀ b, r2 = .ok b → checked 8 (leNat b) = none) →
      Runs (.classify d k shard last) s fun t => Out.shard shard.toNat .lost ∈ t.out ∧ Only (.log :: .freeCtr :: eventParts) v t))

def Obligations.RunRegisters : Prop :=
  ∀ (k : Fin 256) (d : Nat) (rest : List VecOp) (s : State), (s.tile k).vrun = none → (s.tile k).vqueue = ⟨d, false⟩ :: rest →
    s.fon (tilPage k) F.com.ENABLE = true → descOpcode d = 2 → s.vecCheck k d = none → Runs (.run k) s fun t =>
      let u := t.tile k
      (∀ r < 32, ∀ l < 128, u.lane r l = 0) ∧ (∀ r < 16, u.scalar r = 0) ∧ (∀ r, 1 ≤ r → r < 8 → ∀ l < 128, u.predLane r l = false) ∧
      (∀ r < 8, Store.get 0 u.ad r = BitVec.ofNat 32 (VD.a d r)) ∧ (∀ r < 8, Store.get 0 u.inc r = 0) ∧
      u.x = BitVec.ofNat 40 (VD.origin d) ∧ u.xpitch = 0 ∧ u.xinc = 0

def Obligations.StepTakesFront : Prop :=
  (∀ (c : Instr) (rest : List Instr) (s : State), s.pending = c :: rest → step s = exec c { s with pending := rest }) ∧
  (∀ s : State, s.pending = [] → ∃ t, step s = .next t ∧ t.uptime = s.uptime + 1 ∧ (s.tbase.set = false → t.time = s.time ∧ t.tbase = s.tbase) ∧
    (s.tbase.set = true → t.time.toNat = (s.time.toNat + (s.tbase.frac + (256000000000 + s.freqAdj).toNat) / 256000000000) % 2 ^ 64 ∧
      t.tbase = { s.tbase with frac := (s.tbase.frac + (256000000000 + s.freqAdj).toNat) % 256000000000 }) ∧
    Only [.uptime, .time, .tbase] s t)

def Obligations.ResetState : Prop :=
  let s := State.reset
  s.memWf = true ∧ s.pending = [] ∧ s.time = 0 ∧ s.tbase.set = false ∧ s.running = false ∧ s.pwrState = 0 ∧ s.outPins = [] ∧ s.boot.held = true ∧
  s.stageNow = 0 ∧ s.fatalNow = false ∧ (∀ n < 8, s.linkUp n = false) ∧ (∀ k < 256, s.tile k = {})

def Obligations.MemoryInvariant : Prop :=
  ∀ s t : State, s.memWf = true → step s = .next t → t.memWf = true

def Obligations.CheckCode : Prop :=
  ∀ n ∈ [8, 16, 32, 64], withCheck n 0 = 0 ∧ ∀ v < 2 ^ (8 * n),
    let c := withCheck n v
    dataOf n c = dataOf n v ∧ checkStruct n c = .clean c ∧ (∀ i < 8 * n, checkStruct n (c ^^^ 2 ^ i) = .corrected c) ∧
    ∀ i < 8 * n, ∀ j < 8 * n, i ≠ j → checkStruct n (c ^^^ 2 ^ i ^^^ 2 ^ j) = .failed
end

