-- ==== Sys2Proof/Laws/Memory.lean ====
section
/-! SUPPORT. Every memory operation keeps the canonical form of the memories: one lemma for each operation that writes a memory, and one
for everything that touches none. -/

namespace Sys2Proof.Machine

/-- The memories of the reset state are canonical. -/
theorem State.reset_memWf : State.reset.memWf = true := by decide

/-- The canonical form, memory by memory. -/
theorem State.memWf_iff (s : State) : s.memWf = true ↔
    Store.wf 0 s.shelf = true ∧ Store.wf none s.hostMem = true ∧ Store.wf none s.tiers.cellar = true ∧ Store.wf none s.tiers.tags = true ∧
    Store.wf none s.attic.cells = true ∧ Store.wf none s.tiers.sealedBlk = true ∧ runsApart none s.tiers.scrubs = true := by
  simp [State.memWf, and_assoc]

/-- A change of parts that hold no memory. -/
theorem Only.memWf {ps : List Part} {s t : State} (h : Only ps s t) (w : s.memWf = true) (h1 : Part.shelf ∉ ps) (h2 : Part.hostMem ∉ ps)
    (h3 : Part.tiers ∉ ps) (h4 : Part.attic ∉ ps) : t.memWf = true := by
  rw [State.memWf_iff] at w ⊢
  rw [show t.shelf = s.shelf from h _ h1, show t.hostMem = s.hostMem from h _ h2, show t.tiers = s.tiers from h _ h3,
    show t.attic = s.attic from h _ h4]
  exact w

/-- A change of parts among which host memory is the only memory. -/
theorem Only.memWf_host {ps : List Part} {s t : State} (h : Only ps s t) (w : s.memWf = true) (hw : Store.wf none t.hostMem = true)
    (h1 : Part.shelf ∉ ps) (h3 : Part.tiers ∉ ps) (h4 : Part.attic ∉ ps) : t.memWf = true := by
  rw [State.memWf_iff] at w ⊢
  rw [show t.shelf = s.shelf from h _ h1, show t.tiers = s.tiers from h _ h3, show t.attic = s.attic from h _ h4]
  exact ⟨w.1, hw, w.2.2⟩

/-- A fold of steps each of which keeps the canonical form. -/
theorem foldl_memWf {α : Type} (f : State → α → State) (hf : ∀ s a, s.memWf = true → (f s a).memWf = true) (l : List α) :
    ∀ s : State, s.memWf = true → (l.foldl f s).memWf = true := by
  induction l with
  | nil => intro s w; exact w
  | cons a l ih => intro s w; exact ih _ (hf s a w)

/-! ### Register fields and events -/

theorem State.fput_memWf (s : State) (p : Page) (f : Fld) (v : Nat) (w : s.memWf = true) : (s.fput p f v).memWf = true := w

theorem State.bump_memWf (s : State) (p : Page) (f : Fld) (n : Nat) (w : s.memWf = true) : (s.bump p f n).memWf = true := w

theorem State.hostWrite_wf (bs : List Byte) : ∀ (s : State) (a : Nat), Store.wf none s.hostMem = true →
    Store.wf none (s.hostWrite a bs).hostMem = true := by
  induction bs with
  | nil => intro s a h; exact h
  | cons b bs ih => intro s a h; exact ih _ _ (Store.wf_set none s.hostMem a (some b) h)

/-- Bytes put into host memory. -/
theorem State.hostWrite_memWf (s : State) (a : Nat) (bs : List Byte) (w : s.memWf = true) : (s.hostWrite a bs).memWf = true :=
  (State.hostWrite_only bs s a).memWf_host w (State.hostWrite_wf bs s a ((State.memWf_iff s).mp w).2.1) (by decide) (by decide) (by decide)

theorem State.putIssued_memWf (s : State) (m a : Nat) (bs : List Byte) (w : s.memWf = true) : (s.putIssued m a bs).memWf = true :=
  State.hostWrite_memWf s a bs w

theorem State.raiseVector_memWf (s : State) (m v : Nat) (w : s.memWf = true) : (s.raiseVector m v).memWf = true := by
  unfold State.raiseVector
  split <;> exact w

theorem State.setStat_memWf (s : State) (p : Page) (evs : Nat) (b : Bool) (st d : Nat) (w : s.memWf = true) :
    (s.setStat p evs b st d).memWf = true :=
  (State.setStat_only s p evs b st d).memWf w (by decide) (by decide) (by decide) (by decide)

theorem State.eqPut_memWf (s : State) (p : Page) (w : s.memWf = true) : (s.eqPut p).memWf = true := by
  unfold State.eqPut
  extract_lets n h s1 s2 hb s3
  have h1 : s1.memWf = true := State.putIssued_memWf s _ _ _ w
  clear_value s1 n
  have h2 : s2.memWf = true := h1
  have h3 : s3.memWf = true := h2
  split
  · exact State.raiseVector_memWf _ _ _ h3
  · exact h3

theorem State.report_memWf (s : State) (p : Page) (w : s.memWf = true) : (s.report p).memWf = true := by
  unfold State.report
  split
  · exact w
  · split
    · exact w
    · exact State.eqPut_memWf s p w

theorem State.hostEvent_memWf (s : State) (evs : Nat) (w : s.memWf = true) : (s.hostEvent evs).memWf = true := by
  have h := State.setStat_memWf s pgHst evs false 0 0 w
  unfold State.hostEvent
  dsimp only
  split
  · exact State.report_memWf _ _ h
  · exact h

theorem State.lineRose_memWf (s : State) (p : Page) (w : s.memWf = true) : (s.lineRose p).memWf = true := by
  unfold State.lineRose
  split
  · exact w
  · split <;> exact State.hostEvent_memWf _ _ (State.report_memWf s p w)

theorem State.afterLine_memWf (s s0 : State) (p : Page) (w : s.memWf = true) : (s.afterLine s0 p).memWf = true := by
  unfold State.afterLine
  split
  · exact State.lineRose_memWf s p w
  · split <;> exact w

/-- Events raised on a page, with the record and the message they may cause. -/
theorem State.events_memWf (s : State) (p : Page) (evs st d : Nat) (w : s.memWf = true) : (s.events p evs st d).memWf = true :=
  State.afterLine_memWf _ _ _ (State.setStat_memWf s _ _ _ _ _ w)

theorem State.event_memWf (s : State) (p : Page) (b st d : Nat) (w : s.memWf = true) : (s.event p b st d).memWf = true :=
  State.events_memWf s p _ st d w

theorem State.force_memWf (s : State) (p : Page) (bits : Nat) (w : s.memWf = true) : (s.force p bits).memWf = true :=
  State.afterLine_memWf _ _ _ (State.setStat_memWf s _ _ _ _ _ w)

theorem State.clearEvents_memWf (s : State) (p : Page) (bits : Nat) (w : s.memWf = true) : (s.clearEvents p bits).memWf = true := by
  unfold State.clearEvents
  dsimp only
  refine State.afterLine_memWf _ _ _ ?_
  split <;> exact w

theorem State.discard_memWf (s : State) (p : Page) (off evs : Nat) (w : s.memWf = true) : (s.discard p off evs).memWf = true := by
  unfold State.discard
  dsimp only
  split
  · exact w
  · exact State.events_memWf _ _ _ _ _ w

theorem State.releaseHolds_memWf (s : State) (r : Requester) (w : s.memWf = true) : (s.releaseHolds r).memWf = true :=
  (State.releaseHolds_only s r).memWf w (by decide) (by decide) (by decide) (by decide)

/-- A command's register write, whatever turns it away. -/
theorem State.hubAdmit_memWf (s : State) (r : Requester) (p : Page) (off : Nat) (act : State → State) (w : s.memWf = true)
    (h : ∀ u : State, u.memWf = true → (act u).memWf = true) : (s.hubAdmit r p off act).memWf = true := by
  have h0 := State.releaseHolds_memWf s r w
  unfold State.hubAdmit
  dsimp only
  split
  · exact h0
  · split
    · exact h0
    · split
      · exact h0
      · exact h _ h0

/-! ### Shelves -/

/-- Bytes written from a Shelf key on: a span access (R148), a fill write (R157). -/
theorem shelfWrite_memWf (s : State) (k : Nat) (bs : List Byte) (w : s.memWf = true) :
    ({ s with shelf := Store.write 0 s.shelf k bs }).memWf = true := by
  rw [State.memWf_iff] at w ⊢
  exact ⟨Store.wf_write _ _ _ _ w.1, w.2⟩

/-- A unit's results put into a Shelf, each byte at its key. -/
theorem State.shelfPut_memWf (s : State) (bs : List (Nat × Byte)) (w : s.memWf = true) : (s.shelfPut bs).memWf = true := by
  rw [State.memWf_iff] at w ⊢
  exact ⟨Store.wf_foldl_set _ _ _ w.1, w.2⟩

/-- The Shelves zero-filled (R409, R449). -/
theorem shelfClear_memWf (s : State) (w : s.memWf = true) : ({ s with shelf := [] }).memWf = true := by
  rw [State.memWf_iff] at w ⊢
  exact ⟨rfl, w.2⟩

/-! ### The Attic -/

/-- A bank's ciphertext written (R290). -/
theorem atticWrite_memWf (s : State) (k : Nat) (bs : List (Option Byte)) (w : s.memWf = true) :
    ({ s with attic.cells := Store.write none s.attic.cells k bs }).memWf = true := by
  rw [State.memWf_iff] at w ⊢
  exact ⟨w.1, w.2.1, w.2.2.1, w.2.2.2.1, Store.wf_write _ _ _ _ w.2.2.2.2.1, w.2.2.2.2.2⟩

/-! ### The device range -/

theorem cellarSet_memWf (s : State) (k : Nat) (c : Option Cell) (w : s.memWf = true) :
    ({ s with tiers.cellar := Store.set none s.tiers.cellar k c }).memWf = true := by
  rw [State.memWf_iff] at w ⊢
  exact ⟨w.1, w.2.1, Store.wf_set _ _ _ _ w.2.2.1, w.2.2.2⟩

theorem tagsSet_memWf (s : State) (k : Nat) (v : Option Nat) (w : s.memWf = true) :
    ({ s with tiers.tags := Store.set none s.tiers.tags k v }).memWf = true := by
  rw [State.memWf_iff] at w ⊢
  exact ⟨w.1, w.2.1, w.2.2.1, Store.wf_set _ _ _ _ w.2.2.2.1, w.2.2.2.2⟩

theorem sealedSet_memWf (s : State) (k : Nat) (v : Option (Prov × Nat)) (w : s.memWf = true) :
    ({ s with tiers.sealedBlk := Store.set none s.tiers.sealedBlk k v }).memWf = true := by
  rw [State.memWf_iff] at w ⊢
  exact ⟨w.1, w.2.1, w.2.2.1, w.2.2.2.1, w.2.2.2.2.1, Store.wf_set _ _ _ _ w.2.2.2.2.2.1, w.2.2.2.2.2.2⟩

/-- A byte written where it lies. -/
theorem State.putLoc_memWf (s : State) (l : Loc) (v : Byte) (w : s.memWf = true) : (s.putLoc l v).memWf = true := by
  cases l with
  | shelf k => exact shelfWrite_memWf s k [v] w
  | cellar c off p => exact cellarSet_memWf s _ _ w
  | attic b off => exact w
  | host a => exact State.hostWrite_memWf s a [v] w
  | sealed a p => exact State.hostWrite_memWf _ _ _ (sealedSet_memWf s _ _ w)

/-- A run of bytes written where they lie. -/
theorem State.putRun_memWf (bs : List Byte) : ∀ (s : State) (a : Nat), s.memWf = true → (s.putRun a bs).memWf = true := by
  induction bs with
  | nil => intro s a w; exact w
  | cons b bs ih =>
    intro s a w
    refine ih _ _ ?_
    split
    · exact State.putLoc_memWf s _ b w
    · exact w

/-- A unit's tag written anew. -/
theorem State.retag_memWf (s : State) (ob : Option (Obj × Nat)) (l : Loc) (w : s.memWf = true) : (s.retag ob l).memWf = true := by
  unfold State.retag
  split
  · split
    · exact tagsSet_memWf s _ _ w
    · exact w
  · split
    · split
      · exact State.hostWrite_memWf s _ _ w
      · exact w
    · exact w
  · exact w

/-- The Cellar controllers' counters. -/
theorem State.meterRun_memWf (s : State) (write : Bool) (a len : Nat) (w : s.memWf = true) : (s.meterRun write a len).memWf = true := by
  refine foldl_memWf _ ?_ _ _ w
  intro s u w
  cases h : s.locOf u with
  | none => exact w
  | some l =>
  cases l with
  | shelf => exact w
  | attic => exact w
  | host => exact w
  | sealed => exact w
  | cellar c off p =>
    have hb : ∀ (s : State) (p : Page) (f : Fld) (n : Nat), (s.bump p f n).memWf = s.memWf := fun _ _ _ _ => rfl
    simp only [apply_ite State.memWf, hb, ite_self, w]

theorem State.tierEnded_memWf (s : State) (a tier st : Nat) (w : s.memWf = true) : (s.tierEnded a tier st).memWf = true := by
  unfold State.tierEnded
  dsimp only
  split
  · exact State.event_memWf _ _ _ _ _ w
  · split
    · exact State.event_memWf _ _ _ _ _ w
    · exact w

theorem State.authFailed_memWf (s : State) (l : Loc) (w : s.memWf = true) : (s.authFailed l).memWf = true := by
  unfold State.authFailed
  split <;> exact State.event_memWf _ _ _ _ _ w

theorem State.unitFailed_memWf (s : State) (a st : Nat) (w : s.memWf = true) : (s.unitFailed a st).memWf = true := by
  unfold State.unitFailed
  split
  · refine State.tierEnded_memWf _ _ _ _ ?_
    split
    · exact State.authFailed_memWf s _ w
    · exact w
  · exact w

theorem State.noteRefused_memWf (s : State) (write : Bool) (a : Nat) (w : s.memWf = true) : (s.noteRefused write a).memWf = true := by
  unfold State.noteRefused
  split
  · split
    · split
      · exact State.event_memWf _ _ _ _ _ w
      · exact w
    · exact w
  · exact w

/-- A read of the device range. -/
theorem State.devRead_memWf (s : State) (who : Agent) (a len : Nat) (w : s.memWf = true) : (s.devRead who a len).1.memWf = true := by
  unfold State.devRead
  split
  · exact w
  · split
    · exact State.unitFailed_memWf s _ _ w
    · exact State.meterRun_memWf s false a len w

/-- A write of the device range. -/
theorem State.devWrite_memWf (s : State) (who : Agent) (a : Nat) (bs : List Byte) (w : s.memWf = true) :
    (s.devWrite who a bs).1.memWf = true := by
  unfold State.devWrite
  split
  · exact State.noteRefused_memWf s true a w
  · extract_lets dead
    split
    · exact State.unitFailed_memWf s _ _ w
    · refine foldl_memWf _ ?_ _ _ (State.putRun_memWf bs _ a (State.meterRun_memWf s true a _ w))
      intro s u w
      split
      · exact State.retag_memWf s _ _ w
      · exact w

/-! ### Scrubs -/

theorem runsApart_mono {a b : Nat} (m : List (Nat × Nat)) (h : runsApart (some b) m = true) (hab : a ≤ b) : runsApart (some a) m = true := by
  cases m with
  | nil => rfl
  | cons x m =>
    simp only [runsApart, Bool.and_eq_true, decide_eq_true_eq] at h ⊢
    exact ⟨⟨by omega, h.1.2⟩, h.2⟩

theorem addRun_above (m : List (Nat × Nat)) : ∀ (lo hi x : Nat), runsApart (some x) m = true → x < lo →
    runsApart (some x) (addRun lo hi m) = true := by
  induction m with
  | nil =>
    intro lo hi x _ hx
    unfold addRun
    split
    · simp [runsApart]; omega
    · rfl
  | cons e m ih =>
    obtain ⟨a, b⟩ := e
    intro lo hi x h hx
    have h0 := h
    simp only [runsApart, Bool.and_eq_true, decide_eq_true_eq] at h
    unfold addRun
    split
    · exact h0
    · split
      · simp only [runsApart, Bool.and_eq_true, decide_eq_true_eq]
        exact ⟨⟨hx, by omega⟩, ⟨by omega, h.1.2⟩, h.2⟩
      · split
        · simp only [runsApart, Bool.and_eq_true, decide_eq_true_eq]
          exact ⟨h.1, ih lo hi b h.2 (by omega)⟩
        · exact ih _ _ x (runsApart_mono m h.2 (by omega)) (by omega)

/-- A run put among runs that rise and lie apart leaves them so. -/
theorem addRun_apart (m : List (Nat × Nat)) : ∀ lo hi : Nat, runsApart none m = true → runsApart none (addRun lo hi m) = true := by
  induction m with
  | nil =>
    intro lo hi _
    unfold addRun
    split
    · simp [runsApart]; omega
    · rfl
  | cons e m ih =>
    obtain ⟨a, b⟩ := e
    intro lo hi h
    have h0 := h
    simp only [runsApart, Bool.and_eq_true, decide_eq_true_eq, Bool.true_and] at h
    unfold addRun
    split
    · exact h0
    · split
      · simp only [runsApart, Bool.and_eq_true, decide_eq_true_eq, Bool.true_and]
        exact ⟨by omega, ⟨by omega, h.1⟩, h.2⟩
      · split
        · simp only [runsApart, Bool.and_eq_true, decide_eq_true_eq, Bool.true_and]
          exact ⟨h.1, addRun_above m lo hi b h.2 (by omega)⟩
        · refine ih _ _ ?_
          cases m with
          | nil => rfl
          | cons x m =>
            have h2 := h.2
            simp only [runsApart, Bool.and_eq_true, decide_eq_true_eq, Bool.true_and] at h2 ⊢
            exact ⟨h2.1.2, h2.2⟩

/-- A scrub (R410): cells and tags in its runs dropped, the runs added. -/
theorem scrub_memWf (s : State) (f : Nat × Option Cell → Bool) (g : Nat × Option Nat → Bool) (rs : List (Nat × Nat)) (w : s.memWf = true) :
    ({ s with tiers.scrubs := rs.foldl (fun m (r : Nat × Nat) => addRun r.1 r.2 m) s.tiers.scrubs, tiers.cellar := s.tiers.cellar.filter f,
              tiers.tags := s.tiers.tags.filter g }).memWf = true := by
  have hr : ∀ (rs : List (Nat × Nat)) (m : List (Nat × Nat)), runsApart none m = true →
      runsApart none (rs.foldl (fun m (r : Nat × Nat) => addRun r.1 r.2 m) m) = true := by
    intro rs
    induction rs with
    | nil => intro m h; exact h
    | cons r rs ih => intro m h; exact ih _ (addRun_apart m r.1 r.2 h)
  rw [State.memWf_iff] at w ⊢
  exact ⟨w.1, w.2.1, Store.wf_filter _ _ _ w.2.2.1, Store.wf_filter _ _ _ w.2.2.2.1, w.2.2.2.2.1, w.2.2.2.2.2.1, hr rs _ w.2.2.2.2.2.2⟩

end Sys2Proof.Machine
end

