-- ==== Sys2Proof/Tests/Slice0.lean ====
section
/-! SUPPORT. The author's own tests: the check of well-formedness refuses ill-formed commands, small expected results worked out from the
spec, and for every statement with hypotheses a concrete state and operands that meet them (`meets_` and the statement's name). -/

namespace Sys2Proof.Tests

set_option Elab.async false

open Sys2Proof Sys2Proof.Machine

/-! ### Well-formedness -/

/-- A frame whose destination is wider than 48 bits. -/
def badFrame : Frame := ⟨2 ^ 48, 0, none, 0, []⟩
def goodFrame : Frame := ⟨1, 2, some 7, 0x88B5, []⟩
/-- A page of the index past its type's last instance. -/
def badPage : Page := ⟨.til, 4096⟩

theorem test_wf_register_write : (Instr.registerWrite (.host 0) 0x44 false 5).wf = true ∧ (Instr.registerWrite (.host 0) 0x46 false 5).wf = false ∧
    (Instr.registerWrite (.host 0) 0x44 true 5).wf = false ∧ (Instr.registerWrite (.host 0) 0x44 false (2 ^ 32)).wf = false := by decide
theorem test_wf_accesses : (Instr.unsupportedAccess (.host 0) 0x46 4).wf = true ∧ (Instr.unsupportedAccess (.host 0) 0x44 4).wf = false ∧
    (Instr.unsupportedAccess (.host 0) 0x44 0).wf = false ∧ (Instr.splitLowRead (.host 0) 0x44 true).wf = false ∧
    (Instr.splitLowWrite (.host 0) 0x44 0).wf = false := by decide
theorem test_wf_pages : (Instr.enable (.host 0) ⟨.til, 255⟩ 1).wf = true ∧ (Instr.enable (.host 0) badPage 1).wf = false ∧
    (Instr.disable (.host 0) badPage 0).wf = false ∧ (Instr.enabledCleared badPage).wf = false ∧ (Instr.softReset (.host 0) badPage 2).wf = false ∧
    (Instr.resetDone badPage).wf = false ∧ (Instr.evtForce (.host 0) badPage 1).wf = false ∧ (Instr.evtClear (.host 0) badPage 1).wf = false ∧
    (Instr.nfRecordClear (.host 0) badPage true).wf = false := by decide
theorem test_wf_control_words : (Instr.enable (.host 0) ⟨.til, 0⟩ 0).wf = false ∧ (Instr.enable (.host 0) ⟨.til, 0⟩ 3).wf = false ∧
    (Instr.disable (.host 0) ⟨.til, 0⟩ 1).wf = false ∧ (Instr.disable (.host 0) ⟨.til, 0⟩ 2).wf = false ∧
    (Instr.softReset (.host 0) ⟨.til, 0⟩ 1).wf = false := by decide
theorem test_wf_records : (Instr.nfRecordClear (.host 0) ⟨.til, 0⟩ true).wf = false ∧ (Instr.nfRecordClear (.host 0) ⟨.col, 0⟩ false).wf = false ∧
    (Instr.nfRecordClear (.host 0) ⟨.col, 0⟩ true).wf = true := by decide
theorem test_wf_lengths : (Instr.cellarRead .firmware 0 0 0).wf = false ∧ (Instr.cellarWrite .firmware 0 []).wf = false ∧
    (Instr.atticRead .firmware 0 0 false).wf = false ∧ (Instr.boxroomAccess .firmware 0 0 none false).wf = false ∧
    (Instr.boxroomAccess .firmware 0 2 (some [1]) false).wf = false := by decide
theorem test_wf_collective_frames : (Instr.colDataFrame 0 badFrame).wf = false ∧ (Instr.colAck 0 badFrame).wf = false ∧
    (Instr.colNack 0 badFrame).wf = false ∧ (Instr.colAck 0 goodFrame).wf = true := by decide
theorem test_wf_camern_frames : (Instr.writePacket 0 badFrame).wf = false ∧ (Instr.readReq 0 badFrame).wf = false ∧
    (Instr.readResp 0 badFrame).wf = false ∧ (Instr.ackPacket 0 badFrame).wf = false ∧ (Instr.nackPacket 0 badFrame).wf = false ∧
    (Instr.connectPacket 0 badFrame).wf = false ∧ (Instr.accept 0 badFrame).wf = false ∧ (Instr.closePacket 0 badFrame).wf = false ∧
    (Instr.closeAck 0 badFrame).wf = false := by decide
theorem test_wf_arrivals : (Instr.frameReceive 0 ⟨badFrame, true, none⟩).wf = false ∧
    (Instr.frameReceive 0 ⟨goodFrame, true, some ⟨2 ^ 64, 0, 0, true, goodFrame⟩⟩).wf = false ∧
    (Instr.frameReceive 0 ⟨goodFrame, true, some ⟨0, 0, 2 ^ 64, true, goodFrame⟩⟩).wf = false ∧
    (Instr.frameReceive 0 ⟨goodFrame, true, some ⟨0, 0, 0, true, badFrame⟩⟩).wf = false ∧
    (Instr.frameReceive 0 ⟨{ goodFrame with ety := 2 ^ 16 }, true, none⟩).wf = false ∧
    (Instr.frameReceive 0 ⟨{ goodFrame with tag := some (2 ^ 16) }, true, none⟩).wf = false ∧
    (Instr.frameReceive 0 ⟨{ goodFrame with src := 2 ^ 48 }, true, none⟩).wf = false := by decide
theorem test_wf_heartbeats : (Instr.heartbeat 0 0 ⟨2 ^ 64, 0, 0, false, false⟩).wf = false ∧
    (Instr.heartbeat 0 0 ⟨0, 2 ^ 32, 0, false, false⟩).wf = false ∧ (Instr.heartbeat 0 0 ⟨0, 0, 0, false, false⟩).wf = true := by decide

/-! ### The statements' hypotheses are met -/

/-- A state with fields of its pages set. -/
def fields (s : State) (l : List (Page × Fld × Nat)) : State := l.foldl (fun s x => s.fput x.1 x.2.1 x.2.2) s
/-- A structure with fields given as (byte offset, low bit, width, value). -/
def struct (fs : List (Nat × Nat × Nat × Nat)) : Nat := fs.foldl (fun d f => d + placeAt f.1 f.2.1 f.2.2.1 f.2.2.2) 0
/-- Reset with one tile's contents. -/
def withTile (k : Nat) (u : Tile) : State := { fields State.reset [(tilPage k, F.com.ENABLE, 1)] with tiles := [(k, u)] }
/-- As `fields`, for fields whose reset value is a boot value that nothing fixes. -/
def bootFields (s : State) (l : List (Page × Fld × Nat)) : State :=
  l.foldl (fun s x => { s with regs := Store.insert (Store.erase s.regs (x.2.1.key x.1)) (x.2.1.key x.1) x.2.2 }) s

/-- A split hold of requester host 0 on GL_BASE_TIME of port 0. -/
def stHeld : State := { State.reset with hub.held := [(0, some (0xC0058, 7))] }
/-- Page ETH 2 isolated. -/
def stIso : State := fields State.reset [(⟨.eth, 2⟩, F.com.ISOLATED, 1)]
theorem meets_PageIndex : (Page.mk .seq 63).present = true ∧ 0xFFF < 0x1000 ∧ pageAt 0x13F0FFF = some ⟨.seq, 63⟩ := by decide
theorem meets_AccessesTurnedAway :
    (pageAt 0x1500000 = none ∧ ¬ (0x3000000 ≤ 0x1500000 ∧ 0x1500000 < 0x3008100) ∧
      Store.get none State.reset.hub.held (Requester.host 0).key = none) ∧
    (aligned 0x1002 4 = false) ∧ (Store.get none stHeld.hub.held (Requester.host 0).key = some (0xC0058, 7) ∧
      pageAt 0xC0058 = some ⟨.gl, 0⟩ ∧ (⟨.gl, 0⟩ : Page) ≠ pgHst) ∧
    ((Page.mk .eth 2).present = true ∧ stIso.isolated ⟨.eth, 2⟩ = true ∧ (0xB2040#26).toNat = (Page.mk .eth 2).base + 0x40 ∧
      Store.get none stIso.hub.held (Requester.host 0).key = none) := by decide
/-- Host 0 has captured the high half of TIME. -/
def stCap : State := { State.reset with hub.captured := [(0, some (0x50040, 3))] }
theorem meets_SplitAccesses :
    ((0x50040#26).toNat = (Page.mk .tim 0).base + 0x40 ∧ State.reset.reaches (.host 0) ⟨.tim, 0⟩ 0x40 = true ∧
      Store.get none State.reset.hub.captured (Requester.host 0).key = none) ∧
    ((0x50044#26).toNat = 0x50040 + 4 ∧ 0x50040 % 8 = 0 ∧ stCap.refuses (0x50044#26).toNat = none ∧
      Store.get none stCap.hub.captured (Requester.host 0).key = some (0x50040, 3) ∧ Store.get none stCap.hub.held (Requester.host 0).key = none) ∧
    ((0xC7058#26).toNat = (pgGl 7).base + 0x58 ∧ State.reset.reaches (.host 0) (pgGl 7) 0x58 = true) ∧
    ((0xC005C#26).toNat = (pgGl 0).base + 0x5C ∧ Store.get none stHeld.hub.held (Requester.host 0).key = some ((pgGl 0).base + 0x58, 7) ∧
      stHeld.isolated (pgGl 0) = false ∧ stHeld.resetting (pgGl 0) = false) ∧
    (aligned 0x50040 8 = true ∧ stHeld.refuses 0x50040 = none ∧
      Store.get none stHeld.hub.held (Requester.host 0).key = some (0xC0058, 7) ∧ pageAt 0xC0058 = some ⟨.gl, 0⟩) := by decide
/-- The throttle page enabled. -/
def stThr : State := fields State.reset [(pgThr, F.com.ENABLED, 1)]
theorem meets_RegisterWrites :
    ((0x50014#26).toNat = (Page.mk .tim 0).base + 0x14 ∧ State.reset.reaches (.host 0) ⟨.tim, 0⟩ 0x14 = true ∧
      State.reset.fget ⟨.tim, 0⟩ F.com.EVT_STAT &&& (2 ^ 32 - 1 - 9) = 0) ∧
    ((0x32800#26).toNat = pgThr.base + 0x800 ∧ State.reset.reaches (.host 0) pgThr 0x800 = true ∧ (0xFFFFFFFFFFFFF#64).toNat < 2 ^ 52 ∧
      State.reset.fon pgThr F.com.ENABLED = false) ∧
    (stThr.reaches (.host 0) pgThr 0x800 = true ∧ stThr.fon pgThr F.com.ENABLED = true ∧
      (9#64).toNat ≠ stThr.fget pgThr F.thr.THR_RING_BASE_ADDR ∧ stThr.fon pgThr F.com.CAUSE_VALID = false) ∧
    2 ^ 52 ≤ (0x10000000000000#64).toNat ∧
    ((Page.mk .agt 0).present = true ∧ (0x100008#26).toNat = (Page.mk .agt 0).base + 8 ∧ State.reset.heldLow (.host 0) 0x100008 = none ∧
      (0x11#32).toNat % 4 = 1) := by decide
/-- The time counter's page in a soft reset. -/
def stResetting : State := fields State.reset [(⟨.tim, 0⟩, F.com.RESET_BUSY, 1)]
theorem meets_BlockControl :
    (State.reset.reaches (.core 0) ⟨.rgn, 7⟩ 0x008 = true ∧ State.reset.fget ⟨.rgn, 7⟩ F.com.VERSION_SELECT = 1) ∧
    (State.reset.reaches (.host 0) ⟨.til, 255⟩ 0x008 = true ∧ (0x1#32).toNat % 4 = 1 ∧ (0x1#32).toNat / 16 % 16 ≠ 1 ∧
      (⟨.til, 255⟩ : Page) ≠ pgHst) ∧
    ((Page.mk .til 255).present = true ∧ State.reset.enabled ⟨.til, 255⟩ = false ∧ State.reset.stillWorks ⟨.til, 255⟩ = false) ∧
    (State.reset.reaches (.host 0) ⟨.tal, 31⟩ 0x008 = true ∧ State.reset.fget ⟨.tal, 31⟩ F.com.VERSION_SELECT = 1 ∧
      PageType.tal ∈ [PageType.lnk, .ops, .dom, .wake, .tim, .slot, .elog, .cong, .ctx, .cel, .rgn, .tal, .ccr, .mxe, .vec, .net, .seam]) ∧
    ((Page.mk .tim 0).present = true ∧ stResetting.resetting ⟨.tim, 0⟩ = true ∧ stResetting.resetWaits ⟨.tim, 0⟩ = false ∧
      (⟨.tim, 0⟩ : Page) ≠ pgHst) := by decide
/-- A first-position record of die 1's matrix engines. -/
def stSat : State := fields State.reset [(⟨.mxe, 1⟩, F.mxe.SAT_POS_VALID, 1)]
theorem meets_EventRegisters :
    (State.reset.reaches (.host 0) ⟨.til, 9⟩ 0x018 = true ∧ (⟨.til, 9⟩ : Page) ≠ pgHst ∧ State.reset.fon ⟨.til, 9⟩ F.com.CAUSE_VALID = false ∧
      bitAt ((0x1F000#32).toNat &&& definedEvents ⟨.til, 9⟩) 12 = true ∧
      ∀ j < 12, bitAt ((0x1F000#32).toNat &&& definedEvents ⟨.til, 9⟩) j = false) ∧
    ((Page.mk .til 9).present = true ∧ State.reset.isolated ⟨.til, 9⟩ = false ∧ (coreOnly ⟨.til, 9⟩ 0x010 = true → (Requester.host 0).isCore = true) ∧
      State.reset.fget ⟨.til, 9⟩ F.com.EVT_STAT &&& (2 ^ 32 - 1 - State.reset.fget ⟨.til, 9⟩ F.com.EVT_MASK) &&& (2 ^ 32 - 1 - 1) = 0) ∧
    (posValid .mxe true = some F.mxe.SAT_POS_VALID ∧ stSat.isolated ⟨.mxe, 1⟩ = false ∧
      Store.get none stSat.hub.held (Requester.host 0).key = none) := by decide
/-- The time counter's events routed and unmasked, its line low; `h` is the event ring's HEAD. -/
def stRouted (h : Nat) : State :=
  fields State.reset [(pgHst, F.hst.EVT_ROUTE_ROUTE, 2 ^ 11), (⟨.tim, 0⟩, F.com.EVT_MASK, 0), (pgHst, F.hst.EQ_HEAD_HEAD, h)]
theorem meets_EventRing (h : Nat) (_ : h = 0 ∨ h = 63) :
    (stRouted h).reaches (.host 0) ⟨.tim, 0⟩ 0x018 = true ∧ (⟨.tim, 0⟩ : Page) ≠ pgHst ∧ (stRouted h).routed ⟨.tim, 0⟩ = true ∧
    (stRouted h).lineHigh ⟨.tim, 0⟩ = false ∧ ((stRouted h).force ⟨.tim, 0⟩ 1).lineHigh ⟨.tim, 0⟩ = true ∧
    (stRouted h).eqFull = (h == 63) ∧ (stRouted h).routed pgHst = false ∧ (stRouted h).fon pgHst F.hst.EQ_CFG_IRQ_EN = false ∧
    State.reset.reaches (.host 0) pgHst 0x58 = true ∧ State.reset.hub.unreported = [] := by
  rcases ‹h = 0 ∨ h = 63› with rfl | rfl <;> decide

/-- An MMA of one row, one column, one block: INT8 at offset 0 and 64 of tile 3's Shelf, CLEAR. -/
def dMma : Nat := struct [(0, 0, 4, 1), (0, 8, 8, 3), (0, 16, 1, 1), (4, 0, 32, 77), (8, 0, 7, 1), (8, 8, 7, 1), (8, 16, 11, 1), (0xC, 0, 4, 2),
  (0xC, 4, 4, 2), (0x10, 0, 32, 3 * 2 ^ 21), (0x14, 21, 11, 1), (0x18, 0, 32, 3 * 2 ^ 21 + 64), (0x1C, 21, 11, 1), (0x3C, 16, 12, 9), (0x3C, 28, 1, 1)]
/-- A DRAIN of it to INT32 at offset 0 of tile 3. -/
def dDrain : Nat := struct [(0, 0, 4, 1), (0, 8, 8, 4), (8, 0, 7, 2), (8, 8, 7, 2), (0xC, 8, 4, 3), (0x20, 0, 32, 3 * 2 ^ 21), (0x24, 21, 11, 1)]
/-- A CONVERT of one block to INT8, and an EXPAND of one block of INT8. -/
def dConv : Nat := struct [(0, 0, 4, 1), (0, 8, 8, 6), (8, 0, 7, 1), (8, 16, 11, 1), (0xC, 0, 4, 4), (0xC, 8, 4, 2), (0x10, 0, 32, 3 * 2 ^ 21 + 256),
  (0x14, 21, 11, 1), (0x20, 0, 32, 3 * 2 ^ 21), (0x24, 21, 11, 1), (0x30, 8, 24, 64)]
def dExp : Nat := struct [(0, 0, 4, 1), (0, 8, 8, 7), (8, 0, 7, 1), (8, 16, 11, 1), (0xC, 0, 4, 2), (0xC, 8, 4, 4), (0x10, 0, 32, 3 * 2 ^ 21 + 256),
  (0x14, 21, 11, 1), (0x20, 0, 32, 3 * 2 ^ 21), (0x24, 21, 11, 1)]
def tlQueue : Tile := { queue := [⟨dMma, false, false⟩] }
def tlLocked : Tile := { queue := [⟨dMma, false, false⟩], started := [⟨dDrain, .drain 0, false, false⟩] }
theorem meets_MatrixQueue :
    ((withTile 3 tlQueue).tile 3).queue = [⟨dMma, false, false⟩] ∧ (withTile 3 tlQueue).fon (tilPage 3) F.com.ENABLE = true ∧
    ((withTile 3 tlQueue).tile 3).interlocked 3 dMma = false ∧ ((withTile 3 tlLocked).tile 3).interlocked 3 dMma = true ∧
    ((withTile 255 { started := [⟨256, .signal, false, false⟩] }).tile 255).started = [⟨256, .signal, false, false⟩] ∧
    ((withTile 3 { started := [⟨dMma, .ready, true, true⟩] }).tile 3).started = [] ++ ⟨dMma, .ready, true, true⟩ :: [] ∧
    descTallyEn dMma = true ∧ descTallyEn dDrain = false := by decide
/-- Tile 3 with an operation at the array, or past it. -/
def stOp (d : Nat) (ph : Phase) : State := withTile 3 { started := [⟨d, ph, false, false⟩] }
theorem meets_AccumulatorSets :
    ((stOp 512 .clear).tile 3).atArray = some (0, ⟨512, .clear, false, false⟩) ∧ ((stOp 512 .clear).tile 3).activeSet = some 0 ∧
    ((stOp dDrain .reach).tile 3).atArray = some (0, ⟨dDrain, .reach, false, false⟩) ∧
    ((stOp dDrain .handover).tile 3).atArray = some (0, ⟨dDrain, .handover, false, false⟩) ∧ ((stOp dDrain .handover).tile 3).set1.st = .free ∧
    ((stOp dDrain (.pending 1)).tile 3).started = [] ++ ⟨dDrain, .pending 1, false, false⟩ :: [] ∧
    ((stOp dDrain (.pending 1)).tile 3).set0.st ≠ .draining ∧ ((stOp dDrain (.pending 1)).tile 3).set1.st ≠ .draining := by decide
theorem meets_MatrixProducts :
    (((stOp dMma (.accum 0)).tile 3).atArray = some (0, ⟨dMma, .accum 0, false, false⟩) ∧ descOpcode dMma = opMma ∧
      ((stOp dMma (.accum 0)).tile 3).activeSet = some 0 ∧ TD.clear dMma = true ∧ TD.aFmt dMma = fmtINT8 ∧ TD.bFmt dMma = fmtINT8 ∧
      TD.aT dMma = false ∧ TD.bT dMma = false ∧ TD.cols dMma ≤ 64) ∧
    descOpcode (dMma + 512) = opMmaDrain ∧ (0 < totalSteps dMma ∧ 63 < totalSteps dMma) ∧
    (withTile 3 { started := [⟨dMma, .accum 63, false, false⟩], set0 := {} } |>.tile 3).activeSet = none ∧
    (withTile 3 { started := [⟨dMma, .accum 63, false, false⟩], set0 := {} } |>.tile 3).atArray = some (0, ⟨dMma, .accum 63, false, false⟩) := by decide
/-- Two by two sums in set 1, which the converter holds. -/
def accs (f : Nat → Int) : List (Nat × Acc) := [0, 1, 64, 65].map fun i => (i, ⟨false, some 0, f i, 0, 0⟩)
def stDrain : State :=
  let sums : List (Nat × Acc) := accs (fun i => if i = 65 then -(2 ^ 31) else i)
  withTile 3 { started := [⟨dDrain, .drain 1, false, false⟩], set1 := ⟨.draining, some (2, 2), 1, sums⟩ }
theorem meets_MatrixOutput :
    ((stDrain.tile 3).started = [] ++ ⟨dDrain, .drain 1, false, false⟩ :: [] ∧ ((stDrain.tile 3).set 1).fmts = some (fmtINT8, fmtINT8) ∧
      TD.cFmt dDrain = fmtINT32 ∧ TD.cT dDrain = false ∧ TD.rowstat dDrain = false ∧ TD.ditherOn dDrain = false ∧ TD.scale dDrain = 0 ∧
      0 < TD.cStride dDrain ∧ TD.cols dDrain ≤ 64 ∧ TD.rows dDrain = 2 ∧ TD.cols dDrain = 2 ∧
      ∀ y < 2, ∀ z < 2, Store.get {} ((stDrain.tile 3).set 1).elems (y * 64 + z)
        = ⟨false, some 0, if y = 1 ∧ z = 1 then -(2 ^ 31) else ((y * 64 + z : Nat) : Int), 0, 0⟩) ∧
    (((stOp dConv .convert).tile 3).started = ⟨dConv, .convert, false, false⟩ :: [] ∧ ((stOp dConv .convert).tile 3).converterIdle = true ∧
      TD.kblk dConv ≤ TD.cStride dConv ∧ descOpcode dConv = opConvert ∧ TD.cFmt dConv = fmtINT8 ∧ descOpcode dExp = opExpand ∧
      TD.aFmt dExp = fmtINT8 ∧ TD.kblk dExp ≤ TD.cStride dExp) := by decide

/-- A RUN's descriptor, one that sends a summary, with its tally; an instruction of opcode `o` with VD 2 and the INT8 formats of LDX and STQ. -/
def dRun : Nat := struct [(0, 0, 4, 1), (0, 8, 8, 2), (4, 0, 32, 9), (8, 0, 16, 1), (0x38, 2, 1, 1), (0x3C, 16, 12, 3), (0x3C, 28, 1, 1)]
def wOp (o : Nat) : Nat := o + 2 * 2 ^ 8 + 0x2200 * 2 ^ 32
def stored (w : Nat) : Nat := w + secEncode 64 7 w * 2 ^ 64
def rRun : VecRun := { desc := dRun, pc := 0 }
/-- Tile 3 about to issue an instruction; table slot 0 holds segments whose first is `seg`. -/
def stInstr (w seg : Nat) : State :=
  withTile 3 { progs := [(0, some ⟨1, [0], [stored w]⟩)], tables := [(0, some ⟨1, 0, [seg], [seg]⟩)], vrun := some rRun }
theorem stored_clean : ∀ o < 0x5B, instrCheck (stored (wOp o)) = .clean (wOp o) ∧ VI.op (wOp o) = o := by decide +kernel
/-- The premises of LaneFloatArithmetic, LaneIntegerAndBits, PredicateInstructions, VectorMemory and ScalarAndControl. -/
theorem meets_instructions (o seg : Nat) (h : o < 0x5B) : (stInstr (wOp o) seg).atInstr 3 (wOp o) rRun ∧ VI.op (wOp o) = o :=
  ⟨⟨rfl, rfl, by decide, _, _, rfl, rfl, (stored_clean o h).1⟩, (stored_clean o h).2⟩
theorem meets_operands : ∀ o < 0x5B, VI.vd (wOp o) < 8 ∧ VI.imm (wOp o) / 2 ^ 8 % 16 = fmtINT8 ∧ VI.imm (wOp o) / 2 ^ 12 % 16 = fmtINT8 ∧
    bitAt (VI.imm (wOp o)) 17 = false := by decide
theorem meets_FunctionTables :
    Store.get none ((stInstr (wOp 0x30) 0).tile 3).tables (VI.imm (wOp 0x30) % 4) = some ⟨1, 0, [0], [0]⟩ ∧ (stInstr (wOp 0x30) 0).running = false ∧
    segCheck (([0] : List Nat).getD (tableSeg 0 (((stInstr (wOp 0x30) 0).tile 3).srcA (wOp 0x30) 5)).1 0) = .clean 0 ∧
    ((stInstr (wOp 0x31) 3).tile 3).gate (wOp 0x31) 5 = true ∧
    segCheck (([3] : List Nat).getD (tableSeg 0 (((stInstr (wOp 0x31) 3).tile 3).srcA (wOp 0x31) 5)).1 0) = .failed := by decide
/-- A descriptor at the head of tile 3's idle vector engine, a program in slot 0, an image of each type in the store's directory. -/
def stVec (d : Nat) : State :=
  fields (withTile 3 { progs := [(0, some ⟨1, [0], [stored 0x58, stored 0x59, stored 0x5A]⟩)], vqueue := [⟨d, false⟩] })
    [(tilPage 3, F.com.ENABLED, 1), (⟨.vst, 0⟩, F.vst.DIR_VALID 0, 1), (⟨.vst, 0⟩, F.vst.DIR_TYPE 0, 1), (⟨.vst, 0⟩, F.vst.DIR_VALID 1, 1), (⟨.vst, 0⟩, F.vst.DIR_TYPE 1, 2)]
theorem vecCheck_witness : (stVec 0x101).vecCheck 3 0x101 = none ∧ (stVec dRun).vecCheck 3 dRun = none ∧ (stVec 0x301).vecCheck 3 0x301 = none ∧
    (stVec (0x401 + 2 ^ 80)).vecCheck 3 (0x401 + 2 ^ 80) = none ∧ (stVec 0x401).vecCheck 3 0x401 = some stFormat := by decide +kernel
/-- A program image of BODY, END, HALT, and a table image of zero coefficients. -/
def progImage : List Byte :=
  leBytes 64 (withCheck 64 (struct [(0, 0, 4, 1), (0, 8, 8, 0x21), (8, 0, 24, 216), (0xC, 0, 32, 5), (0x10, 0, 11, 3), (0x10, 16, 5, 1)]))
    ++ leBytes 4 (2 ^ 31) ++ List.replicate 60 0 ++ leBytes 8 0x58 ++ leBytes 8 0x59 ++ leBytes 8 0x5A
    ++ [0x58, 0x59, 0x5A].map (fun w => BitVec.ofNat 8 (secEncode 64 7 w)) ++ List.replicate 61 0
def tabHeader : Nat := withCheck 64 (struct [(0, 0, 4, 1), (0, 8, 8, 0x22), (8, 0, 24, 65600), (0x10, 0, 4, 1)])
def tabImage : List Byte := leBytes 64 tabHeader ++ List.replicate 65536 0
theorem progImage_good : (parseProgram progImage).toOption.isSome = true := by decide +kernel
theorem tabImage_zero (o n : Nat) (h : 64 ≤ o) : imgField tabImage o n = 0 := by
  have z : ∀ m, leNat (List.replicate m (0#8)) = 0 := by
    intro m
    induction m with
    | zero => rfl
    | succ m ih => rw [List.replicate_succ, leNat, ih]; rfl
  have l : (leBytes 64 tabHeader).length ≤ o := Nat.le_trans (by decide +kernel) h
  unfold imgField tabImage
  rw [List.drop_append, List.drop_eq_nil_of_le l, List.nil_append, List.drop_replicate, List.take_replicate]
  exact z _
theorem tabImage_header : checkStruct 64 (imgField tabImage 0 64) = .clean tabHeader := by decide +kernel
theorem tabImage_good : (parseTable tabImage).toOption.isSome = true := by
  have s1 : segCheck 0 = .clean 0 := by decide +kernel
  have z : ∀ o i : Nat, imgField tabImage (o + 64 + 16 * i) 16 = 0 := fun o i => tabImage_zero _ _ (by omega)
  have zs (o : Nat) : (List.range 2048).map (fun i => imgField tabImage (o + 64 + 16 * i) 16) = List.replicate 2048 0 := by
    rw [List.map_congr_left (fun i _ => z o i), List.map_const']; simp
  unfold parseTable
  rw [tabImage_header]
  simp only [parseTable.go]
  rw [show (0x40 : Nat) = 0 + 64 from rfl, show (0x8040 : Nat) = 0x8000 + 64 from rfl, zs, zs]
  decide +kernel
theorem meets_VectorQueue :
    ((stVec dRun).tile 3).vrun = none ∧ ((stVec dRun).tile 3).vqueue = ⟨dRun, false⟩ :: [] ∧ (stVec dRun).fon (tilPage 3) F.com.ENABLE = true ∧
    (stVec dRun).running = false ∧ descOpcode 0x101 = 1 ∧ descOpcode dRun = 2 ∧ descOpcode 0x301 = 3 ∧ descOpcode 0x401 = 4 ∧
    ((stVec dRun).tile 3).prog (VD.pslot dRun) = some ⟨1, [0], [stored 0x58, stored 0x59, stored 0x5A]⟩ ∧ ([0] : List Nat)[VD.entry dRun]? = some 0 ∧
    ({ stVec 0x301 with agate.vimages := [(0, progImage)] }).vimage 3 0x301 = progImage ∧
    (parseProgram ((stVec 0x301).vimage 3 0x301)).toOption = none ∧
    ((withTile 3 { vrun := some { desc := 0x301, pc := 0, ended := true } }).tile 3).vrun = some { desc := 0x301, pc := 0, ended := true } := by
  decide +kernel
/-- A message for slot 33 of core 1, whose TAG is 7, expecting one; slot entry by tile 3. -/
def mSum : Summary := ⟨1, 1, 7, 3, 9, 0, [1#32]⟩
def stSum (tag : Nat) : State :=
  { fields State.reset [(⟨.dp, 0⟩, F.dp.SLOT_CFG_TAG 33, tag), (⟨.dp, 0⟩, F.dp.SLOT_CFG_EXPECT 33, 1)] with summaries := [mSum] }
theorem meets_SummarySlots :
    VD.sumEn rRun.desc = true ∧ (stSum 7).summaries[0]? = some mSum ∧ mSum.tag = (stSum 7).fget (slotPage 1) (F.dp.SLOT_CFG_TAG (slotIx 1 1)) ∧
    (stSum 7).fget (slotPage 1) (F.dp.SLOT_CFG_EXPECT (slotIx 1 1)) ≠ 0 ∧ (stSum 7).fon (slotPage 1) (F.dp.SLOT_STAT_COMPLETE (slotIx 1 1)) = false ∧
    Store.get [] (Store.get [] (stSum 7).slotHeld 33) 3 = [] ∧ mSum.tag ≠ (stSum 8).fget (slotPage 1) (F.dp.SLOT_CFG_TAG (slotIx 1 1)) ∧
    State.reset.reaches (.host 0) ⟨.dp, 1⟩ (0x404 + 32 * 63) = true := by decide

/-- A fill of 64 bytes from the Shelf's start into buffer 2 of tile 3, in generation `g`, at position `p`. -/
def fFill (g p : Nat) : Fill := ⟨0, 0, 3, 2, g, 0x1000, 64, p, some ⟨0, 7, 1, 0⟩, false⟩
def stFill (g p : Nat) : State :=
  { fields State.reset [(tilPage 3, F.til.LB_STAT_STATE 2, 1)] with agate.fills := [fFill g p] }
theorem meets_ShelfAndFills : State.reset.napping = false ∧ State.reset.pwr.goal ≠ 2 ∧ State.reset.isolated (tilPage 3) = false ∧
    (stFill 0 0).agate.fills[0]? = some (fFill 0 0) ∧ (fFill 0 0).pos < (fFill 0 0).len ∧
    ((stFill 0 0).devRead (.tenant (Fin.ofNat 16 (stFill 0 0).agate.tenant)) 0x1000 64).2.toOption.isSome = true ∧
    (stFill 0 0).fillCurrent (fFill 0 0) = true ∧ (stFill 1 0).fillCurrent (fFill 1 0) = false ∧
    (fFill 0 64).len ≤ (fFill 0 64).pos ∧ (stFill 0 64).fillCurrent (fFill 0 64) = true ∧ (stFill 0 64).lbState 3 2 = 1 := by decide +kernel
/-- A ring entry: opcode, class, handle, size, tier, place. -/
def qEntry (op cls h size tier place : Nat) : Nat := withCheck 64 (struct [(0, 0, 4, 1), (0, 8, 8, op), (0, 20, 2, cls), (4, 0, 16, h),
  (8, 0, 34, size), (0x10, 0, 3, tier), (0x18, 0, 52, place), (0x20, 0, 32, 77)])
/-- An object of class WEIGHTS on the Shelf, and one in bank 0 of the Attic. -/
def oShelf : Obj := ⟨0, 2, 64, false, 1, 0, 0x4000, .resident, some 0x010000000000⟩
def oAttic : Obj := ⟨0, 2, 64, false, 3, 0, 0x010000000000, .resident, some 0x010000000000⟩
/-- The ring of firmware (or of the driver) holds the entry `d`, at Shelf address 0; object 5 is `o`; bank 0 holds a set of one unit. -/
def stRing (fw : Bool) (d : Nat) (o : Option Obj) : State :=
  let fs : List (Page × Fld × Nat) := if fw then [(pgMq, F.mq.FQ_CFG_LOG2, 4), (pgMq, F.mq.FQ_TAIL_TAIL, 1), (pgMq, F.mq.FCQ_CFG_LOG2, 4)]
    else [(pgMq, F.mq.MQ_CFG_LOG2, 4), (pgMq, F.mq.MQ_TAIL_TAIL, 1), (pgMq, F.mq.CQ_CFG_LOG2, 4)]
  let os : List (Nat × Option Obj) := match o with | some o => [(5, some o)] | none => []
  let s0 := bootFields State.reset [(pgSlot, F.slot.SL_STAT_PROGRAMMING 0, 0), (pgSlot, F.slot.SL_STAT_VALID 0, 1),
    (pgSlot, F.slot.SL_LEN_A_UNITS 0, 1)]
  { fields s0 ((pgMq, F.com.ENABLE, 1) :: fs) with
    shelf := Store.write 0 [] 0 (leBytes 64 d), tiers.objects := os, attic.keys := [(0, some 9)], tiers.lastFw := !fw }
/-- The parts of `ringEntry`, as one check. -/
def entryB (s : State) (fw : Bool) (d : Nat) : Bool :=
  s.ringHead fw == some 0 && s.ringTurn fw && (match s.devRead .firmware 0 64 with
    | (s1, .ok bs) => decide (checkStruct 64 (leNat bs) = .clean d) && s1.ringCheck fw d == none
    | _ => false)
theorem entry_of {s : State} {fw : Bool} {d : Nat} (h : entryB s fw d = true) : ∃ s1, s.ringEntry s1 fw d := by
  unfold entryB at h
  split at h
  · rename_i s1 bs e
    simp only [Bool.and_eq_true, beq_iff_eq, decide_eq_true_eq] at h
    exact ⟨s1, 0, bs, h.1.1, h.1.2, e, h.2.1, h.2.2⟩
  · simp at h
theorem meets_ObjectCommands_taken :
    (State.reset.reaches (.host 0) pgMq 0x04C = true ∧ State.reset.reaches (.core 0) pgMq 0x07C = true) ∧
    entryB (stRing false (qEntry 1 2 5 64 1 0x8000) none) false (qEntry 1 2 5 64 1 0x8000) = true ∧
    entryB (stRing true (qEntry 1 2 5 64 1 0x8000) none) true (qEntry 1 2 5 64 1 0x8000) = true ∧
    entryB (stRing false (qEntry 2 0 5 0 0 0) (some oShelf)) false (qEntry 2 0 5 0 0 0) = true ∧
    entryB (stRing false (qEntry 4 0 5 0 0 0) (some oShelf)) false (qEntry 4 0 5 0 0 0) = true ∧
    (stRing false (qEntry 4 0 5 0 0 0) (some oShelf)).ringQuiet false = true ∧
    (stRing false (qEntry 4 0 5 0 0 0) (some oShelf)).ringCmds false = [] ∧
    QE.op (qEntry 1 2 5 64 1 0x8000) = 1 ∧ QE.op (qEntry 2 0 5 0 0 0) = 2 ∧ QE.op (qEntry 4 0 5 0 0 0) = 4 ∧
    (stRing false 0 (some oShelf)).obj (QE.handle (qEntry 2 0 5 0 0 0)) = some oShelf := by decide +kernel
def stCmd (c : ObjCmd) (o : Obj) : State := { State.reset with tiers.drv := [c], tiers.objects := [(5, some o)] }
theorem meets_ObjectCommands_complete :
    (stCmd ⟨1, 7, 5, true, none⟩ oShelf).ringCmds false = ⟨1, 7, 5, true, none⟩ :: [] ∧
    (stCmd ⟨1, 7, 5, true, none⟩ oShelf).obj 5 = some oShelf ∧ oShelf.tier = 1 ∧ oShelf.place + oShelf.size ≤ 0x20000000 ∧
    oShelf.size ≤ 2 ^ 34 ∧ (stCmd ⟨2, 7, 5, false, none⟩ oShelf).objInUse 5 = false := by decide
/-- A completion ring in host memory at byte 0x7000, reached through module 0. -/
def stCq : State := fields State.reset [(pgMq, F.mq.CQ_BASE_ADDR, 0x8000000007000), (pgMq, F.mq.CQ_CFG_LOG2, 4), (pgMq, F.mq.CQ_HEAD_HEAD, 15),
  (pgMq, F.mq.CQ_TAIL_TAIL, 3), (⟨.lnk, 0⟩, F.lnk.LINK_STAT_STAGE, 4)]
theorem meets_ObjectCommands_record :
    stCq.fget pgMq F.mq.CQ_BASE_ADDR = 0x8000000000000 + 0x7000 ∧ 0x7000 % 4096 = 0 ∧ 0x7000 + 16 * 15 + 16 ≤ 2 ^ 51 ∧
    stCq.fget pgMq F.mq.CQ_HEAD_HEAD % 2 ^ stCq.fget pgMq F.mq.CQ_CFG_LOG2 = 15 ∧ stCq.tiers.drvOut = [] ∧ stCq.tirCqFull false = false ∧
    stCq.upModules 15 ≠ [] ∧ (∀ j < 16, stCq.apertureAt (0x7000 + 16 * 15 + j) = none) ∧ stCq.routed pgMq = false := by decide +kernel
theorem meets_TierCopies_taken :
    entryB (stRing false (qEntry 3 0 5 0 1 0x8000) (some oShelf)) false (qEntry 3 0 5 0 1 0x8000) = true ∧
    entryB (stRing true (qEntry 5 0 5 64 0 0x010000000000) (some oShelf)) true (qEntry 5 0 5 64 0 0x010000000000) = true ∧
    entryB (stRing true (qEntry 5 0 5 64 0 0x010000000000) (some oAttic)) true (qEntry 5 0 5 64 0 0x010000000000) = true ∧
    (stRing true 0 (some oAttic)).tiers.migs.length < 4 ∧ QE.op (qEntry 3 0 5 0 1 0x8000) = 3 ∧
    QE.op (qEntry 5 0 5 64 0 0x010000000000) = 5 ∧ QE.handle (qEntry 5 0 5 64 0 0x010000000000) = 5 := by decide +kernel
def mShelf : Migration := ⟨false, false, 7, 5, 1, 0, 0x9000⟩
def mRefill : Migration := ⟨true, true, 7, 5, 3, 0, 0x010000000000⟩
def stMig (m : Migration) (o : Obj) : State := { stRing false 0 (some o) with tiers.migs := [m] }
theorem meets_TierCopies_complete :
    (stMig mShelf oShelf).tiers.migs[0]? = some mShelf ∧ (stMig mShelf oShelf).obj mShelf.handle = some oShelf ∧
    (stMig mShelf oShelf).tiers.moves = [] ∧ (stMig mShelf oShelf).placeDead mShelf = false ∧ mShelf.handle < 2 ^ 16 ∧
    mShelf.place + oShelf.size ≤ 0x20000000 ∧ (stMig mShelf oShelf).copyFault mShelf.source oShelf.size .none = none ∧
    (stMig mShelf oShelf).copyFault mShelf.source oShelf.size (.failed 0) = some (mShelf.source, 6) ∧
    (stMig mRefill oShelf).placeDead mRefill = false ∧ mRefill.refill = true ∧
    (stMig mRefill oShelf).copyFault mRefill.source oShelf.size .none = none := by decide +kernel
/-- Die-unit descriptors: a SIGNAL with tally 3, a MOVE of 128 bytes from 0x1000 to 0x2000, one from the Attic. -/
def dSignal : Nat := struct [(0, 0, 4, 1), (0, 8, 8, 1), (0x3C, 16, 12, 3), (0x3C, 28, 1, 1)]
def dMove (src : Nat) : Nat := struct [(0, 0, 4, 1), (0, 8, 8, 2), (8, 0, 26, 128), (0x10, 0, 52, src), (0x18, 0, 52, 0x2000)]
def stMove (d : Nat) : State :=
  { fields State.reset [(pgTir, F.com.ENABLE, 1), (pgTir, F.tir.DL_ATC_NS, 50)] with
    tiers.queue := [⟨0, d, false⟩], tiers.moves := [⟨0, d⟩] }
def mAttic : Migration := ⟨false, false, 7, 5, 1, 0, 0x9000⟩
def stLate : State := { stMove (dMove 0x010000000000) with
  tiers.objects := [(5, some oAttic)], tiers.migs := [mAttic], agate.fills := [{ fFill 0 0 with src := 0x010000000000 }] }
theorem meets_TierMoves :
    (stMove dSignal).tiers.queue = ⟨0, dSignal, false⟩ :: [] ∧ (stMove dSignal).enabled pgTir = true ∧ descOpcode dSignal = 1 ∧
    descTallyEn dSignal = true ∧ descOpcode (dMove 0x1000) = 2 ∧ descTallyEn (dMove 0x1000) = false ∧
    (stMove (dMove 0x1000)).tiers.moves.length < 8 ∧
    (stMove (dMove 0x1000)).tiers.moves[0]? = some ⟨0, dMove 0x1000⟩ ∧
    moveSrc (dMove 0x1000) + moveLen (dMove 0x1000) ≤ 0x20000000 ∧ moveDst (dMove 0x1000) < 0x20000000 ∧
    (stMove (dMove 0x1000)).rangeCheck .firmware true (moveDst (dMove 0x1000)) (moveLen (dMove 0x1000)) = none ∧
    4096 * 0 < moveLen (dMove 0x010000000000) ∧ stLate.running = false ∧ stLate.lateTier (moveSrc (dMove 0x010000000000) + 4096 * 0) = some 3 ∧
    stLate.tiers.migs[0]? = some mAttic ∧ stLate.obj mAttic.handle = some oAttic ∧ stLate.lateTier (mAttic.source + 4096 * 0) = some 3 ∧
    stLate.agate.fills[0]? = some { fFill 0 0 with src := 0x010000000000 } ∧ stLate.lateTier (0x010000000000 + 0 + 4096 * 0) = some 3 := by
  decide +kernel
/-- Region 0 of stack 0 belongs to KEY 17 without protection; object 5 lies in the Cellar; aperture 0 is tenant 3's, of one page. -/
def oCellar : Obj := ⟨0, 2, 300, false, 2, 3, 0x10000, .resident, none⟩
def stCellar : State := { fields State.reset [(pgRgn 0, F.rgn.RG_CFG_VALID 0, 1), (pgRgn 0, F.rgn.RG_SPAN_LIMIT 0, 1),
  (pgRgn 0, F.rgn.RG_CFG_KEY 0, 17), (⟨.lnk, 0⟩, F.lnk.LINK_STAT_STAGE, 4), (pgTir, F.tir.AP_CFG_VALID 0, 1), (pgTir, F.tir.AP_CFG_TENANT 0, 3),
  (pgTir, F.tir.AP_CFG_WRITABLE 0, 1), (pgTir, F.tir.AP_CFG_MODULES 0, 1), (pgTir, F.tir.AP_BASE_HOST 0, 0x7000), (pgTir, F.tir.AP_PAGES_PAGES 0, 1)]
  with tiers.objects := [(5, some oCellar)] }
/-- No region is valid: no unit carries a tag. -/
def stBare : State := { State.reset with regs := [], tiers.objects := [(5, some oCellar)] }
theorem bare_tags (c x : Nat) : stBare.tagOff c x = none := by
  have v : ∀ c, ∀ j < 64, stBare.fon (pgRgn c) (F.rgn.RG_CFG_VALID j) = false := by
    intro c j hj
    have h : ∀ j < 64, (F.rgn.RG_CFG_VALID j).reset = 0 := by decide
    simp [State.fon, State.fget, stBare, Store.get, h j hj]
  unfold State.tagOff State.regionAt
  rw [List.find?_eq_none.2]
  intro j hj
  simp [State.regionHas, v c j (List.mem_range.1 hj)]
theorem meets_TierAccesses :
    stCellar.inCellar (0x020000000000 + 5) = true ∧ stCellar.rangeCheck .firmware false (0x020000000000 + 5) 40 = none ∧
    stCellar.badUnit (unitStarts (0x020000000000 + 5) 40) = none ∧ winOf (0x020000000000 + 5) = .cellar 0 5 ∧
    stCellar.rangeCheck .firmware true (0x020000000000 + 5) 4 = none ∧ (∀ j < 4, stCellar.tagOff 0 (5 + j) = none) ∧
    winOf (0x4000000000000 + 5 * 2 ^ 34 + 8) = .object 5 8 ∧ stBare.obj 5 = some oCellar ∧ oCellar.place % 4096 = 0 ∧
    stBare.rangeCheck .firmware true (0x4000000000000 + 5 * 2 ^ 34 + 8) 4 = none ∧
    (stRing false 0 none).rangeCheck .firmware false 0x010000000000 64 = none ∧
    (∀ j < 8, (stCellar.moduleOf (0x7000 + j)).isSome = true) ∧ stCellar.rangeCheck (.tenant 3) false (0x8000000000000 + 0x7000) 8 = none ∧
    stCellar.rangeCheck (.tenant 3) true (0x8000000000000 + 0x7000) 8 = none ∧
    stCellar.rangeCheck .firmware true (0x8000000000000 + 0x17000) 8 = none := by decide +kernel

/-- The package of an INSTALL at Shelf address 0; slot 3 with bank 0 active and both banks VALID. -/
def stAtc : State :=
  let s0 := bootFields State.reset [(pgSlot, F.slot.SL_STAT_ACTIVE 3, 0), (pgSlot, F.slot.SL_STAT_VALID 3, 3), (pgSlot, F.slot.SL_STAT_FLOOR 3, 1)]
  fields s0 [(pgAtc, F.com.ENABLE, 1), (pgAtc, F.atc.ATC_SRC_LEN_LENGTH, 8192)]
def iAtc : Install := ⟨3, 1, 0, 8192, true⟩
theorem meets_AtticCommands :
    stAtc.reaches (.host 0) pgAtc 0x040 = true ∧ stAtc.enabled pgAtc = true ∧ stAtc.log.pwrFail = false ∧
    stAtc.fget pgAtc F.atc.ATC_SRC_ADDR = 0 ∧ ((stAtc.releaseHolds (.host 0)).devRead .firmware 0 4096).2.toOption.isSome = true ∧
    bitAt (stAtc.fget pgSlot (F.slot.SL_STAT_VALID 3)) (1 - stAtc.activeBank 3) = true ∧ stAtc.fon pgSlot (F.slot.SL_SVC_REPLACING 3) = false ∧
    stAtc.homed (2 * 3 + (1 - stAtc.activeBank 3)) = false ∧ stAtc.homed (2 * 3) = false ∧
    ({ stAtc with attic.install := some iAtc }.devRead .firmware 0 8192).2.toOption.isSome = true := by decide +kernel
theorem meets_AtticCommands_ready : stAtc.selReady (.core 0) := by unfold State.selReady; decide +kernel
/-- A package header that every check accepts whose outcome the spec's plain values decide: only the signature and the key remain. -/
def pkHead : List Byte := leBytes 64 (withCheck 64 (struct [(0, 0, 4, 1), (0, 8, 8, 0x50), (8, 16, 16, 2), (0xC, 0, 5, 3), (0xC, 8, 1, 1),
  (0x10, 0, 21, 1), (0x14, 0, 13, 1), (0x18, 0, 13, 1)])) ++ List.replicate 4032 0
def stPk : State := { bootFields stAtc [(⟨.vst, 0⟩, F.vst.VSTORE_FAMILY_MEMBER, 0), (⟨.vst, 0⟩, F.vst.VSTORE_FAMILY_PARAM_SET, 0)] with
  tiers.objects := [(5, some ⟨0, 2, 8192, false, 1, 0, 0, .resident, none⟩)], attic.wear := [(248 * 7, some 0)] }
theorem meets_AtticCommands_header (sig : Config.pssVerify (stPk.signerKey 1) (pkHead.take 0x280) (slice pkHead 0x280 512) = true)
    (key : (stPk.bankKeyOf pkHead).isSome = true) : stPk.headerCheck pkHead 3 (0x4000000000000 + 5 * 2 ^ 34) 8192 = none := by
  have c : checkStruct 64 (leNat (pkHead.take 64)) = .clean (leNat (pkHead.take 64)) := by decide +kernel
  have e : PK.signer (leNat (pkHead.take 64)) = 1 := by decide +kernel
  have k : (stPk.bankKeyOf pkHead).isNone = false := by cases h : stPk.bankKeyOf pkHead <;> simp_all
  unfold State.headerCheck
  rw [c]
  dsimp only
  rw [e, sig, k]
  decide +kernel
def stSel (op : Nat) : State := { stAtc with
  attic.selWrite := some ⟨3, op, false, selRecord 3 1 3 9 5 6 7 8 1⟩, attic.install := if op = 1 then some iAtc else none }
theorem meets_AtticSelection_write : (∀ op < 5, (stSel op).attic.selWrite = some ⟨3, op, false, selRecord 3 1 3 9 5 6 7 8 1⟩) ∧
    (stSel 1).attic.install = some iAtc ∧ iAtc.slot = 3 ∧ selGood 3 1 (selRecord 3 1 3 9 5 6 7 8 1) = true := by decide +kernel
def rLayer : ReplLayer := ⟨[(0, 5, 0)], [(1, 6)], [5]⟩
def stRepl (mode : Nat) (r : Option Replacement) : State :=
  let s0 := fields stAtc [(pgSlot, F.slot.SL_SVC_REPLACING 3, 1), (pgSlot, F.slot.SL_CFG_REPL_MODE 3, mode)]
  { s0 with attic.repl := match r with | some r => [(3, some r)] | none => [],
            tiers.objects := [(5, some ⟨0, 2, 64, false, 3, 0, 0x010000000000 + 6 * 2 ^ 33, .resident, some (0x010000000000 + 6 * 2 ^ 33)⟩)] }
theorem meets_AtticSelection_replace :
    (stRepl 0 none).fon pgSlot (F.slot.SL_SVC_REPLACING 3) = true ∧ (stRepl 0 none).fon pgSlot (F.slot.SL_CFG_REPL_MODE 3) = false ∧
    Store.get none (stRepl 0 none).attic.repl 3 = none ∧
    Store.get none (stRepl 0 (some ⟨[rLayer], 0, 0, 2, 0⟩)).attic.repl 3 = some ⟨[rLayer], 0, 0, 2, 0⟩ ∧
    (stRepl 0 (some ⟨[rLayer], 0, 0, 2, 0⟩)).passed rLayer 0 = true ∧
    (stRepl 0 (some ⟨[rLayer], 0, 0, 2, 0⟩)).refilled 3 rLayer = true ∧ rLayer.opens.Nodup ∧ (∀ p ∈ rLayer.opens, p.1 < 2 ∧ p.2 < 4096) ∧
    (stRepl 1 none).fon pgSlot (F.slot.SL_CFG_REPL_MODE 3) = true ∧
    (stRepl 1 none).pins 3 (1 - (stRepl 1 none).fget pgSlot (F.slot.SL_SVC_GEN 3)) = 0 ∧ Store.wf none (stRepl 1 none).tiers.objects = true := by
  decide +kernel

theorem meets_OnyxResponses_spdm : ({ State.reset with onyx.siteChain := some [1] }).onyx.siteChain = some [1] ∧ 2 ≤ (2 : Fin 8).val := by decide
/-- The mailbox page enabled, idle or busy; firmware image 0 active, both VALID. -/
def stMbx (busy : Nat) : State :=
  let s0 := bootFields State.reset [(pgMbx, F.mbx.BOOT_STAT_ENROLLED, 1), (pgMbx, F.mbx.BOOT_STAT_IMAGE, 0), (pgMbx, F.mbx.BOOT_STAT_SVN, 4),
    (pgMbx, F.mbx.FW_FLOOR_FLOOR, 2)]
  { fields s0 [(pgMbx, F.com.ENABLE, 1), (pgMbx, F.mbx.MBX_RESULT_BUSY, busy), (pgMbx, F.mbx.MBX_LEN_LENGTH, 64)] with
    attic.fwActive := some 0, attic.fwValid := some 3 }
theorem meets_MailboxCommands :
    (stMbx 1).reaches (.host 0) pgMbx 0x040 = true ∧ (stMbx 1).fon pgMbx F.mbx.MBX_RESULT_BUSY = true ∧
    (stMbx 0).enrolled = true ∧ ({ bootFields (stMbx 0) [(pgMbx, F.mbx.BOOT_STAT_ENROLLED, 0)] with net.site := [(4, some 0)] }).enrolled = false ∧
    (((stMbx 0).releaseHolds (.core 0)).devRead .firmware ((stMbx 0).fget pgMbx F.mbx.MBX_SRC_ADDR) 64).2.toOption.isSome = true ∧
    (((stMbx 0).releaseHolds (.core 0)).devRead .firmware ((stMbx 0).fget pgMbx F.mbx.MBX_SRC_ADDR) tokenLen).2.toOption.isSome = true ∧
    (((stMbx 0).releaseHolds (.core 0)).bundleCheck (List.replicate 64 0)) = some 9 ∧ bitAt (stMbx 0).fwValid (1 - (stMbx 0).fwActive) = true := by
  decide +kernel
theorem meets_MailboxCommands_ready : (stMbx 0).mbxReady (.core 0) := by unfold State.mbxReady; decide +kernel
theorem meets_MailboxCommands_unclaimed :
    ({ bootFields (stMbx 0) [(pgMbx, F.mbx.BOOT_STAT_ENROLLED, 0)] with net.site := [(4, some 0)] }).unclaimed = false := by
  simp [State.unclaimed, Store.get]
def stCmdDone (c : MbxCmd) : State := { stMbx 1 with onyx.mbx := some c }
theorem meets_MailboxEffects (c : MbxCmd) : (stCmdDone c).onyx.mbx = some c ∧ (stCmdDone c).tenantsGone = true :=
  ⟨rfl, (by decide +kernel : (stMbx 1).tenantsGone = true)⟩
/-- Bank 6 (slot 3, bank 0) is VALID with a record of SIGNER 0. -/
def stBank (req : Bool) : State := { bootFields State.reset [(pgSlot, F.slot.SL_STAT_VALID 3, 1), (pgSlot, F.slot.SL_STAT_ACTIVE 3, 0)] with
  attic.records := [(6, List.replicate 1156 1)], onyx.policy := some (Config.sha512 [], req) }
theorem meets_OnyxResponses_keys : bitAt ((stBank false).fget pgSlot (F.slot.SL_STAT_VALID 3)) 0 = true ∧
    PK.signer (leNat (((stBank false).bankRecord 6).take 64)) = 1 := by decide +kernel
theorem meets_OnyxResponses_policy : (stBank false).policyMet = true := by unfold State.policyMet; rw [show (stBank false).onyx.policy = some (Config.sha512 [], false) from rfl]; rfl

def stKs (k st : Nat) : State := { fields State.reset [(pgKs k, F.com.ENABLE, 1), (pgKs k, F.ks.KS_STAT_STATE, st)] with
  onyx.keys := [(k, some ⟨7, 8, 9⟩)] }
theorem meets_TenantSlots :
    (stKs 3 0).reaches (.host 0) (pgKs 3) 0x040 = true ∧ (stKs 3 1).ksKey 3 = some ⟨7, 8, 9⟩ ∧ (stKs 3 1).ksState 3 = 1 ∧
    (stKs 3 2).reaches (.host 0) (pgKs 3) 0x040 = true ∧ (stKs 3 2).ksState 3 = 2 ∧
    ({ fields (stKs 3 2) [(pgAgt 0, F.agt.AGT_STAT_STATE, 3)] with agate.tenant := 3 }).running = true ∧
    ({ stKs 3 5 with onyx.heldAct := [(3, some ⟨1, 2, 3⟩)] }.ksHeld 3).isSome = true ∧ (stKs 3 5).ksHeld 3 = none ∧ (stKs 3 3).ksState 3 = 3 := by
  decide +kernel
/-- Slot 3 with a tenant's object, and its region of stack 2; another tenant's object. -/
def stGone (st : Nat) (due : Bool) : State := { fields (stKs 3 st) [(pgRgn 2, F.rgn.RG_CFG_VALID 5, 1), (pgRgn 2, F.rgn.RG_CFG_KEY 5, 3),
  (pgRgn 2, F.rgn.RG_SPAN_LIMIT 5, 1)] with
  tiers.objects := [(5, some ⟨3, 0, 64, false, 1, 0, 0x4000, .resident, none⟩), (6, some ⟨4, 0, 64, false, 1, 0, 0x5000, .resident, none⟩)],
  agate.fillDue := due, onyx.heldAct := [(3, some ⟨1, 2, 3⟩)] }
theorem meets_TenantSlots_removal :
    (stGone 3 true).ksState 3 = 3 ∧ (stGone 3 true).tilesIdle = true ∧ (stGone 4 false).ksState 4 = 0 ∧ (stGone 4 false).ksState 3 = 4 ∧
    Store.wf none (stGone 4 false).tiers.objects = true ∧ (stGone 4 false).obj 5 = some ⟨3, 0, 64, false, 1, 0, 0x4000, .resident, none⟩ ∧
    (stGone 5 false).ksState 3 = 5 ∧ (stGone 5 false).fon (pgRgn 2) (F.rgn.RG_CFG_VALID 5) = true ∧
    (stGone 5 false).fget (pgRgn 2) (F.rgn.RG_CFG_KEY 5) = 3 ∧
    (stGone 5 false).fget (pgRgn 2) (F.rgn.RG_SPAN_BASE 5) * 2 ^ 21 ≤ 4096 ∧ 4096 < (stGone 5 false).fget (pgRgn 2) (F.rgn.RG_SPAN_LIMIT 5) * 2 ^ 21 ∧
    inRuns ((stGone 5 false).scrubRuns 3 2) 0x400000 = false ∧ (stGone 5 false).ksHeld 3 = some ⟨1, 2, 3⟩ ∧
    (stGone 5 false).fon pgMbx F.mbx.BOOT_STAT_DEBUG = false ∧ (fields (stGone 5 false) [(pgMbx, F.mbx.BOOT_STAT_DEBUG, 1)]).fon pgMbx
      F.mbx.BOOT_STAT_DEBUG = true := by decide +kernel

/-- Port 3 up and enabled; this package's address and its twin's; port 5 joins the twins. -/
def stPort : State := { bootFields (fields State.reset [(pgEth 3, F.com.ENABLE, 1), (pgEth 3, F.eth.PORT_STAT_LINK_UP, 1), (pgGl 3, F.com.ENABLE, 1)])
    [(pgTwin, F.eth.TWIN_CFG_PORTS, 32), (pgTwin, F.eth.TWIN_CFG_SECONDARY, 0), (⟨.vst, 0⟩, F.vst.VSTORE_FAMILY_MEMBER, 0xA2)] with
  net.site := [(7, some 0x20), (8, some 1), (9, some 2), (17, some 0x10)] }
def fOne : Frame := ⟨1, 2, none, 0x88B5, [1, 2, 3]⟩
def qOne (e : Option (Nat × Bool)) : QFrame := ⟨fOne, 2, e⟩
def stQueued (e : Option (Nat × Bool)) (ms : Nat) : State := { fields stPort [(pgMs 3, F.ms.MS_CTRL_ENABLE, ms), (pgMs 3, F.ms.MS_SA_TX_VALID 0, ms)] with
  net.ports := [(3, ({} : Port).putQueue 5 [qOne e])] }
/-- The transmit ring of port `n` (8: the management port) with one entry, its frame at Shelf address 0x1000. -/
def stTxRing (n : Nat) : State := { fields stPort [(ringPage n, F.com.ENABLE, 1), (ringPage n, F.eth.TXQ_TAIL_TAIL, 1)] with
  shelf := Store.write 0 [] 0 (leBytes 32 (withCheck 32 (placeAt 0 0 52 0x1000 + placeAt 8 0 14 64))) }
theorem meets_PortTransmit :
    (∀ ms < 2, (stQueued none ms).linkUp 3 = true ∧ ((stQueued none ms).port 3).next 5 = some (0, qOne none) ∧
      (stQueued none ms).mayStart 3 5 fOne = true ∧ (stQueued none ms).msOn 3 = (ms == 1)) ∧
    (∀ x ≤ 7, 5 < x → ((stQueued none 0).port 3).next x = none) ∧ ((stQueued (some (4, true)) 0).port 3).next 5 = some (0, qOne (some (4, true))) ∧
    (∀ n ∈ [3, 8], (stTxRing n).enabled (ringPage n) = true ∧
      ((stTxRing n).devRead .firmware ((stTxRing n).txEntry n 0) 32).2.toOption.isSome = true ∧
      txCheck n (withCheck 32 (placeAt 0 0 52 0x1000 + placeAt 8 0 14 64)) = none ∧
      ((stTxRing n).devRead .firmware 0x1000 64).2.toOption.isSome = true) ∧
    checkStruct 32 (withCheck 32 (placeAt 0 0 52 0x1000 + placeAt 8 0 14 64)) = .clean (withCheck 32 (placeAt 0 0 52 0x1000 + placeAt 8 0 14 64)) ∧
    State.reset.reaches (.host 0) (ringPage 3) 0x0A4 = true := by decide +kernel
def stMgt (att full : Nat) (e : Option Nat) : State :=
  { fields State.reset [(pgMgt, F.mgt.MGT_CFG_FULL_DUPLEX, full)] with net.mgt := [⟨[1, 2], e, att, none⟩] }
theorem meets_ManagementPort : (stMgt 3 0 none).net.mgt = ⟨[1, 2], none, 3, none⟩ :: [] ∧
    (stMgt 3 0 none).fon pgMgt F.mgt.MGT_CFG_FULL_DUPLEX = false ∧ (stMgt 15 1 (some 4)).fon pgMgt F.mgt.MGT_CFG_FULL_DUPLEX = true ∧
    State.reset.reaches (.host 0) pgMgt 0x050 = true := by decide +kernel
def stIdle (lpi : Nat) (waking : Bool) : State :=
  { fields stPort [(pgEth 3, F.eth.PORT_CFG_LPI_EN, 1), (pgEth 3, F.eth.PORT_STAT_LPI, lpi)] with
    net.ports := [(3, { lpiPartner := true, waking := waking })] }
theorem meets_PortLinks :
    (fields stPort [(pgEth 3, F.eth.PORT_STAT_LINK_UP, 0), (pgEth 3, F.eth.PORT_CFG_MODE, 1)]).linkUp 3 = false ∧
    (fields stPort [(pgEth 3, F.eth.PORT_STAT_LINK_UP, 0), (pgEth 3, F.eth.PORT_CFG_MODE, 1)]).fget (pgEth 3) F.eth.PORT_CFG_MODE ≠ 0 ∧
    stPort.enabled (pgEth 3) = true ∧ 48 ≤ stPort.fget (pgEth 3) F.eth.PORT_CFG_MAX_PAYLOAD ∧ stPort.linkUp 3 = true ∧
    (stIdle 0 false).fon (pgEth 3) F.eth.PORT_CFG_LPI_EN = true ∧ (stIdle 0 false).fon (pgEth 3) F.eth.PORT_STAT_PARTNER_KNQ = false ∧
    ((stIdle 0 false).port 3).lpiPartner = true ∧ ((stIdle 0 false).port 3).idle = true ∧
    ((stIdle 0 false).gatesAt 3 0) = (0, Gate.open, none) ∧ Gate.open.lpiOk = true ∧
    (stIdle 1 true).fon (pgEth 3) F.eth.PORT_STAT_LPI = true ∧ ((stIdle 1 true).port 3).waking = true ∧
    Store.get none ({ State.reset with onyx.caks := [(2, some [7])] }).onyx.caks 2 = some [7] ∧
    Store.get none ({ State.reset with onyx.caks := [(2, some [7])] }).onyx.caks 3 = none := by decide +kernel
theorem meets_takesCtl : stPort.takesCtl 3 := by unfold State.takesCtl; decide +kernel
def stTwin (role failed silent : Nat) : State := fields stPort [(pgTwin, F.eth.TWIN_STAT_STATE, role), (pgTwin, F.eth.TWIN_HEALTH_FAILED, failed),
  (pgTwin, F.eth.TWIN_STAT_SILENT, silent)]
theorem meets_TwinRoles :
    (∀ role < 4, ∀ failed < 2, twState (stTwin role failed 1) = role ∧ (stTwin role failed 1).ownFailed = (failed == 1)) ∧
    stPort.twinPort 5 = true ∧ stPort.twinPort 3 = false ∧ stPort.twinMac = 0x20 ∧ stPort.secondary = false ∧
    (bootFields stPort [(pgTwin, F.eth.TWIN_CFG_SECONDARY, 1)]).secondary = true ∧ stPort.hasTwin = true ∧ (stTwin 1 0 1).silent = true ∧
    (stTwin 1 0 1).linkLost = false ∧ stPort.record 8 ≠ 0 ∧ stPort.record 9 ≠ 0 ∧ stPort.reaches (.core 1) pgTwin 0x204 = true ∧
    stPort.reaches (.core 1) pgTwin 0x208 = true ∧
    ({ fields (stTwin 1 0 1) [(pgAgt 0, F.agt.AGT_STAT_STATE, 3)] with host.services := [⟨0, 0, 0, 0, 0, 0, 0, 0, 0⟩] }).running = true := by decide +kernel
theorem meets_TwinRoles_send : (bootFields stPort [(pgTwin, F.eth.TWIN_CFG_PORTS, 8)]).takesCtl 3 ∧
    (bootFields stPort [(pgTwin, F.eth.TWIN_CFG_PORTS, 8)]).twinPort 3 = true := by unfold State.takesCtl; decide +kernel
/-- A list of one gate entry at the start of a FIRMWARE object on the Shelf. -/
def stGl (entry : Nat) : State := { fields stPort [(pgGl 3, F.gl.GL_ADDR_ADDR, 0x4000000000000 + 5 * 2 ^ 34), (pgGl 3, F.gl.GL_LEN_ENTRIES, 1),
  (pgGl 3, F.gl.GL_CYCLE_NS, 5000)] with
  tiers.objects := [(5, some ⟨0, 3, 64, false, 1, 0, 0, .resident, none⟩)], shelf := Store.write 0 [] 0 (leBytes 8 entry) }
def gEntry : Nat := withCheck 8 (placeAt 0 0 32 5000 + placeAt 4 8 7 0x7F)
def lGate : GateList := ⟨[⟨5000, 0x7F, true, true⟩], 5000, 3000⟩
def stPend (t : BitVec 64) : State := { stPort with net.ports := [(3, { pend := some lGate })], time := t }
theorem meets_GateLists :
    stPort.reaches (.host 0) (pgGl 3) 0x044 = true ∧ stPort.enabled (pgGl 3) = true ∧
    (fields stPort [(pgGl 3, F.gl.GL_STAT_PENDING, 1)]).fon (pgGl 3) F.gl.GL_STAT_PENDING = true ∧
    checkStruct 8 gEntry = .clean gEntry ∧ reservedSet 8 gEntry [(0, 0, 32), (4, 0, 7), (4, 8, 7), (4, 16, 2)] = false ∧
    (((stGl gEntry).releaseHolds (.host 0)).devRead .firmware ((stGl gEntry).fget (pgGl 3) F.gl.GL_ADDR_ADDR) 8).2.toOption
      = some (leBytes 8 gEntry) ∧ leNat (slice (leBytes 8 gEntry) 0 8) = gEntry ∧
    (stGl gEntry).inFirmware ((stGl gEntry).fget (pgGl 3) F.gl.GL_ADDR_ADDR) 8 = true ∧
    checkStruct 8 (leNat (slice (leBytes 8 3) 0 8)) = .failed ∧ ((stPend 0).port 3).pend = some lGate ∧ (stPend 0).time.toNat < lGate.start ∧
    lGate.start ≤ (stPend 3000).time.toNat := by decide +kernel
def stShed (x : Option Shed) : State := { fields stPort [(pgEth 3, F.eth.PORT_CFG_SHED_EN, 1), (pgEth 3, F.eth.PORT_STAT_PARTNER_KNQ, 1)] with
  net.ports := [(3, { shed := x })] }
theorem meets_LaneShedding :
    (stShed none).ungated 3 = true ∧ (stShed none).reaches (.host 0) (pgEth 3) 0x054 = true ∧ (stShed none).mayShed 3 = true ∧
    (stShed none).fget (pgEth 3) F.eth.PORT_STAT_CUR_WIDTH = 0 ∧ ((stShed none).port 3).shed = none ∧
    (stShed none).chooseSwitch 3 1 0 = some 20000 ∧ (stShed none).shedReason 3 20000 1 = none ∧ (stShed none).shedReason 3 20000 3 = some 3 ∧
    ((stShed (some ⟨true, 20000, 1, false⟩)).port 3).shed = some ⟨true, 20000, 1, false⟩ ∧ (stShed none).macBase < 0x11 := by decide +kernel

/-- Die 0's communicator 0 of two members, this chip rank 0, in state `st`; the tenant's object 5 on the Shelf. -/
def stComm (st : Nat) (e : ColEngine) : State := { fields State.reset [(pgCol 0, F.com.ENABLE, 1), (pgComm 0, F.comm.CM_MASK_MASK 0, 3),
  (pgComm 0, F.comm.PR_CFG_VALID 0, 1), (pgComm 0, F.comm.PR_CFG_VALID 1, 1), (pgComm 0, F.comm.PR_MAC_MAC_BASE 1, 0x100),
  (pgComm 0, F.comm.CM_STAT_STATE 0, st), (pgComm 0, F.comm.CM_STAT_SIZE 0, 2), (pgComm 0, F.comm.CM_OPSEQ_OPSEQ 0, 5)] with
  col := [(0, e)], tiers.objects := [(5, some ⟨0, 0, 4096, false, 1, 0, 0x4000, .resident, none⟩)] }
def aObj : Nat := 0x4000000000000 + 5 * 2 ^ 34
/-- A descriptor: opcode, LEN, DST, ROOT, MAP, NEW_EPOCH, STEPS, SLOTS. -/
def dCol (op len dst root map new steps slots : Nat) : Nat := withCheck 64 (struct [(0, 0, 4, 1), (0, 8, 8, op), (8, 16, 16, new), (0xC, 0, 32, len),
  (0x10, 0, 52, if len = 0 then 0 else aObj), (0x18, 0, 52, dst), (0x24, 0, 52, map), (0x2C, 0, 6, root), (0x2C, 8, 6, steps), (0x2C, 16, 3, slots),
  (0x3C, 16, 12, 9), (0x3C, 28, 1, 1)])
def dSig : Nat := dCol 1 0 0 0 0 0 0 0
def dBar : Nat := dCol 9 0 0 0 0 0 0 0
def dResh : Nat := dCol 8 0 0 0 aObj 1 0 0
def dBcast : Nat := dCol 5 64 aObj 1 0 0 0 0
def dRing : Nat := dCol 7 64 aObj 0 0 0 4 2
def stDesc (x : Nat) (ops : List ColOp) : State := stComm 1 { queue := [⟨0, x, false⟩], running := ops }
theorem meets_Communicators : State.reset.reaches (.host 0) (pgComm 0) 0x040 = true ∧
    ((stComm 0 {}).commState 0 0 = 0 ∧ bitAt ((stComm 0 {}).fget (pgComm 0) (F.comm.CM_MASK_MASK 0)) ((stComm 0 {}).fget (pgComm 0) F.comm.SELF_PEER) = true ∧
      ∀ p ∈ bitList 64 ((stComm 0 {}).fget (pgComm 0) (F.comm.CM_MASK_MASK 0)), (stComm 0 {}).fon (pgComm 0) (F.comm.PR_CFG_VALID p) = true) ∧
    (stComm 1 {}).commState 0 0 = 1 ∧ (stComm 1 {}).outstanding 0 0 = [] := by decide +kernel
theorem taken_of {s : State} {d x : Nat} {rest : List DieOp} (q : DieOp) (h : ((s.colEng d).queue = q :: rest ∧ q.held = false ∧
    checkStruct 64 q.desc = .clean x) ∧ (s.putCol d { s.colEng d with queue := rest }).colCheck d x = none) : s.colTaken d x rest :=
  ⟨q, h.1.1, h.1.2.1, h.1.2.2, h.2⟩
theorem meets_CollectiveDescriptors_signal : (stDesc dSig []).colTaken 0 dSig [] := taken_of ⟨0, dSig, false⟩ (by decide +kernel)
theorem meets_CollectiveDescriptors_barrier : (stDesc dBar []).colTaken 0 dBar [] := taken_of ⟨0, dBar, false⟩ (by decide +kernel)
theorem meets_CollectiveDescriptors_reshard : ∀ ops ∈ [[], [({ desc := dBar, opseq := 4 } : ColOp)]], (stDesc dResh ops).colTaken 0 dResh [] := by
  intro ops h
  simp only [List.mem_cons, List.not_mem_nil, or_false] at h
  rcases h with rfl | rfl <;> exact taken_of ⟨0, dResh, false⟩ (by decide +kernel)
theorem noFence_of (s : State) (h : ∀ d < 2, ∀ k < 16, s.commState d k ≠ 2) : s.noFence := h
def stWait (x : Nat) : State := stComm 1 { waiting := [{ desc := x, opseq := 4 }] }
theorem meets_CollectiveDescriptors :
    CD.op dSig = 1 ∧ colLocal dSig = true ∧ CD.op dBar = 9 ∧ colLocal dBar = false ∧ CD.op dResh = 8 ∧ CD.comm dResh = 0 ∧
    (stDesc dResh []).commState 0 0 = 1 ∧ (∀ j < 16, j ≠ 0 → (stDesc dResh []).commState 0 j ≠ 2) ∧
    (stDesc dResh [{ desc := dBar, opseq := 4 }]).outstanding 0 0 = [{ desc := dBar, opseq := 4 }] ∧ seqBefore 4 5 = true ∧
    (stDesc dResh []).outstanding 0 0 = [] ∧ ((stDesc dResh []).colEng 0).hold = [] ∧
    ((stWait dBar).colEng 0).waiting = { desc := dBar, opseq := 4 } :: [] ∧ CD.op dBcast = 5 ∧ CD.root dBcast ≠ (stWait dBcast).commRank 0 0 := by
  decide +kernel
theorem meets_noFence : (stComm 1 {}).noFence := noFence_of _ (by decide +kernel)
/-- A frame from rank 1: type, opcode, OPSEQ, PSN, payload. -/
def hCol (type op opseq psn len : Nat) : Nat := withCheck 32 (struct [(0, 0, 4, 1), (0, 4, 4, type), (0, 8, 8, op), (4, 16, 6, 1), (8, 0, 32, opseq),
  (0xC, 0, 32, psn), (0x14, 16, 14, len)])
def fCol (h src : Nat) (data : List Byte) : Frame := ⟨1, src, none, 0x88B5, leBytes 32 h ++ data⟩
def payload : List Byte := List.replicate 64 7
def oBcast : ColOp := { desc := dBcast, opseq := 4, moving := true, due := 64, recv := [⟨1, 3, [5], 2⟩] }
def stRecv : State := stComm 1 { running := [oBcast] }
theorem header_of {s : State} {d : Nat} {f : Frame} {h : Nat} (e : checkStruct 32 (leNat (f.data.take 32)) = .clean h ∧ CH.comm h / 16 = d ∧
    s.enabled (pgCol d) = true ∧ 32 ≤ f.data.length ∧ s.fromMember d (CH.comm h % 16) h f.src = true ∧
    s.versionOk (pgCol d) (fieldAt h 0 0 4) = true) : s.colHeader d f h := e
theorem meets_CollectiveFrames_header : ∀ psn < 5, ∀ type < 4, 0 < type → stRecv.colHeader 0 (fCol (hCol type 5 4 psn 64) 0x103 payload) (hCol type 5 4 psn 64) := by
  intro psn hp type ht h0
  refine header_of ?_
  revert psn type
  decide +kernel
theorem meets_CollectiveFrames :
    checkStruct 32 (leNat ((fCol 3 0x103 payload).data.take 32)) = .failed ∧
    stRecv.fromMember 0 0 (hCol 1 5 4 4 64) 0x203 = false ∧ slice (fCol (hCol 1 5 4 4 64) 0x103 payload).data 32 64 = payload ∧
    seqBefore 5 (stRecv.fget (pgComm 0) (F.comm.CM_OPSEQ_OPSEQ 0)) = false ∧ (stRecv.colEng 0).hold = [] ∧
    stRecv.fget (pgCol 0) F.col.HOLD_BYTES_BYTES + 32 + 64 ≤ 2 ^ 20 ∧
    seqBefore (CH.opseq (hCol 1 5 4 4 64)) (stRecv.fget (pgComm 0) (F.comm.CM_OPSEQ_OPSEQ 0)) = true ∧
    CH.epoch (hCol 1 5 4 4 64) = stRecv.commEpoch 0 0 ∧ stRecv.opOf 0 0 4 = some oBcast ∧
    oBcast.recv.find? (·.rank == CH.src (hCol 1 5 4 4 64)) = some ⟨1, 3, [5], 2⟩ ∧ stRecv.disagrees 0 oBcast (hCol 1 5 4 4 64) payload = false ∧
    CH.off (hCol 1 5 4 4 64) + CH.len (hCol 1 5 4 4 64) ≤ stRecv.dstRegion 0 oBcast.desc ∧
    ((stRecv.bump (pgCol 0) F.col.RX_BYTES_COUNT 64).devWrite (stRecv.commTenant 0 (CD.comm oBcast.desc % 16)) (CD.dst oBcast.desc + 0) payload).2.toOption
      = some () ∧ CH.psn (hCol 1 5 4 2 64) < 3 ∧
    oBcast.recv.find? (fun f => f.rank == 1 && 0 < f.owed) = some ⟨1, 3, [5], 2⟩ := by decide +kernel
def oSend (tries last : Nat) : ColOp :=
  let fs : List SentFrame := if tries = 99 then [] else [⟨0, 0, 0, [], tries⟩]
  { desc := dBar, opseq := 4, moving := true, last := last, lastSend := some 0, send := [⟨1, 1, fs⟩] }
def oRing : ColOp := { desc := dRing, opseq := 4, moving := true, sent := 1, admitted := 1, due := 256 }
theorem meets_CollectiveProgress :
    (oSend 3 1).send.find? (·.rank == 1) = some ⟨1, 1, [⟨0, 0, 0, [], 3⟩]⟩ ∧
    3 < (stComm 1 {}).fget (pgCol 0) F.col.RETRIES_COUNT ∧ (stComm 1 {}).fget (pgCol 0) F.col.RETRIES_COUNT ≤ 8 ∧
    CD.op dRing = 7 ∧ (stComm 1 { running := [oRing] }).ringMayAdmit 0 oRing 2 = true ∧ oRing.stepIn 1 = false ∧
    (stComm 1 { running := [oSend 99 1] }).colComplete 0 (oSend 99 1) = true ∧ CD.comm dBar < 32 ∧
    (stComm 1 {}).fget (pgCol 0) F.col.ARR_HEAD_HEAD < 16 ∧
    (stComm 3 { running := [{ desc := dResh, opseq := 4, moving := true }] }).colComplete 0 { desc := dResh, opseq := 4, moving := true } = true := by
  decide +kernel

/-- Address 10.0.0.1, IPv4-mapped. -/
def ipOne : Nat := 0xFFFF0A000001
/-- A context in a state, and a status field more: path 0 through port 3, PAYLOAD64 16, tenant 1, peer 2. -/
def cxt (st : Nat) (more : List (Nat × Nat × Nat × Nat)) : Nat := struct ([(0, 0, 4, 1), (0, 4, 4, st), (0, 16, 4, 1), (0, 20, 4, 1), (0, 26, 6, 2), (4, 0, 20, 9),
  (4, 20, 8, 4), (8, 0, 8, 3), (8, 16, 16, 6), (0xC, 0, 16, 0x55), (0xC, 16, 8, 16), (0x10, 0, 128, ipOne), (0x20, 0, 32, 5), (0x24, 0, 16, 7),
  (0x28, 0, 32, 11), (0x2C, 0, 48, 0x77), (0x50, 0, 32, 0x10000), (0x48, 0, 32, 1), (0x60, 0, 15, 1)] ++ more)
/-- The XPT enabled with address 10.0.0.1 and UDP port 4792, peer 2 VALID, tenant 1 ACTIVE, context 7 on chip. -/
def stXpt (c : Nat) (x : Xpt) : State := { fields stPort [(pgXpt, F.com.ENABLE, 1), (pgXpt, F.xpt.XPT_CFG_UDP_PORT, 4792),
    (pgXpt, F.xpt.XPT_CFG_ADDR_VALID, 1), (pgXpt, F.xpt.ADDR_LO_IP 0, ipOne), (pgComm 1, F.comm.PR_CFG_VALID 2, 1),
    (pgKs 1, F.ks.KS_STAT_STATE, 2), (pgWin, F.win.WIN_SRC_ADDR, 0x2000), (pgCtx, F.ctx.CTX_SRC_ADDR, 0x1000)] with
  net.site := (2, some 0) :: stPort.net.site
  xpt := { x with ctx := [(7, some c)], lru := [7], keyed := [7], live := [(7, some (0x55, 1))] } }
theorem meets_CamernContexts_taken (c : Nat) : (stXpt c {}).ctxTaken ((stXpt c {}).releaseHolds (.core 0)) (.core 0) 7 c :=
  ⟨by simp only [stXpt]; rfl, rfl⟩
/-- The image of a context to create, at CTX_SRC. -/
def newImage : Nat := withCheck 64 (bitsOf (cxt 0 []) 0 512)
def stNew : State := { stXpt 0 {} with shelf := Store.write 0 [] 0x1000 (leBytes 256 newImage) }
theorem meets_CamernContexts_create : stNew.ctxTaken (stNew.releaseHolds (.core 0)) (.core 0) 7 0 ∧ cget 0 CX.state = 0 := ⟨⟨by decide +kernel, rfl⟩, by decide⟩
theorem meets_CamernContexts_image : (stNew.releaseHolds (.core 0)).fget pgCtx F.ctx.CTX_SRC_ADDR = 0x1000 ∧
    ((stNew.releaseHolds (.core 0)).devRead .firmware 0x1000 256).2.toOption = some (leBytes 256 newImage) ∧
    checkStruct 64 newImage = .clean newImage ∧ stNew.versionOk pgXpt (fieldAt newImage 0 0 4) = true ∧
    reservedSet 64 newImage CX.quarter0 = false ∧ ctxMalformed newImage = false ∧ cget newImage CX.cls ≤ 5 ∧ stNew.ctxBarred newImage = false ∧
    stNew.enabled pgXpt = true := by decide +kernel
theorem meets_CamernContexts :
    ctxMalformed 0 = true ∧ ctxMalformed (cxt 1 []) = false ∧ cget (cxt 1 []) CX.state = 1 ∧ (stXpt (cxt 1 []) {}).ctxBarred (cxt 1 []) = false ∧
    (stXpt (cxt 1 []) {}).xpt.keyed.contains 7 = true ∧ (stXpt (cxt 1 []) {}).enabled pgXpt = true ∧ cget (cxt 4 []) CX.state = 4 ∧
    cget (cxt 4 [(0x60, 1, 1, 0)]) CX.outstanding ≠ 0 ∧ cget (cxt 4 [(0x60, 0, 15, 2 ^ 15 - 1)]) CX.outstanding = 0 ∧
    cget (cxt 1 []) CX.state ∈ [1, 2, 6, 7] ∧ cget (cxt 4 []) CX.state ∉ [1, 2, 6, 7] ∧
    (((stXpt (cxt 1 []) {}).releaseHolds (.core 0)).devWrite .firmware 0x1000 (leBytes 256 (sealCtx (cput (cxt 1 []) CX.key 0)))).2.toOption
      = some () ∧ Store.get none (stXpt (cxt 3 []) { sent := [(7, some 1)] }).xpt.sent 7 = some 1 ∧
    1 < (stXpt (cxt 3 []) {}).prof 7 F.cong.CC_RETRIES_RETRIES ∧ (stXpt (cxt 3 []) {}).prof 7 F.cong.CC_RETRIES_RETRIES ≤ 8 := by decide +kernel
theorem path_of {s : State} {conn c p port : Nat} (h : (s.upPaths c)[Store.get 0 s.xpt.path conn % (s.upPaths c).length]? = some (p, port) ∧
    s.enabled (pgEth port) = true ∧ cget c CX.txPsn + 1 < 2 ^ 64) : s.nextPath conn c p port := h
theorem meets_nextPath : ∀ st < 8, (stXpt (cxt st []) {}).nextPath 7 (cxt st []) 0 3 := by
  intro st h; apply path_of; revert st; decide +kernel
/-- A work entry of queue 0: opcode, LEN, LOCAL, flags. -/
def xdesc (op len addr flags : Nat) : Nat := withCheck 64 (struct [(0, 0, 4, 1), (0, 8, 8, op), (0, 16, 4, flags), (4, 0, 32, 0x99),
  (8, 0, 20, if op = 1 then 0 else 7), (0xC, 0, 32, len), (0x10, 0, 52, addr), (0x18, 0, 16, if op = 1 then 0 else 5)])
/-- Queue 0 of tenant 1 with one entry in its ring, which is at `base`. -/
def stQueue (x : Nat) : State := { fields (stXpt (cxt 4 []) { tails := [(0, 1)] }) [(pgXpt, qf 0 F.xpt.Q_CTRL_ENABLE, 1), (pgXpt, qf 0 F.xpt.Q_CTRL_WQ_LOG2, 4),
    (pgXpt, qf 0 F.xpt.Q_CTRL_CQ_LOG2, 4), (pgXpt, qf 0 F.xpt.Q_CTRL_TENANT, 1), (pgXpt, qf 0 F.xpt.Q_WQ_BASE_ADDR, 0x4000000000000 + 5 * 2 ^ 34),
    (pgXpt, qf 0 F.xpt.Q_CQ_BASE_ADDR, 0x4000000000000 + 5 * 2 ^ 34 + 2048)] with
  tiers.objects := [(5, some ⟨1, 0, 4096, false, 1, 0, 0x4000, .resident, none⟩)]
  shelf := Store.write 0 [] 0x4000 (leBytes 64 x) }
theorem meets_CamernWork_start :
    State.reset.reaches (.host 0) pgXpt 0x044 = true ∧ (stQueue 0).enabled pgXpt = true ∧ (stQueue 0).xcqRoom 0 = true ∧
    (∀ x ∈ [xdesc 1 0 0 0, xdesc 2 64 (0x4000000000000 + 5 * 2 ^ 34 + 1024) 0, xdesc 4 0 0 0],
      ((stQueue x).headEntry 0).2.map (fun e => e.toOption) = some (some x) ∧ checkStruct 64 x = .clean x) ∧
    (stQueue 0).ctxOf 7 ≠ none ∧ XD.conn (xdesc 2 64 0 0) = 7 ∧
    ((stQueue (xdesc 2 64 (0x4000000000000 + 5 * 2 ^ 34 + 1024) 0)).headEntry 0).1.entryCheck 0 (xdesc 2 64 (0x4000000000000 + 5 * 2 ^ 34 + 1024) 0) = none ∧
    XD.chain (xdesc 1 0 0 8) = true ∧ XD.fence (xdesc 1 0 0 1) = true ∧
    ((stQueue (xdesc 1 0 0 9)).qget (XD.waitQ (xdesc 1 0 0 9)) F.xpt.Q_COMP_COMP + 2 ^ 32 - XD.waitCount (xdesc 1 0 0 9)) % 2 ^ 32 < 2 ^ 31 ∧
    ((stQueue (xdesc 1 0 0 9)).headEntry 0).1.entryCheck 0 (xdesc 1 0 0 9) = none ∧
    ((stQueue (xdesc 4 0 0 0)).headEntry 0).1.entryCheck 0 (xdesc 4 0 0 0) = some stFormat := by decide +kernel
/-- Queue 0 with one started entry. -/
def entryOf (x started ended status : Nat) (run : Bool) : XEntry := ⟨0, x, 3, 1, started, ended, 0, status, run⟩
def stEntry (e : XEntry) (ts : List Track) : State := { stQueue 0 with xpt.entries := [e], xpt.tracks := ts }
def trkOf (req send : Bool) (next got count owed tries : Nat) : Track :=
  let a := 0x4000000000000 + 5 * 2 ^ 34
  { conn := 7, msg := 0, req := req, send := send, len := 64, addr := a, entry := 3, next := next, got := got, count := count, owed := owed, tries := [(0, tries)] }
theorem room_of {s : State} {q : Nat} (h : s.xcqRoom q = true ∧ ∀ r ∈ s.xpt.records, r.queue ≠ q) : s.recordRoom q := h
theorem meets_CamernWork_room (e : XEntry) (h : e.queue = 0) : (stEntry e []).recordRoom e.queue ∧ (stEntry e []).xpt.entries[0]? = some e := by
  rw [h]; exact ⟨room_of ⟨by rfl, fun r (h : r ∈ ([] : List XRecord)) => by cases h⟩, rfl⟩
theorem meets_CamernWork_ends :
    descOpcode (xdesc 1 0 0 0) = 1 ∧ descOpcode (xdesc 2 0 0 0) = 2 ∧ descOpcode (xdesc 3 0 0 0) = 3 ∧ XD.len (xdesc 2 0 0 0) = 0 ∧
    XD.bump (xdesc 2 0 0 0) = false ∧ (entryOf (xdesc 2 64 0 0) 1 1 0 true).run = true ∧
    (stEntry (entryOf (xdesc 2 64 0 0) 1 1 0 true) []).msgs (xdesc 2 64 0 0) ≤ 1 := by decide +kernel
theorem alone_of {s : State} {e : XEntry} (h : (∀ y ∈ s.xpt.tracks, y.conn ≠ XD.conn e.desc) ∧
    ∀ y ∈ s.xpt.entries, (XD.conn y.desc = XD.conn e.desc ∨ y.serial = e.serial) → y = e) : s.aloneOn e := h
theorem meets_CamernWork_alone : ∀ op ∈ [2, 3], (stEntry (entryOf (xdesc op 64 (0x4000000000000 + 5 * 2 ^ 34) 0) 0 0 0 false) []).aloneOn
    (entryOf (xdesc op 64 (0x4000000000000 + 5 * 2 ^ 34) 0) 0 0 0 false) := by
  intro op h; apply alone_of; revert op; decide +kernel
theorem canRead_of {s : State} {who : Agent} {a n : Nat} (h : s.rangeCheck who false a n = none ∧ s.badUnit (unitStarts a n) = none) :
    s.canRead who a n := h
theorem meets_CamernWork_source : (stQueue 0).canRead ((stQueue 0).connAgent 7) (0x4000000000000 + 5 * 2 ^ 34) 64 := canRead_of (by decide +kernel)
theorem meets_CamernWork_run :
    cget (cxt 4 []) CX.state = 4 ∧ (cget (cxt 4 []) CX.txNext + 2 ^ 32 - cget (cxt 4 []) CX.txOldest) % 2 ^ 32 < 32 ∧
    cget (cxt 4 []) CX.outstanding + 1 < 2 ^ 15 ∧ 16 ≤ cget (cxt 4 []) CX.payload64 ∧ 64 ≤ (stQueue 0).pay 7 ∧ 64 ≤ (stQueue 0).msgSize 7 ∧
    cget (cxt 4 []) CX.inFlight = 0 ∧ 64 ≤ cget (cxt 4 []) CX.cwnd ∧ XD.len (xdesc 2 64 0 0) ≠ 0 ∧
    State.reset.reaches (.host 0) pgXpt 0x04C = true ∧ (stQueue 0).reaches (.host 0) pgXpt 0x04C = true ∧
    Store.get 0 (stQueue 0).hub.qsel (Requester.host 0).key = 0 ∧ (stQueue 0).qget 0 F.xpt.Q_CTRL_ENABLE = 1 ∧
    (stQueue 0).qget 0 F.xpt.Q_CTRL_WQ_LOG2 ≤ 12 ∧ (0 + 1) % 2 ^ (stQueue 0).qget 0 F.xpt.Q_CTRL_WQ_LOG2 = Store.get 0 (stQueue 0).xpt.tails 0 ∧
    (((stQueue (xdesc 1 0 0 0)).releaseHolds (.host 0)).headEntry 0).2.map (fun e => e.toOption) = some (some (xdesc 1 0 0 0)) ∧
    (stQueue 0).xcqRoom 0 = true := by decide +kernel
theorem meets_CamernWork_messages :
    (∀ req ∈ [true, false], (stEntry (entryOf (xdesc 3 64 0 0) 1 0 0 true) [trkOf req false 0 1 64 1 0]).whole (trkOf req false 0 1 64 1 0) = true) ∧
    (stEntry (entryOf (xdesc 3 64 0 0) 1 0 0 true) []).xpt.entries.find? (·.serial == (trkOf true false 0 1 64 1 0).entry)
      = some (entryOf (xdesc 3 64 0 0) 1 0 0 true) ∧
    (stEntry (entryOf (xdesc 3 64 0 0) 1 0 0 true) []).msgs (xdesc 3 64 0 0) ≤ 1 ∧ XD.conn (xdesc 3 64 0 0) = 7 ∧
    0 < (stQueue 0).prof 7 F.cong.CC_RETRIES_RETRIES ∧ (stQueue 0).prof 7 F.cong.CC_RETRIES_RETRIES ≤ Store.get 0 (trkOf true true 1 0 0 0 9).tries 0 ∧
    (stQueue 0).plen (trkOf true true 1 0 0 0 0) 0 = 64 ∧ bitAt (trkOf true true 1 0 0 0 0).acked 0 = false := by decide +kernel
/-- A Camern frame for context 7: type, payload bytes, more header fields. -/
def pkt (type size : Nat) (more : List (Nat × Nat × Nat × Nat)) : Frame :=
  let h := struct ([(0, 0, 4, 1), (0, 4, 4, type), (0, 16, 16, 6), (4, 0, 20, if type = 6 then 0 else 7), (4, 20, 8, 3), (8, 0, 64, 5)] ++ more)
  let p := ipPacket 0xFFFF0A000002 ipOne 0 7 4792 0 (leBytes 48 h ++ List.replicate (size + 16) 0)
  ⟨0x13, 0x77, none, p.1, p.2⟩
def hdr (f : Frame) : Nat := leNat ((slice f.data 28 48))
theorem packetIn_of {s : State} {f : Frame} {type conn c h : Nat} {data : List Byte} (g : Datagram) (e : s.camernFrame f = some g ∧
    h = leNat (g.payload.take 48) ∧ PH.type h = type ∧ s.enabled pgXpt = true ∧ g.clean = true ∧
    g.payload.length = 64 + (if type = 2 ∨ type = 5 ∨ 8 ≤ type then 0 else PH.plen h) ∧ reservedSet 48 h (packetFields type) = false ∧
    (if type = 6 then (s.xpt.live.filter fun e => match e.2 with | some (id, _) => id == PH.msg h % 2 ^ 16 | none => false).map (·.1) = [conn] ∧
        PH.version h = 1
      else PH.conn h = conn ∧ PH.inc h = cget c CX.incarnation ∧
        if cget c CX.state = 3 then PH.version h = 1 else PH.version h = cget c CX.negVersion) ∧
    s.ctxOf conn = some c ∧ cget c CX.state ≠ 0 ∧ (∀ m ∈ s.xpt.missed, m.conn ≠ conn) ∧ PH.keyGen h = cget c CX.keyGen ∧
    replayed c (PH.psn h) = false) (o : openPacket c h (g.payload.drop 48) = some data) : s.packetIn f type conn c h data :=
  ⟨g, e.1, e.2.1, e.2.2.1, e.2.2.2.1, e.2.2.2.2.1, e.2.2.2.2.2.1, e.2.2.2.2.2.2.1, e.2.2.2.2.2.2.2.1, e.2.2.2.2.2.2.2.2.1,
    e.2.2.2.2.2.2.2.2.2.1, e.2.2.2.2.2.2.2.2.2.2.1, e.2.2.2.2.2.2.2.2.2.2.2.1, e.2.2.2.2.2.2.2.2.2.2.2.2, o⟩
/-- The header's fields of each type, and the bytes it carries. -/
def pktMore (t : Nat) : List (Nat × Nat × Nat × Nat) × Nat := match t with
  | 1 => ([(0, 8, 1, 1), (0x14, 0, 22, 64), (0x1C, 0, 14, 64), (0x20, 0, 16, 5), (0x20, 16, 16, 1)], 64)
  | 2 => ([(0x14, 0, 22, 64), (0x20, 0, 16, 5), (0x20, 16, 16, 1)], 0)
  | 3 => ([(0, 8, 1, 1), (0x14, 0, 22, 64), (0x1C, 0, 14, 64)], 64)
  | 4 => ([(0x1C, 0, 14, 56)], 56)
  | 5 => ([(0x28, 8, 8, 3)], 0)
  | 6 => ([(0x10, 0, 16, 0x55), (0x1C, 0, 14, 32)], 32)
  | 7 => ([(0x10, 0, 16, 0x55), (0x1C, 0, 14, 32)], 32)
  | _ => ([], 0)
def pktOf (t : Nat) : Frame := pkt t (pktMore t).2 (pktMore t).1
/-- The state of the context a packet of a type is for. -/
def stateFor (t : Nat) : Nat := match t with | 6 => 2 | 7 => 3 | 9 => 5 | _ => 4
/-- Window 5: tenant 1, any connection, read and write, generation 1, 4096 bytes of object 5. -/
def winFive : Nat := withCheck 32 (struct [(0, 0, 4, 1), (0, 4, 1, 1), (0, 5, 2, 3), (0, 8, 4, 1), (0, 12, 1, 1), (0, 16, 16, 1),
  (8, 0, 52, 0x4000000000000 + 5 * 2 ^ 34), (0x10, 0, 40, 4096)])
def stPkt (t : Nat) (ts : List Track) (w : List (Nat × Nat)) : State := { stXpt (cxt (stateFor t) [(0x80, 0, 64, 4)]) { tracks := ts, wins := w } with
  tiers.objects := [(5, some ⟨1, 0, 4096, false, 1, 0, 0x4000, .resident, none⟩)] }
theorem meets_CamernPackets_in (t : Nat) (h0 : 0 < t) (h9 : t < 10) (data : List Byte)
    (o : openPacket (cxt (stateFor t) [(0x80, 0, 64, 4)]) (hdr (pktOf t)) (List.replicate ((pktMore t).2 + 16) 0) = some data) :
    (stPkt t [] []).packetIn (pktOf t) t 7 (cxt (stateFor t) [(0x80, 0, 64, 4)]) (hdr (pktOf t)) data := by
  refine packetIn_of ⟨ipOne, 4792, true, leBytes 48 (hdr (pktOf t)) ++ List.replicate ((pktMore t).2 + 16) 0⟩ ?_ ?_
  · clear o
    have : t = 1 ∨ t = 2 ∨ t = 3 ∨ t = 4 ∨ t = 5 ∨ t = 6 ∨ t = 7 ∨ t = 8 ∨ t = 9 := by omega
    rcases this with rfl | rfl | rfl | rfl | rfl | rfl | rfl | rfl | rfl <;> decide +kernel
  · have e : ∀ n l, (leBytes 48 n ++ l).drop 48 = l := fun _ _ => rfl
    rw [e]; exact o
theorem newMessage_of {u : State} {conn h : Nat} (e : ((PH.floor h + 2 ^ 16 - u.cof conn CX.rxBase % 2 ^ 16) % 2 ^ 16 = 0 ∨
      2 ^ 15 ≤ (PH.floor h + 2 ^ 16 - u.cof conn CX.rxBase % 2 ^ 16) % 2 ^ 16) ∧ (PH.msg h + 2 ^ 32 - u.cof conn CX.rxBase) % 2 ^ 32 < 32 ∧
    bitAt (u.cof conn CX.rxFail) ((PH.msg h + 2 ^ 32 - u.cof conn CX.rxBase) % 2 ^ 32) = false ∧
    bitAt (u.cof conn CX.rxDone) ((PH.msg h + 2 ^ 32 - u.cof conn CX.rxBase) % 2 ^ 32) = false ∧
    u.track conn (PH.msg h) false = none ∧ (u.xpt.tracks.filter (!·.req)).length < 16384 ∧ u.misshapen conn h none = false) : u.newMessage conn h := e
/-- The state after a packet of type `t` is marked. -/
def stMark (t : Nat) (ts : List Track) (w : List (Nat × Nat)) : State :=
  (stPkt t ts w).putCtx 7 (markPsn (cxt (stateFor t) [(0x80, 0, 64, 4)]) (PH.psn (hdr (pktOf t))))
theorem meets_CamernPackets_message : ∀ t ∈ [1, 2], (stMark t [] [(5, winFive)]).newMessage 7 (hdr (pktOf t)) ∧
    (stMark t [] [(5, winFive)]).winCheck 7 (hdr (pktOf t)) = none ∧ (stMark t [] []).winCheck 7 (hdr (pktOf t)) = some 4 ∧
    PH.bump (hdr (pktOf t)) = false ∧ PH.len (hdr (pktOf t)) = 64 ∧ 64 ≤ (stMark t [] []).pay 7 := by
  intro t h
  refine ⟨newMessage_of ?_, ?_⟩ <;> revert t <;> decide +kernel
theorem meets_CamernPackets_place : ({ stMark 1 [] [(5, winFive)] with
      xpt.tracks := [(stMark 1 [] [(5, winFive)]).trackerOf 7 (hdr (pktOf 1))] }.devWrite ((stMark 1 [] []).connAgent 7)
      (((stMark 1 [] [(5, winFive)]).trackerOf 7 (hdr (pktOf 1))).addr + PH.off (hdr (pktOf 1))) payload).2.toOption = some () ∧
    (stMark 2 [] [(5, winFive)]).nextPath 7 (markPsn (cxt 4 [(0x80, 0, 64, 4)]) (PH.psn (hdr (pktOf 2)))) 0 3 ∧
    (stMark 2 [] [(5, winFive)]).canRead ((stMark 2 [] []).connAgent 7) ((stMark 2 [] [(5, winFive)]).trackerOf 7 (hdr (pktOf 2))).addr 64 ∧
    (stMark 2 [] []).fget pgWin F.win.VIOL_HEAD_HEAD < 16 :=
  ⟨by decide +kernel, path_of (by decide +kernel), canRead_of (by decide +kernel), by decide +kernel⟩
def stOpen (t : Nat) (x : Track) : State := { stMark t [x] [] with xpt.entries := [entryOf (xdesc 3 64 0 0) 1 0 0 true] }
theorem meets_CamernPackets_requester :
    (∀ send ∈ [true, false], ∀ t ∈ [3, 4, 5], (stOpen t (trkOf true send 0 0 0 0 0)).track 7 (PH.msg (hdr (pktOf t))) true = some (trkOf true send 0 0 0 0 0) ∧
      (stOpen t (trkOf true send 0 0 0 0 0)).xpt.entries.find? (·.serial == 3) = some (entryOf (xdesc 3 64 0 0) 1 0 0 true) ∧
      (stOpen t (trkOf true send 0 0 0 0 0)).msgs (xdesc 3 64 0 0) ≤ 1) ∧
    PH.len (hdr (pktOf 3)) = 64 ∧ PH.off (hdr (pktOf 3)) = 0 ∧ 0 < (stOpen 3 (trkOf true false 0 0 0 0 0)).pay 7 ∧
    PH.plen (hdr (pktOf 3)) = min ((stOpen 3 (trkOf true false 0 0 0 0 0)).pay 7) 64 ∧ PH.last (hdr (pktOf 3)) = true ∧
    ((stOpen 3 (trkOf true false 0 0 0 0 0)).devWrite ((stMark 3 [] []).connAgent 7) (0x4000000000000 + 5 * 2 ^ 34) payload).2.toOption = some () ∧
    PH.status (hdr (pktOf 5)) ≠ 0 ∧ (stOpen 4 (trkOf true true 1 0 0 0 0)).sampleValid 7 0 0 = true ∧
    0 ≤ (stMark 4 [] []).prof 7 F.cong.CC_TARGET_NS_TARGET_NS ∧ 0 < cget (cxt 4 []) CX.cwnd ∧
    (let v := leNat (leBytes 56 (struct [(8, 0, 4, 1), (0x14, 0, 1, 1)])); fieldAt v 8 0 4 = 1 ∧ fieldAt (bitsOf v (8 * 0x10) 320) 4 0 2 = 1) ∧
    (stMark 6 [] []).commonVersion 2 = some 1 := by decide +kernel
/-- Context 9's image in the table, which is object 5. -/
def stSpill (x : Xpt) : State := { fields (stXpt 0 x) [(pgCtx, F.ctx.CTX_TABLE_ADDR, 0x4000000000000 + 5 * 2 ^ 34)] with
  tiers.objects := [(5, some ⟨1, 3, 65536, false, 1, 0, 0x10000, .resident, none⟩)]
  shelf := Store.write 0 [] (0x10000 + 2304) (leBytes 256 (sealCtx (cxt 4 []))) }
theorem meets_CamernSpillAndWindows :
    (stSpill { fetching := [9] }).xpt.fetching = 9 :: [] ∧ (stSpill {}).xpt.wanted = [] ∧
    (((stSpill {}).fput pgCtx F.ctx.FETCH_NS_MAX_NS 5).ctxLoad 9).2.toOption.isSome = true ∧
    (stSpill { writing := [(9, cxt 4 [])] }).xpt.writing = (9, cxt 4 []) :: [] ∧
    ((stSpill {}).devWrite .firmware ((stSpill {}).fget pgCtx F.ctx.CTX_TABLE_ADDR + 256 * 9) (leBytes 256 (sealCtx (cxt 4 [])))).2.toOption = some () ∧
    (stSpill { missed := [⟨9, 3, fOne, 0⟩] }).xpt.missed[0]? = some ⟨9, 3, fOne, 0⟩ ∧ (stSpill { winCmd := some (5, 2) }).xpt.winCmd = some (5, 2) := by
  decide +kernel
def stWin (w : Nat) : State := { stPkt 1 [] [] with shelf := Store.write 0 [] 0x2000 (leBytes 32 w) }
theorem meets_CamernSpillAndWindows_windows : (stWin winFive).winReady (.core 0) ∧
    (∀ w ∈ [winFive, 0], (((stWin w).releaseHolds (.core 0)).devRead .firmware ((stWin w).fget pgWin F.win.WIN_SRC_ADDR) 32).2.toOption = some (leBytes 32 w) ∧
      checkStruct 32 w = .clean w) ∧ (stWin winFive).winImageCheck winFive = none ∧ (stWin 0).winImageCheck 0 = some 9 ∧
    (((stWin 0).releaseHolds (.core 0)).devWrite .firmware ((stWin 0).fget pgWin F.win.WIN_SRC_ADDR) (leBytes 32 winFive)).2.toOption = some () :=
  ⟨by unfold State.winReady; decide +kernel, by decide +kernel⟩

def stLog (x : EventLog) : State := { bootFields State.reset [(pgElog, F.elog.LOG_HEAD_SEQ, 5), (pgElog, F.elog.LOG_OLDEST_SEQ, 2), (pgElog, F.elog.BOOT_PROGRESS_BOOT, 3)] with log := x }
def img5 : Nat := withCheck 32 (placeAt 8 0 32 5)
def stServo (mode st : Nat) (b : TimeBase) : State :=
  { fields State.reset [(pgServo, F.servo.SERVO_CTRL_MODE, mode), (pgServo, F.servo.SERVO_STAT_STATE, st), (pgServo, F.servo.PPS_OUT_CFG_EN, 1)] with
    tbase := b, time := 2999999990, uptime := 10 }
theorem meets_TimeAndLog :
    State.reset.pending = [] ∧ State.reset.tbase.set = false ∧ (stServo 0 0 { set := true }).tbase.set = true ∧ (stServo 0 0 { set := true }).freqAdj = 0 ∧
    (stServo 0 0 { set := true }).tbase.frac < 256000000000 ∧
    State.reset.reaches (.host 0) pgTim 0x48 = true ∧ State.reset.agateIdle = true ∧ (fields State.reset [(pgAgt 0, F.agt.AGT_STAT_STATE, 3)]).agateIdle = false ∧
    (stServo 1 0 { ppsSeen := true }).uptime < (stServo 1 0 { ppsSeen := true }).tbase.ppsAt + 500000000 ∧ (stServo 1 0 {}).tbase.ppsSeen = false ∧
    (stServo 1 0 {}).fget pgServo F.servo.SERVO_CTRL_MODE = 1 ∧ ((((stServo 1 0 {}).time.toNat : Int) - (-10)) % 1000000000 = 0) ∧
    (stServo 2 0 {}).reaches (.core 1) pgServo 0x48 = true ∧ (stServo 2 0 {}).fget pgServo F.servo.SERVO_CTRL_MODE = 2 ∧
    ({ stServo 0 0 { set := true } with time := 3000000000 }).time.toNat % 1000000000 = 0 ∧ (stServo 0 0 {}).fon pgServo F.servo.PPS_OUT_CFG_EN = true ∧
    (stLog {}).reaches (.core 1) pgElog 0xA4 = true ∧ (stLog {}).log.prog = none ∧ (stLog {}).log.open_ = false ∧ (stLog {}).log.last = [] ∧
    (stLog { prog := some (6, 7) }).log.prog = some (6, 7) ∧ (stLog {}).log.wait = [] ∧
    (stLog { prog := some (6, 7), wait := [⟨1, 0, 8, 0, 0, 0, false⟩] }).log.wait = ⟨1, 0, 8, 0, 0, 0, false⟩ :: [] ∧
    State.reset.reaches (.host 0) pgElog 0x6C = true ∧ (stLog { entries := [(5, some img5)] }).logAt 5 = some img5 ∧ (stLog {}).logAt 6 = none := by
  decide +kernel

/-- The smallest timetable: one segment, whose every stream is the same single END. -/
def ttSect (ty die off len : Nat) : Nat := withCheck 16 (struct [(0, 0, 8, ty), (0, 8, 1, die), (4, 0, 32, off), (8, 0, 32, len)])
def ttEnd : Nat := withCheck 32 (struct [(0, 0, 4, 1), (0, 4, 4, 5)])
def ttSeg (nx : Nat) : Nat := withCheck 32 (struct [(0, 0, 10, nx), (4, 0, 32, 1000)])
def ttImage : List Byte :=
  leBytes 64 (withCheck 64 (struct [(0, 0, 4, 1), (0, 8, 8, 0x30), (4, 0, 16, 162), (4, 16, 16, 1), (8, 0, 32, 608), (0x10, 0, 10, 5), (0x10, 16, 10, 1)]))
  ++ leBytes 16 (ttSect 1 0 192 32) ++ leBytes 16 (ttSect 2 0 256 264) ++ leBytes 16 (ttSect 3 0 576 32)
  ++ leBytes 16 (ttSect 2 1 256 264) ++ leBytes 16 (ttSect 3 1 576 32) ++ List.replicate 48 0
  ++ leBytes 32 (ttSeg 0x3FF) ++ List.replicate 32 0
  ++ (List.replicate 33 (leBytes 8 (withCheck 8 (struct [(0, 16, 16, 1)])))).flatten ++ List.replicate 56 0 ++ leBytes 32 ttEnd
/-- Both engines in a state, enabled; time 5,000. -/
def stAgt (v : Nat) (fs : List (Page × Fld × Nat)) (a : Agate) : State :=
  { fields State.reset ([(pgAgt 0, F.agt.AGT_STAT_STATE, v), (pgAgt 1, F.agt.AGT_STAT_STATE, v), (pgAgt 0, F.com.ENABLE, 1), (pgAgt 1, F.com.ENABLE, 1),
      (pgSeq 0 2, F.com.ENABLE, 1)] ++ fs) with
    agate := a, time := 5000, tbase := { set := true } }
def stImage (img : List Byte) : State := { stAgt 1 [] {} with shelf := Store.write 0 [] 0 img }
/-- A beat: version 1, kind, and fields. -/
def mkBeat (kind : Nat) (fs : List (Nat × Nat × Nat × Nat)) : Nat := withCheck 32 (struct ([(0, 0, 4, 1), (0, 4, 4, kind)] ++ fs))
/-- A stream of group 2 (or the die stream) of die 0 with one confirmed beat at its head, anchored at 1,000, in a running run whose segment 0 is `seg`. -/
def stBeat (st b seg : Nat) (fs : List (Page × Fld × Nat)) (x : Stream) : State :=
  stAgt 3 fs { segs := [(0, seg)], nsegs := 1, streams := [(st, { x with window := [⟨b, 7, 0, 0, 0, 1000, false, false⟩] })], segAt := [(0, 1)], views := [(st, [9])] }
def bIssue : Nat := mkBeat 1 [(0, 8, 8, 3), (0, 16, 2, 1), (0, 18, 1, 1), (8, 8, 12, 9), (0xC, 0, 16, 2), (0x10, 16, 4, 5), (0x10, 20, 4, 1), (0x10, 24, 5, 2), (0x14, 0, 11, 1),
  (0x1C, 9, 12, 20), (0x1C, 22, 1, 1)]
def beatW (b : Nat) : WinBeat := ⟨b, 7, 0, 0, 0, 1000, false, false⟩
def tally9 (n : Nat) : List (Page × Fld × Nat) := [(tallyPage 0 9, F.tal.COUNT_COUNT 9, n)]
def bRel : Nat := mkBeat 3 [(0x10, 16, 4, 6), (0x1C, 9, 12, 20), (0x1C, 22, 1, 1)]
def relFs : List (Page × Fld × Nat) := [(tilPage 10, F.til.LB_STAT_STATE 1, 2), (tilPage 10, F.til.LB_STAT_GEN 1, 4)]
def bFill : Nat := mkBeat 2 [(0x10, 16, 15, 1), (0x14, 0, 32, 0x1000), (0x18, 20, 2, 2), (0x18, 22, 2, 1)]
def bDecide : Nat := mkBeat 4 [(0x10, 16, 8, 3)]
def bSig : Nat := mkBeat 6 [(0, 8, 8, 4), (0x1C, 9, 12, 20), (0x1C, 21, 1, 1), (0x1C, 22, 1, 1)]
/-- Every stream but stream 32 of die 0 has fired its END of entry 0. -/
def others : List (Nat × Stream) := (List.range 2).flatMap fun d => (List.range 33).filterMap fun st =>
  if d = 0 ∧ st = 32 then none else some (64 * d + st, { ended := 1 })
def stEnd (v seg : Nat) (last : Bool) : State :=
  let x : Nat × Stream := (32, { window := [beatW ttEnd] })
  stAgt v [] { segs := [(0, seg), (1, ttSeg 0x3FF)], nsegs := 2, segAt := [(0, 1)], streams := if last then others.take 32 ++ [x] ++ others.drop 32 else [x] }
/-- A die stream that delivers descriptor 1 to a unit. -/
def stDeliver (unit tile td dd : Nat) : State :=
  let st := if unit < 3 then 2 else 32
  stAgt 3 [(tilPage 10, F.com.ENABLE, 1), (pgTir, F.com.ENABLE, 1)] { streams := [(st, { deliver := [⟨unit, tile, 1, false⟩] })], tileDesc := Store.set 0 [] (2 * 2048 + 1) td, dieDesc := Store.set 0 [] 1 dd }
/-- Predicate entry 3 of die 0: one rule on a tally delta (GE 2), successor 1; DEFAULT 0. -/
def pEntry : Nat := withCheck 64 (struct [(0, 0, 3, 1), (0, 8, 10, 0), (8, 0, 3, 3), (8, 3, 1, 1), (8, 5, 12, 9), (8, 22, 10, 1), (0xC, 0, 32, 2)])
def stDec (n : Nat) : State := stAgt 3 (tally9 n) { segs := [(0, ttSeg 0x3FF), (1, ttSeg 0x3FF)], nsegs := 2, preds := [(3, pEntry)], deciding := [⟨0, 0, 0, 3, 0, 4990, 1000⟩] }
def dGo (p : Bool) : Decision := ⟨0, 1, 2000, 0, 0, p, 4990⟩
def stArrive (p : Bool) : State := stAgt 3 [] { segs := [(0, ttSeg 0x3FF), (1, ttSeg 0x3FF)], nsegs := 2, sent := [(0, [dGo p])], streams := [(2, { window := [beatW ttEnd, ⟨bIssue, 8, 1, 1, 0, 2000, true, true⟩], specFrom := some (0, 0, 1000), specCursors := [(0, 2)], specCount := 1 })], views := [(2, [9])] }
theorem meets_AgateRuns :
    (stAgt 2 [] {}).reaches (.host 0) (pgAgt 0) 0x40 = true ∧ (stAgt 2 [] {}).pwrState = 0 ∧ (stAgt 2 [] {}).agateIdle = true ∧
    (stAgt 2 [] {}).tilesIdle = true ∧ (stAgt 2 [] {}).enabled (pgAgt 0) = true ∧ (stAgt 3 [] {}).agateIdle = false ∧
    (stAgt 2 [] {}).agtState 0 = 2 ∧ (stAgt 2 [] {}).agtState 1 = 2 ∧ (stAgt 2 [] {}).fget (pgAgt 0) F.agt.START_SEG_SEG < 1 ∧
    (stAgt 2 [(pgAgt 0, F.agt.START_TIME_TIME, 7000)] {}).time.toNat + 2000 ≤ (stAgt 2 [(pgAgt 0, F.agt.START_TIME_TIME, 7000)] {}).fget (pgAgt 0) F.agt.START_TIME_TIME ∧
    (stAgt 2 [(pgAgt 0, F.agt.START_TIME_TIME, 6999)] {}).fget (pgAgt 0) F.agt.START_TIME_TIME < (stAgt 2 [] {}).time.toNat + 2000 ∧
    (stAgt 2 [(pgPwr, F.pwr.PWR_STATE_STATE, 2)] {}).pwrState = 2 ∧ (stAgt 3 [] {}).agtState 0 = 3 ∧ (stAgt 3 [] {}).running = true ∧
    (stAgt 1 [] {}).agtState 0 = 1 ∧ (match ((stImage []).readImage 0).2 with | .error _ => true | .ok _ => false) = true ∧
    (stAgt 1 [] {}).agate.job = none ∧ { stDec 1 with time := 14990 }.agate.deciding[0]? = some ⟨0, 0, 0, 3, 0, 4990, 1000⟩ ∧
    4990 + { stDec 1 with time := 14990 }.fget (pgAgt 0) F.agt.DEC_TIMEOUT_NS ≤ { stDec 1 with time := 14990 }.time.toNat ∧
    ((stBeat 2 bIssue 0 [(pgAgt 0, F.agt.WATCH_NS, 4000)] {}).stream 0 2).head = some (beatW bIssue) ∧
    (beatW bIssue).anchor + BT.notBefore (beatW bIssue).beat + 4000 ≤ (stBeat 2 bIssue 0 [] {}).time.toNat ∧
    { stAgt 3 [] {} with agate.notices := [⟨0, 9, 3, 0x1005⟩] }.agate.notices[0]? = some ⟨0, 9, 3, 0x1005⟩ ∧
    (stAgt 3 [] {}).reaches (.host 0) ⟨.tal, 31⟩ 0x40 = true := by decide +kernel
theorem meets_AgateRuns_loaded : (match ((stImage ttImage).readImage 0).2 with | .error _ => false | .ok _ => true) = true := by decide +kernel
theorem firesNow_of {s : State} {d st k : Nat} {w : WinBeat} (a : (s.stream d st).head = some w) (b : BT.kind w.beat = k) (c : w.spec = false)
    (e : s.mayFire d st w = true) (l : (s.agate.views.all fun v => decide (v.2.length ≤ 64)) = true) : s.firesNow d st k w := by
  refine ⟨a, b, c, e, fun n => ?_⟩
  revert l
  generalize s.agate.views = m
  intro l
  induction m with
  | nil => simp [Store.get]
  | cons x m ih =>
    obtain ⟨k', v⟩ := x
    simp only [List.all_cons, Bool.and_eq_true, decide_eq_true_eq] at l
    unfold Store.get
    split
    · exact l.1
    · exact ih l.2
theorem meets_AgateBeats_kinds :
    (stBeat 2 bIssue 0 (tally9 2) {}).firesNow 0 2 1 (beatW bIssue) ∧ (stBeat 2 bRel 0 relFs {}).firesNow 0 2 3 (beatW bRel) ∧
    (stBeat 32 bDecide 0 [] {}).firesNow 0 32 4 (beatW bDecide) ∧ (stBeat 32 bSig 0 [] {}).firesNow 0 32 6 (beatW bSig) ∧
    (stEnd 3 (ttSeg 1) false).firesNow 0 32 5 (beatW ttEnd) := by
  refine ⟨firesNow_of ?_ ?_ ?_ ?_ ?_, firesNow_of ?_ ?_ ?_ ?_ ?_, firesNow_of ?_ ?_ ?_ ?_ ?_, firesNow_of ?_ ?_ ?_ ?_ ?_, firesNow_of ?_ ?_ ?_ ?_ ?_⟩ <;> decide +kernel
def stFetch : State := stAgt 3 [] { beats := [(0, ttEnd)], streams := [(2, { fetch := some (0, 0, 0, 0, 1000) })] }
def dTileMma : Nat := withCheck 64 (struct [(0, 0, 4, 1), (0, 8, 8, 1)])
theorem meets_AgateBeats :
    stFetch.running = true ∧ (stFetch.stream 0 2).window.length < 64 ∧ (stFetch.stream 0 2).fetch = some (0, 0, 0, 0, 1000) ∧
    checkStruct 32 (Store.get 0 stFetch.agate.beats 0 ^^^ 0) = .clean ttEnd ∧ checkStruct 32 (Store.get 0 stFetch.agate.beats 0 ^^^ 1) = .corrected ttEnd ∧
    checkStruct 32 (Store.get 0 stFetch.agate.beats 0 ^^^ 3) = .failed ∧
    (stEnd 3 (ttSeg 1) false).agate.entry = (beatW ttEnd).entry ∧ ((stEnd 3 (ttSeg 1) false).stream 1 0).ended ≤ (beatW ttEnd).entry ∧
    SG.decides ((stEnd 3 (ttSeg 1) false).seg 0) = false ∧ SG.next ((stEnd 3 (ttSeg 1) false).seg 0) = 1 ∧
    ((stBeat 2 bIssue 0 (tally9 0x80000000) {}).stream 0 2).head = some (beatW bIssue) ∧
    (stBeat 2 bIssue 0 (tally9 0x80000000) {}).mayFire 0 2 (beatW bIssue) = false ∧
    (stBeat 2 bIssue 0 (tally9 0x80000000) {}).waitOver 0 2 false (beatW bIssue).beat = true ∧
    ((stBeat 2 bFill 0 [] {}).stream 0 2).nextFill = some (beatW bFill) ∧
    (stBeat 2 bFill 0 [] {}).mayFill 0 2 ((stBeat 2 bFill 0 [] {}).stream 0 2) (beatW bFill) = true ∧
    (stBeat 2 bFill 0 [] {}).rangeCheck (.tenant 0) false ((stBeat 2 bFill 0 [] {}).fillOf 0 2 (beatW bFill)).src 64 = none ∧
    ((stDeliver 1 10 dTileMma 0).stream 0 2).deliver = [⟨1, 10, 1, false⟩] ∧ ((stDeliver 1 10 dTileMma 0).tile 10).queue.length < 4 := by decide +kernel
theorem meets_AgateBeats_decisions :
    (stDec 2).agate.deciding[0]? = some ⟨0, 0, 0, 3, 0, 4990, 1000⟩ ∧ entrySlots (Store.get 0 (stDec 2).agate.preds 3) = [] ∧
    (stDec 2).ruleHolds 0 pEntry 0 = true ∧ (stDec 1).ruleHolds 0 pEntry 0 = false ∧ PE.nrules pEntry = 1 ∧
    SG.predict ((stDec 2).seg 0) = PE.dflt pEntry ∧ Store.get [] (stArrive true).agate.sent 0 = dGo true :: [] ∧
    Store.get [] (stArrive false).agate.sent 0 = dGo false :: [] ∧ (dGo true).succ ≠ 0x3FF ∧
    (∀ st < 33, ∀ x ∈ ((stArrive true).stream 0 st).specCursors, x.1 < 64) := by decide +kernel
theorem meets_RunEnd (v seg : Nat) (h : (v, seg) = (3, ttSeg 0x3FF) ∨ (v, seg) = (4, ttSeg 1)) :
    (stEnd v seg true).firesNow 0 32 5 (beatW ttEnd) ∧ (stEnd v seg true).agate.entry = (beatW ttEnd).entry ∧
    Store.get 0 (stEnd v seg true).agate.segAt (beatW ttEnd).entry = (beatW ttEnd).seg + 1 ∧
    (∀ e < 2, ∀ j < 33, ¬ (e = 0 ∧ j = 32) → (beatW ttEnd).entry < ((stEnd v seg true).stream e j).ended) ∧
    ((SG.decides ((stEnd v seg true).seg 0) = false ∧ SG.next ((stEnd v seg true).seg 0) = 0x3FF) ∨ (stEnd v seg true).agtState 0 = 4) := by
  rcases h with h | h <;> cases h
  all_goals refine ⟨firesNow_of ?_ ?_ ?_ ?_ ?_, ?_, ?_, ?_, ?_⟩ <;> decide +kernel

/-- Queue 5 of tenant slot 0, whose ring in host memory holds the one entry `d`. -/
def stJob (d : Nat) (fs : List (Page × Fld × Nat)) : State :=
  { fields State.reset ([(jqPage 5, F.com.ENABLE, 1), (pgHst, F.hst.HOST_STAT_READY, 1), (jqPage 5, F.jq.SQ_TAIL_TAIL, 1), (jqPage 5, F.jq.IRQ_CFG_IRQ_EN, 1), (jqPage 5, F.jq.CQ_BASE_ADDR, 4096), (⟨.ks, 0⟩, F.ks.KS_STAT_STATE, 2)] ++ fs) with
    hostMem := Store.write none [] 0 ((leBytes 64 d).map some) }
def jEntry (op : Nat) (fs : List (Nat × Nat × Nat × Nat)) : Nat := withCheck 64 (struct ([(0, 0, 4, 1), (0, 8, 8, op), (4, 0, 32, 77)] ++ fs))
def jRun : Nat := jEntry 2 [(0x20, 0, 32, 9000)]
/-- The entry `d` is next in queue 5. -/
def jobNextB (s : State) (d : Nat) : Bool :=
  s.jobHead 5 == some 0 && decide (checkStruct 64 (s.jobRaw 5 0) = .clean d) && s.cqRoom 5 && s.pwrState == 0
theorem jobNext_of {s : State} {op d : Nat} (h : jobNextB s d = true) (o : JE.op d = op) : s.jobNext 5 op 0 d := by
  simp only [jobNextB, Bool.and_eq_true, beq_iff_eq, decide_eq_true_eq] at h
  exact ⟨h.1.1.1, h.1.1.2, o, h.1.2, h.2⟩
def srv : Service := ⟨2, 10, 11, 4, 0x4000, 1, 0, 3, 0⟩
def jAdmit : Nat := jEntry 3 [(8, 0, 32, 1), (0xC, 0, 4, 2), (0x10, 0, 52, 0x1000)]
def stAdmit : State := { bootFields (stJob jAdmit [(pgAgt 0, F.agt.AGT_STAT_STATE, 3), (tallyPage 0 11, F.tal.COUNT_COUNT 11, 4)])
  [(pgSlot, F.slot.SL_CFG_SERVICE_MODE 0, 0), (pgSlot, F.slot.SL_SVC_SVC_FAILED 0, 0), (pgSlot, F.slot.SL_SVC_GEN 0, 1), (pgTwin, F.eth.TWIN_CFG_PORTS, 0)] with
  host.services := [srv], host.admitted := [⟨5, 9, 76, 2, 2, [(0, 1)]⟩, ⟨5, 9, 76, 2, 3, []⟩] }
/-- Whether both parts of an admission's copy succeed. -/
def admitB (s : State) : Bool := match (s.jobPass 5 0).devRead (s.jqAgent 5) 0x1000 64 with
  | (u, .ok bs) => (u.devWrite (s.jqAgent 5) (0x4000 + 64 * 3) bs).2.toOption.isSome
  | _ => false
def jSig : Nat := jEntry 1 []
def jBad : Nat := jEntry 1 [(8, 0, 1, 1)]
def jStop : Nat := jEntry 4 []
def stRun2 : State := stJob jRun [(pgAgt 0, F.agt.AGT_STAT_STATE, 2), (pgAgt 1, F.agt.AGT_STAT_STATE, 2), (pgAgt 0, F.com.ENABLE, 1)]
theorem meets_JobQueues_next : (stJob jSig []).jobNext 5 1 0 jSig ∧ (stJob jBad []).jobNext 5 1 0 jBad ∧
    (stJob jStop [(pgAgt 0, F.agt.AGT_STAT_STATE, 3)]).jobNext 5 4 0 jStop ∧ stRun2.jobNext 5 2 0 jRun ∧ stAdmit.jobNext 5 3 0 jAdmit := by
  refine ⟨jobNext_of ?_ ?_, jobNext_of ?_ ?_, jobNext_of ?_ ?_, jobNext_of ?_ ?_, jobNext_of ?_ ?_⟩ <;> decide +kernel
theorem meets_JobQueues :
    State.reset.reaches (.host 0) (jqPage 5) 0x58 = true ∧ State.reset.reaches (.host 0) (jqPage 5) 0x64 = true ∧ State.reset.host.waiting = [] ∧
    State.reset.reaches (.host 0) pgMq 0x68 = true ∧ State.reset.reaches (.core 0) pgMq 0x98 = true ∧ State.reset.reaches (.host 0) pgXpt 0x64 = true ∧
    (stJob jSig []).jobCheck 5 jSig = none ∧ (stJob jBad []).jobCheck 5 jBad = some 0x0E ∧ (stJob jStop []).jobCheck 5 jStop = none ∧
    (stJob jSig [(jqPage 5, F.jq.CQ_HEAD_HEAD, 63)]).cqRoom 5 = false ∧ (stJob jSig [(jqPage 5, F.jq.CQ_HEAD_HEAD, 63)]).jobHead 5 = some 0 ∧
    stRun2.jobCheck 5 jRun = none ∧ stRun2.agateIdle = true ∧ stRun2.tilesIdle = true ∧ stRun2.enabled (pgAgt 0) = true ∧
    (stJob jRun [(pgAgt 0, F.agt.AGT_STAT_STATE, 3)]).agateIdle = false ∧
    stAdmit.jobCheck 5 jAdmit = none ∧ stAdmit.serviceOf 2 = some srv ∧ stAdmit.admitWaits jAdmit = none ∧ admitB stAdmit = true ∧
    stAdmit.host.admitted[0]? = some ⟨5, 9, 76, 2, 2, [(0, 1)]⟩ ∧ stAdmit.host.admitted[1]? = some ⟨5, 9, 76, 2, 3, []⟩ ∧
    3 + 1 ≤ stAdmit.finishedOf srv ∧ stAdmit.cqRoom 5 = true ∧ Store.get 0 { stJob 0 [] with host.unsignalled := [(5, 2)] }.host.unsignalled 5 ≠ 0 ∧
    { stJob 0 [] with hub.msix := [(3, 0)] }.msixWord 3 % 2 = 0 ∧ (stJob 0 []).msixWord 3 % 2 = 1 ∧ (stJob 0 []).fon (jqPage 5) F.jq.IRQ_CFG_IRQ_EN = true ∧
    State.reset.fon (jqPage 5) F.jq.IRQ_CFG_IRQ_EN = false := by decide +kernel
def stLnk (st : Nat) (dis : Nat) : State :=
  let s := fields State.reset [(pgLnk 1, F.lnk.LINK_STAT_STAGE, st), (pgLnk 1, F.lnk.LINK_CTRL_DISABLE, dis), (pgLnk 1, F.lnk.LINK_STAT_MEM_EN, 1), (tilPage 3, F.com.ENABLED, 1)]
  { s with boot.links := true }
theorem meets_HostLinks :
    (stLnk 2 0).fon (pgLnk 1) F.lnk.LINK_CTRL_DISABLE = false ∧ Store.get false (stLnk 2 0).host.stuck 1 = false ∧ (stLnk 2 0).boot.links = true ∧
    (stLnk 2 0).linkStage 1 < 3 ∧ (stLnk 3 0).linkStage 1 = 3 ∧ 0 < (stLnk 2 0).linkStage 1 ∧ (stLnk 4 0).linkStage 1 = 4 ∧
    (stLnk 4 0).reaches (.host 0) (pgLnk 1) 0x44 = true ∧ (stLnk 4 1).fon (pgLnk 1) F.lnk.LINK_CTRL_DISABLE = true ∧
    (stLnk 4 0).fon (pgLnk 1) F.lnk.LINK_STAT_MEM_EN = true ∧ (stLnk 4 0).pwrState = 0 ∧ (stLnk 4 0).pwr.goal ≠ 2 ∧
    (stLnk 4 0).fon (tilPage 3) F.com.ENABLED = true ∧ (stLnk 4 0).isolated (tilPage 3) = false ∧ (stLnk 4 0).fon (tilPage 4) F.com.ENABLED = false := by
  decide +kernel

/-- A state with what PWR reads fixed: FEFF of every group, coefficients, levels, preferences, TJ. -/
def stPwr (l : Nat) (fs : List (Page × Fld × Nat)) (p : Power) (a : Agate) : State :=
  let s0 := bootFields State.reset ((List.range 64).flatMap (fun g => [(⟨.seq, g⟩, F.seq.SEQ_FEFF_EFFECTIVE, 1600), (pgThr, F.thr.GRP_LEVEL g, l)]) ++
    [(pgThr, F.thr.COEF_VALUE 14, 1800), (pgThr, F.thr.COEF_VALUE 15, 54800)])
  { fields s0 ([(pgPwr, F.pwr.TJ_CFG_TJ_NOW, 85), (pgPwr, F.com.ENABLE, 1)] ++ fs) with pwr := p, agate := a, time := 1000 }
def stRep : State := stPwr 9 [(pgOps, F.ops.EST_GROUP_MW 0, 4000)] { groups := [(3, { sum := 9000, ticks := 2 })] } { reports := [⟨3, 7, 900⟩] }
theorem meets_PowerLevels :
    stRep.agate.reports = ⟨3, 7, 900⟩ :: [] ∧ stRep.pwrState = 0 ∧ stRep.groupPhase 3 < 256 ∧ (stRep.pwrGroup 3).ticks ≠ 0 ∧
    stRep.fget pgOps (F.ops.EST_GROUP_MW 0) < 0xFFFF ∧ (stPwr 9 [] {} {}).fget pgOps (F.ops.EST_GROUP_MW 0) = 0xFFFF ∧
    (stPwr 9 [] {} { forecasts := [⟨3, 7, 900⟩] }).agate.forecasts = ⟨3, 7, 900⟩ :: [] ∧ (⟨3, 7, 21001⟩ : PhaseNote).at_ > stRep.time.toNat + 20000 ∧
    (⟨3, 7, 900⟩ : PhaseNote) ∈ (stPwr 9 [] { planned := [⟨3, 7, 900⟩] } {}).pwr.planned ∧ stRep.fget pgPwr F.pwr.LEVEL_PKG_LEVEL ≤ 12 ∧
    stRep.agate.tenant < 16 ∧ ((stPwr 9 [] { groups := [(3, { target := some 9 })] } {}).pwrGroup 3).target = some 9 ∧
    (stPwr 9 [] { trip := true } {}).pwr.trip = true ∧ stRep.fget pgPwr F.pwr.TJ_CFG_TJ_LIMIT = 100 ∧ (stPwr 9 [] { limit := 5 } {}).pwr.limit < 12 ∧
    stRep.fget pgPwr F.pwr.LEVEL_PKG_LEVEL = 9 ∧ stRep.budget = 840000 := by decide +kernel
def stSleep (v goal : Nat) : State := stPwr 9 [(pgPwr, F.pwr.PWR_STATE_STATE, v), (pgAgt 0, F.com.ENABLE, 1)] { goal := goal } {}
def stAwake (v goal : Nat) : State := bootFields (stSleep v goal) [(pgTwin, F.eth.TWIN_CFG_PORTS, 0)]
theorem meets_PowerStates :
    (stAwake 0 0).reaches (.host 0) pgPwr 0x48 = true ∧ (stAwake 0 0).refusers 2 = 0 ∧ (stAwake 0 0).refusers 3 = 0 ∧ (stAwake 0 0).enabled pgPwr = true ∧
    (fields (stAwake 0 0) [(pgAgt 0, F.agt.AGT_STAT_STATE, 3)]).refusers 2 = 1 ∧ (stAwake 2 0).pwrState = 2 ∧ (stAwake 1 2).refusers 2 = 0 ∧
    (stAwake 1 3).xpt.ctx = [] ∧ (stAwake 1 3).xpt.writing = [] ∧ (stAwake 4 0).pwr.held = [] ∧ (stAwake 3 0).pwrState = 3 ∧
    (stAwake 0 0).fget pgPwr F.pwr.LEVEL_CLIM ≤ 12 ∧ (stAwake 0 0).fon pgPwr F.pwr.PWR_CTRL_SHIFT_EN = false ∧
    (fields (stAwake 0 0) [(pgPwr, F.pwr.PWR_CTRL_SHIFT_EN, 1), (pgPwr, F.pwr.SHIFT_CFG_COMM_MASK, 1)]).fon pgPwr F.pwr.PWR_CTRL_SHIFT_EN = true := by
  decide +kernel
/-- Communicator 0 with the members 4 and 5; this chip has rank 0. -/
def stHint (ns : List Nat) : State :=
  let s := fields (stAwake 0 0) [(pgComm 0, F.comm.CM_MASK_MASK 0, 0x30), (pgComm 0, F.comm.CM_STAT_SIZE 0, 2), (pgComm 0, F.comm.PR_MAC_MAC_BASE 5, 0x112233),
    (pgComm 0, F.comm.PR_MAC_MAC_BASE 4, 0x998877), (pgPwr, F.pwr.PWR_CTRL_SHIFT_EN, 1), (pgPwr, F.pwr.SHIFT_CFG_COMM_MASK, 1)]
  { s with pwr.period := [(0, { least := some 900, namers := ns })] }
theorem meets_PowerStates_hints :
    ((stHint []).members 0 0).findIdx? (fun p => (stHint []).fget (pgComm 0) (F.comm.PR_MAC_MAC_BASE p) == 0x112233) = some 1 ∧
    (stHint []).commRank 0 0 = 0 ∧ 1 ∉ ((stHint []).period 0).namers ∧ bitList 32 ((stHint []).fget pgPwr F.pwr.SHIFT_CFG_COMM_MASK) = [0] ∧
    (stHint []).slackNs 0 < (stHint []).fget pgPwr F.pwr.SLACK_LOW_NS ∧ (stHint [1]).named 0 = true ∧ (stHint []).named 0 = false := by decide +kernel

/-- A state in a boot stage: reset released, the stages before it done. -/
def stBoot (k : Nat) (fs : List (Page × Fld × Nat)) : State :=
  { fields State.reset ((pgElog, F.elog.BOOT_PROGRESS_STAGE, k - 1) :: fs) with boot := { held := false }, uptime := 5000000 }
theorem meets_BootStages_reset :
    ({ State.reset with net.siteNext := [(3, some 1)], log.prog := some (7, 9), outPins := [.faultN] }).attic.selWrite = none ∧
    Store.wf none ({ State.reset with net.siteNext := [(3, some 1)] }).net.siteNext = true ∧ State.reset.boot.held = true ∧
    checkStruct 32 3 = .failed ∧ F.atc.ATC_WEAR_MAX_CYCLES.key pgAtc ∉ resetKeys ∧ atticKey (F.atc.ATC_WEAR_MAX_CYCLES.key pgAtc) = true ∧
    F.com.ENABLE.key pgAtc ∉ resetKeys ∧ atticKey (F.com.ENABLE.key pgAtc) = false := by decide +kernel
/-- Reset, released, every group measured at 1,750 MHz but those listed, every record maximum 1,700. -/
def stGroups (bad : List Nat) : State :=
  { stBoot 4 [] with
    boot := { held := false, measured := (List.range 68).map fun p => (p, if p ∈ bad then 1 else 1751) }
    net := { site := (1, some 0) :: (List.range 68).map fun p => (100 + p, some 1700) } }
theorem meets_BootStages :
    (stBoot 1 []).stageNow = 1 ∧ (stBoot 2 []).stageNow = 2 ∧ (stBoot 3 [(pgWake, F.wake.WAKE_STAT_STAGE, 4)]).stageNow = 3 ∧
    (stBoot 3 [(pgWake, F.wake.WAKE_STAT_STAGE, 4)]).fget pgWake F.wake.WAKE_STAT_STAGE = 4 ∧ (stBoot 3 []).pwr.stage = 0 ∧
    (stGroups []).stageNow = 4 ∧ (stGroups []).allMeasured = true ∧ (stBoot 5 []).stageNow = 5 ∧ (stBoot 6 []).stageNow = 6 ∧
    (stBoot 7 []).stageNow = 7 ∧ (stBoot 7 []).mayBeReady = false ∧
    ({ stBoot 5 [(pgElog, F.elog.BOOT_PROGRESS_FAILED, 1)] with boot := { held := false, failedAt := some 6 } }).stageNow = 6 ∧
    ({ stBoot 3 [] with pwr.stage := 4 }).standbyWakes = false ∧ (stBoot 4 []).stageNow ∈ [1, 2, 4, 5] ∧
    (CharGroup.failed (Store.get {} (stBoot 4 []).boot.trials 67)) < 7 ∧ Store.get 0 (stBoot 4 []).boot.measured 67 = 0 := by decide +kernel
theorem meets_BootStages_groups : ¬ (stGroups [3, 32, 5]).groupsEnough ∧ (stGroups [3, 35]).groupsEnough := by
  unfold State.groupsEnough
  decide +kernel
/-- Every condition of R450, from stage LINKS or READY. -/
def stReady (k : Nat) : State :=
  bootFields (stBoot k [(pgHst, F.hst.HOST_STAT_MODULES_UP, 1)])
    ([(pgCcr 0, F.ccr.CORE_STAT_RUNNING, 3), (pgCcr 1, F.ccr.CORE_STAT_RUNNING, 3), (pgSeam, F.seam.SEAM_STAT_CH_UP, 0xFF)]
      ++ (List.range 8).map fun c => (pgCel c, F.cel.CEL_STAT_TRAINED, 1))
theorem meets_BootStages_ready : (stReady 6).mayBeReady = true ∧ (stReady 7).mayBeReady = true ∧ (stReady 7).stageNow = 7 ∧ (stReady 6).stageNow = 6 := by
  decide +kernel
def stStandbyWake (n : Nat) : State := { stBoot 8 [(pgPwr, F.pwr.PWR_STATE_STATE, 4)] with pwr := { goal := 3, stage := n, from_ := 3 } }
/-- A wake out of an entry to STANDBY that a refuser ended. -/
def stAbortWake (n : Nat) : State := { stBoot 8 [(pgPwr, F.pwr.PWR_STATE_STATE, 4)] with pwr := { goal := 3, stage := n } }
theorem meets_BootStages_standby : (stStandbyWake 4).standbyWakes = true ∧ (stStandbyWake 4).pwr.from_ = 3 ∧ (stBoot 3 []).pwr.held = [] ∧
    (stAbortWake 4).standbyWakes = true ∧ (stAbortWake 1).pwr.from_ ≠ 3 ∧ (stAbortWake 1).pwr.stage = 1 ∧ (stAbortWake 4).pwr.held = [] ∧ (stStandbyWake 1).standbyWakes = true ∧ (stStandbyWake 4).pwr.stage = 4 := by
  decide +kernel
theorem meets_FaultsAndSite :
    (stBoot 8 []).boot.held = false ∧ (stBoot 8 []).pwrState = 0 ∧ (stBoot 8 []).fget pgElog F.elog.BOOT_PROGRESS_STAGE = 7 ∧
    bitAt ((stReady 8).fget pgSeam F.seam.SEAM_STAT_CH_UP) 7 = true ∧ (stBoot 8 []).stageNow = 0 ∧ (stBoot 2 []).stageNow = 2 ∧
    (stBoot 8 []).recentFaults 0 = [] ∧ ({ stBoot 8 [] with boot.faults := [(1, [4999999, 4000000, 1])] }).recentFaults 1 = [4999999, 4000000, 1] ∧
    (fields State.reset [(pgCcr 1, F.ccr.FAULT_STAT_DIE_FAULT, 1)]).fon (pgCcr 1) F.ccr.FAULT_STAT_DIE_FAULT = true ∧
    State.reset.reaches (.core 2) (pgCcr 1) 0x048 = true ∧ bitAt ((stReady 8).fget (pgCcr 1) F.ccr.CORE_STAT_RUNNING) 1 = true ∧
    bitAt ((fields (stReady 8) [(pgCcr 1, F.ccr.CORE_STAT_WD_WARNED, 2)]).fget (pgCcr 1) F.ccr.CORE_STAT_WD_WARNED) 1 = true ∧
    bitAt ((stReady 8).fget (pgCcr 1) F.ccr.CORE_STAT_WD_WARNED) 1 = false ∧ State.reset.log.pwrFail = false ∧
    ({ State.reset with log := { pwrFail := true, wait := [⟨1, 0, 3, 0, 0, 0, true⟩] } }).log.prog = none := by decide +kernel
/-- Groups mapped in place, the spares free. -/
def stSite : State := bootFields (fields (stGroups []) [(pgCcr 0, F.com.ENABLE, 1)])
  ((List.range 64).map fun g => (⟨.seq, g⟩, F.seq.SEQ_PHYS_PHYS_ID, 34 * (g / 32) + g % 32))
theorem meets_FaultsAndSite_site :
    stSite.reaches (.core 0) (pgCcr 0) 0x058 = true ∧ stSite.fon (pgCcr 0) F.ccr.SITE_RESULT_BUSY = false ∧ stSite.enabled (pgCcr 0) = true ∧
    stSite.freeSpares 1 = 2 ∧ ({ stSite with agate.retiring := [3, 5] }).freeSpares 0 = 0 ∧ stSite.retired 3 = false ∧
    bitAt (stSite.recordNext 1) 3 = false ∧ ({ stSite with boot.retiredNow := [3] }).retired 3 = true ∧
    (fields stSite [(pgCcr 0, F.ccr.SITE_RESULT_BUSY, 1)]).fon (pgCcr 0) F.ccr.SITE_RESULT_BUSY = true ∧
    ({ stSite with boot.site := some ⟨3, 0, false, 0, []⟩ }).boot.site = some ⟨3, 0, false, 0, []⟩ := by decide +kernel
/-- A PARAMS block of zeros, and one with a reserved bit set, in Shelf memory. -/
theorem meets_FaultsAndSite_params : ∃ u bs, ((stSite.releaseHolds (.core 0)).devRead .firmware
    (stSite.fget (pgCcr 0) F.ccr.SITE_SRC_ADDR) 64 = (u, .ok bs)) ∧ paramsReserved (leNat bs) = false := by
  refine ⟨_, _, rfl, ?_⟩
  decide +kernel
theorem meets_FaultsAndSite_reserved : paramsReserved 1 = true := by decide +kernel

/-- A frame for port 3, of an EtherType, with 64 bytes of data. -/
def fIn (ety : Nat) (data : List Byte) : Frame := ⟨0x13, 2, none, ety, data⟩
def aIn (ety : Nat) : Arrival := ⟨fIn ety payload, true, none⟩
/-- MACsec on, one association known, packet number 9 the highest received. -/
def stSec : State := { fields stPort [(pgMs 3, F.ms.MS_CTRL_ENABLE, 1), (pgMs 3, F.ms.MS_RX_SCI_SCI, 7), (pgMs 3, F.ms.MS_SA_RX_VALID 1, 1)] with
  net.rxPn := [(13, 9)] }
def secured (sci pn : Nat) (ok : Bool) : Secured := ⟨sci, 1, pn, ok, fIn 0x88B5 payload⟩
/-- A control frame of a subtype with no payload but its CHECK. -/
def fCtl (t : Nat) : Frame := fIn 0x88B6 (leBytes 16 (withCheck 16 (1 + placeAt 0 8 8 t + placeAt 8 0 32 0x20)) ++ leBytes 32 (withCheck 32 0))
theorem meets_FramesAndShards_ports :
    stPort.enabled (pgEth 3) = true ∧ stPort.linkUp 3 = true ∧ frameLen (fIn 0 payload) = 82 ∧ stPort.maxFrame 3 = 9242 ∧
    (fields stPort [(pgEth 3, F.eth.PORT_CFG_MAX_PAYLOAD, 40)]).maxFrame 3 = 66 ∧ frameLen (fIn 0 [1, 2, 3]) < 64 ∧
    stPort.forPort 3 0x13 = true ∧ stPort.forPort 3 0x14 = false ∧ stPort.foreignOnTwin 3 2 = false ∧
    (fields stPort [(pgEth 5, F.com.ENABLE, 1)]).foreignOnTwin 5 2 = true ∧
    stSec.msOn 3 = true ∧ stSec.ptpClear 3 (fIn 0x88B5 payload) = false ∧ stSec.fget (pgMs 3) F.ms.MS_RX_SCI_SCI = 7 ∧
    stSec.fon (pgMs 3) (F.ms.MS_SA_RX_VALID 1) = true ∧ Store.get 0 stSec.net.rxPn 13 = 9 ∧
    State.reset.enabled (ringPage 3) = false ∧ (fields State.reset [(pgMgt, F.com.ENABLE, 1)]).enabled pgMgt = true := by decide +kernel
theorem meets_FramesAndShards_accepted : stPort.accepted stPort 3 (aIn 0x0806) (fIn 0x0806 payload) false ∧
    stSec.accepted stSec 3 (aIn 0x888E) (fIn 0x888E payload) false ∧
    stSec.accepted (stSec.msAccept 3 (secured 7 10 true)) 3 ⟨fIn 0x88E5 payload, true, some (secured 7 10 true)⟩ (fIn 0x88B5 payload) true := by
  refine ⟨.inl ⟨by decide +kernel, rfl, rfl, rfl⟩, .inr (.inl ⟨by decide +kernel, rfl, .inl rfl, rfl, rfl, rfl⟩), .inr (.inr ⟨secured 7 10 true, ?_⟩)⟩
  refine ⟨by decide +kernel, rfl, by decide +kernel, by decide +kernel, by decide +kernel, rfl, rfl, rfl, rfl⟩
theorem meets_FramesAndShards_delivered :
    stPort.fget ⟨.col, 0⟩ F.col.COL_CFG_ETHERTYPE = 0x88B5 ∧ stPort.fget (pgEth 3) F.eth.CTL_ETHERTYPE_TYPE = 0x88B6 ∧
    (∀ t ∈ [1, 2, 3], colTyped t (fIn 0x88B5 (leBytes 32 (hCol t 5 4 4 64))) = true) ∧
    (∀ t < 9, (ctlParse (fCtl t)).map (fun x => fieldAt x.1 0 8 8) = some t) ∧ ctlParse (fIn 0x88B6 payload) = none ∧
    stPort.camernFrame (fIn 0x0806 payload) = none := by decide +kernel
theorem meets_FramesAndShards_row : ctlRow 3 1 2 (.shedAck 3) 6 ∧ packetRow 3 fOne (.closeAck 3 fOne) 9 := ⟨rfl, rfl⟩
/-- A shard at Shelf address 0: its epoch word of step 6, its stamp of step 7. -/
def stShard (e g : Nat) : State := { State.reset with shelf := Store.write 0 (Store.write 0 [] 0x40 (leBytes 8 e)) 0x48 (leBytes 8 g) }
theorem meets_FramesAndShards_shards :
    ((stShard (shardWord 6 1 0) (shardWord 7 1 0)).devRead .firmware 0x40 8).2.toOption = some (leBytes 8 (shardWord 6 1 0)) ∧
    ((stShard 0 0).devWrite .firmware 0x48 (leBytes 8 (shardWord 7 1 0))).2.toOption = some () ∧
    ((stShard 0 0).devWrite .firmware 0x40 (leBytes 8 (shardWord 7 1 0))).2.toOption = some () ∧
    checked 8 (leNat (leBytes 8 (shardWord 6 1 0))) = some (shardWord 6 1 0) ∧ checked 8 (shardWord 6 1 0 ^^^ 3) = none ∧
    fieldAt (shardWord 6 1 3) 4 8 16 = 3 ∧ State.reset.fget (pgComm 0) (F.comm.CM_EPOCH_CUR_EPOCH 0) = 0 ∧ State.reset.tally 0 5 = 0 := by
  decide +kernel

theorem meets_RunRegisters : ((stVec dRun).tile 3).vrun = none ∧ ((stVec dRun).tile 3).vqueue = ⟨dRun, false⟩ :: [] ∧
    (stVec dRun).fon (tilPage 3) F.com.ENABLE = true ∧ descOpcode dRun = 2 ∧ (stVec dRun).vecCheck 3 dRun = none := by decide +kernel
theorem meets_StepTakesFront : ({ State.reset with pending := [.coldReset, .refclkStop] }).pending = .coldReset :: [.refclkStop] ∧
    State.reset.pending = [] ∧ ({ State.reset with tbase.set := true }).tbase.set = true := by decide
theorem meets_MemoryInvariant : State.reset.memWf = true ∧
    ({ State.reset with shelf := [(3, 1), (9, 4)], hostMem := [(1, some 0)] }).memWf = true ∧
    (∃ t, step { State.reset with pending := [.coldReset] } = .next t) := ⟨by decide, by decide, _, rfl⟩
theorem meets_CheckCode : (8 : Nat) ∈ [8, 16, 32, 64] ∧ 0x123456789ABCDEF0 < 2 ^ (8 * 8) ∧ 63 < 8 * 8 := by decide

/-! ### Expected results worked out from the spec -/

/-- R12, R31, R32: the page addresses the spec works out for tile 2 of logical group 37, port 3's gate list and tally 3,000 of die 1. -/
theorem test_page_addresses : (tilPage 150).base = 0x01253000 ∧ (pgGl 3).base = 0x000C3000 ∧ (tallyPage 1 3000).base = 0x0015B000 ∧
    (tallyPage 1 3000).inst = 27 := by decide
/-- R70's worked frame: 1,200 at 258 and −3,000 at 256 accumulate to 1,800 in frame 256, which is FP32 0x3EE10000. -/
theorem test_frame : (({} : Acc).add 258 (1200, 0, 0)).add 256 (-3000, 0, 0) = { frame := some 256, hh := 1800 } ∧
    fpRound 1800 (256 - 134 - 134) = 0x3EE10000#32 := by decide
/-- R65's worked activation block, MAX mode, NEAREST. -/
theorem test_quantise :
    let b := (quantBlock [0x40200000#32, 0xBE99999A#32, 0x3F400000#32, 0x3A83126F#32] [false, false, false, false] 8 none .nearest false id).block
    b.exp = 0x81 ∧ b.man = [80, -10, 24, 0] := by decide +kernel
/-- … and back: −10 under exponent byte 0x81 is −0.3125 (R61, R69). -/
theorem test_dequantise : fpPack (qbiValue 8 0x81 (-10)) = 0xBEA00000#32 ∧ fpPack (qbiValue 8 0x81 80) = 0x40200000#32 := by decide
/-- R64's worked residue: mantissa 82, residue −10 under 0x78 is 10,486 × 2^−21. -/
theorem test_residue : fpPack (qbi8WithResidue 0x78 82 (-10)) = fpRound 10486 (-21) := by decide
/-- R61: the largest and the least mantissa of a non-finite block are the infinities, any other a NaN. -/
theorem test_nonfinite_block : qbiValue 8 255 127 = .inf false ∧ qbiValue 8 255 (-128) = .inf true ∧ qbiValue 8 255 5 = .nan := by decide
/-- R57: a tie goes to the even neighbour. -/
theorem test_fadd_ties : fpAdd 0x3F800000#32 0x33800000#32 = 0x3F800000#32 ∧ fpAdd 0x3F800001#32 0x33800000#32 = 0x3F800002#32 := by decide
/-- R58: half the smallest normal number is the subnormal 2^−127. -/
theorem test_fmul_subnormal : fpMul 0x00800000#32 0x3F000000#32 = 0x00400000#32 := by decide
/-- R57: an FMA rounds once: (1 + 2^−23)² − (1 + 2^−22) is 2^−46. -/
theorem test_fma_single_rounding : fpFma 0x3F800001#32 0x3F800001#32 0xBF800002#32 = 0x28800000#32 := by decide
/-- R59: ∞ − ∞ is the canonical NaN, maximum passes a NaN on, minimum orders −0 below +0. -/
theorem test_nans_and_zeros : fpSub 0x7F800000#32 0x7F800000#32 = 0x7FC00000#32 ∧ fpMax 0xFF800001#32 0x3F800000#32 = 0x7FC00000#32 ∧
    fpMin 0#32 0x80000000#32 = 0x80000000#32 := by decide
/-- R68: 2^31 into INT32 is clamped and saturates; a NaN is 0 and raises NONFINITE. -/
theorem test_cvtfi : fpToInt 32 0 .nearest 0 0x4F000000#32 = (2 ^ 31 - 1, false, true) ∧ fpToInt 32 0 .nearest 0 0x7FC00000#32 = (0, true, false) ∧
    fpToInt 32 1 .nearest 0 0xBFC00000#32 = (-3, false, false) := by decide
/-- R170: an all-zero structure has an all-zero CHECK; a turned bit is put right, two are not. -/
theorem test_check : withCheck 32 0 = 0 ∧ checkStruct 16 (withCheck 16 0x5A ^^^ 2) = .corrected (withCheck 16 0x5A) ∧
    checkStruct 16 (withCheck 16 0x5A ^^^ 6) = .failed := by decide +kernel
/-- R293: the CRC-32 of IEEE 802.3 of the digits 1 to 9 is the standard's check value. -/
theorem test_crc32 : crc32 ([0x31, 0x32, 0x33, 0x34, 0x35, 0x36, 0x37, 0x38, 0x39].map (BitVec.ofNat 8)) = 0xCBF43926 := by decide +kernel
/-- R315's worked gate list: the change time of a LOAD. -/
theorem test_gate_change : changeTime 0 100000 1740000000000098700 = 1740000000000200000 := by decide
/-- R417: the clocks and voltages of operating points 0, 9 and 12. -/
theorem test_operating_points : (opMHz 0, opMilliV 0) = (600, 530) ∧ (opMHz 9, opMilliV 9) = (1600, 750) ∧ (opMHz 12, opMilliV 12) = (1750, 820) := by
  decide
/-- R166: an edge 100 ns before a full second is an error of −100 ns. -/
theorem test_pps_error : ppsError 7999999900 = -100 ∧ ppsError 8000000025 = 25 := by decide
/-- R224's classes, for the interrupted step 7. -/
theorem test_classify : classify (shardWord 7 0 3) 0 3 7 = .regather ∧ classify (shardWord 6 0 3) (shardWord 7 1 3) 3 7 = .commitPending ∧
    classify (shardWord 6 0 3) (shardWord 7 0 3) 3 7 = .rerunStep ∧ classify (shardWord 5 0 3) 0 3 7 = .lost ∧
    classify (shardWord 7 0 2) 0 3 7 = .fenced := by decide +kernel

/-- The state after a command that is carried out. -/
def after (c : Instr) (s : State) : State := match exec c s with
  | .next t => t
  | _ => s
/-- R36, R46: ENABLE on a tile's page, under the one version it supports and under another. -/
theorem test_enable : (after (.enable (.host 0) (tilPage 150) 0x11) State.reset).fon (tilPage 150) F.com.ENABLE = true ∧
    (after (.enable (.host 0) (tilPage 150) 0x21) State.reset).fon (tilPage 150) F.com.ENABLE = false := by decide +kernel
/-- R42: a write with a reserved bit set (bit 31 of PORT_CFG) changes nothing but the page's RSV_WRITE event and its count. -/
theorem test_reserved_write :
    let t := after (.registerWrite (.host 0) (BitVec.ofNat 26 ((pgEth 3).base + 0x40)) false 0x80000000) State.reset
    t.fget (pgEth 3) F.eth.PORT_CFG_MAX_PAYLOAD = 9216 ∧ t.fget (pgEth 3) F.com.EVT_STAT = 1 ∧ t.fget (pgEth 3) (F.com.EVT_CNT 7) = 1 := by
  decide +kernel
/-- R56: IADD of 2^31 − 1 and 1 clamps and saturates; R118: a lane that the predicate does not gate keeps its value. -/
theorem test_iadd_saturates :
    let w := 0x10 + 2 * 2 ^ 8 + 1 * 2 ^ 13 + 2 ^ 24 + 1 * 2 ^ 25 + 1 * 2 ^ 32
    let u : Tile := { v := [(1, List.replicate 128 0x7FFFFFFF#32)], p := [(1, 1)], progs := [(0, some ⟨1, [0], [w + secEncode 64 7 w * 2 ^ 64]⟩)]
                      vrun := some { desc := placeAt 0 8 8 2, pc := 0 } }
    let t := after (.iadd 3) (withTile 3 u)
    (t.tile 3).lane 2 0 = 0x7FFFFFFF#32 ∧ (t.tile 3).lane 2 1 = 0 ∧ bitAt (t.fget (vecPage 3) F.com.EVT_STAT) 9 = true := by decide +kernel
/-- R174: a tally wraps modulo 2^32 and names its source. -/
theorem test_tally_wraps :
    let t := after (.tallyIncrement 0) { fields State.reset [(tallyPage 1 3000, F.tal.COUNT_COUNT 184, 2 ^ 32 - 1)] with
      agate.notices := [⟨1, 3000, 3, srcCode 2 150⟩] }
    t.tally 1 3000 = 2 ∧ t.fget (tallyPage 1 3000) (F.tal.SRC_LAST_SRC 184) = 0x2096 ∧ t.agate.notices = [] := by decide +kernel
/-- The worked boot's mapping: physical 7 retired, 19 failing every candidate, 39 passing at 1,500 MHz (R452, R453). -/
theorem test_worked_boot :
    let s : State := { stBoot 4 [] with
      boot := { held := false, measured := (List.range 68).map fun p => (p, if p = 19 then 1 else if p = 39 then 1501 else 1751) }
      net := { site := (1, some (2 ^ 7)) :: (List.range 68).map fun p => (100 + p, some (if p = 39 then 1650 else 1750)) } }
    let m := s.mapDie 0 32 0 []
    (m.lookup 7, m.lookup 19, m.lookup 31) = (some 32, some 33, some 31) ∧ (s.mapDie 1 32 0 []).lookup 37 = some 39 ∧
    min (s.measuredOf 39) (s.recordFmax 39) = 1500 := by decide +kernel
/-- R459: a kick of core 1 of a pair clears its warning and leaves core 0's. -/
theorem test_wd_kick : (after (.wdKick (.core 1) 0 2#2) (fields State.reset [(pgCcr 0, F.ccr.CORE_STAT_WD_WARNED, 3)])).fget (pgCcr 0)
    F.ccr.CORE_STAT_WD_WARNED = 1 := by decide +kernel
/-- R29: a 32-bit read of TIME's low half delivers it and captures the high half for the same requester. -/
theorem test_split_read :
    let t := after (.splitLowRead (.host 0) (BitVec.ofNat 26 ((⟨.tim, 0⟩ : Page).base + 0x40)) false) { State.reset with time := 0x100000002#64 }
    t.hub.captured.map (·.2) = [some ((⟨.tim, 0⟩ : Page).base + 0x40, 1)] ∧
    t.out = [.read ((⟨.tim, 0⟩ : Page).base + 0x40) [2#8, 0#8, 0#8, 0#8]] := by decide +kernel

end Sys2Proof.Tests
end

section
/-! SUPPORT. The page index (R31): which page an address names. -/

namespace Sys2Proof.Machine

/-- A page is present where its number is below its type's count (R31). -/
theorem present_iff {t : PageType} {i : Nat} : (Page.mk t i).present = true ↔ i < t.count := by simp [Page.present]

/-- The pages of a type that lies in the first 1 MiB follow one another (R31). -/
theorem base_global : ∀ t ∈ globalPages, ∀ i < t.count, (Page.mk t i).base = (Page.mk t 0).base + i * 0x1000 := by
  decide

/-- The address ranges of two types of `globalPages` lie apart. -/
theorem globalPages_apart : ∀ t ∈ globalPages, ∀ u ∈ globalPages,
    (Page.mk t 0).base + t.count * 0x1000 ≤ (Page.mk u 0).base ∨ (Page.mk u 0).base + u.count * 0x1000 ≤ (Page.mk t 0).base ∨
      u = t := by
  decide

/-- The pages of `globalPages` lie below the tile pages and outside the die blocks. -/
theorem globalPages_range : ∀ t ∈ globalPages, (Page.mk t 0).base + t.count * 0x1000 ≤ 0x1000000 ∧
    ((Page.mk t 0).base + t.count * 0x1000 ≤ 0x100000 ∨ 0x180000 ≤ (Page.mk t 0).base) := by
  decide

/-- The page of a type that holds an address, where the type's pages follow one another. -/
theorem pageIndex_eq_some_iff {t : PageType} (ht : t ∈ globalPages) (a : Nat) (p : Page) :
    pageIndex a t = some p ↔ p.ty = t ∧ p.present = true ∧ p.base ≤ a ∧ a < p.base + 0x1000 := by
  obtain ⟨u, i⟩ := p
  simp only [pageIndex, present_iff, Option.ite_none_right_eq_some, Option.some.injEq, Page.mk.injEq]
  constructor
  · rintro ⟨⟨hlo, hhi⟩, rfl, rfl⟩
    have hi : (a - (Page.mk t 0).base) / 0x1000 < t.count := by omega
    rw [base_global _ ht _ hi]
    exact ⟨rfl, hi, by omega, by omega⟩
  · rintro ⟨rfl, hi, hlo, hhi⟩
    rw [base_global _ ht _ hi] at hlo hhi
    exact ⟨⟨by omega, by omega⟩, rfl, by omega⟩

/-- Only one type of `globalPages` has a page at an address. -/
theorem pageIndex_type_unique {t u : PageType} (ht : t ∈ globalPages) (hu : u ∈ globalPages) {a : Nat} {p q : Page}
    (hp : pageIndex a t = some p) (hq : pageIndex a u = some q) : u = t := by
  simp only [pageIndex, Option.ite_none_right_eq_some] at hp hq
  rcases globalPages_apart u hu t ht with h | h | h
  · omega
  · omega
  · exact h.symm

/-- The page of the first 1 MiB, or the Seam page, that holds an address. -/
theorem findGlobal_eq_some_iff (a : Nat) (p : Page) :
    globalPages.findSome? (pageIndex a) = some p ↔
      p.ty ∈ globalPages ∧ p.present = true ∧ p.base ≤ a ∧ a < p.base + 0x1000 := by
  constructor
  · intro h
    obtain ⟨t, ht, h⟩ := List.exists_of_findSome?_eq_some h
    obtain ⟨rfl, hrest⟩ := (pageIndex_eq_some_iff ht a p).mp h
    exact ⟨ht, hrest⟩
  · rintro ⟨ht, hrest⟩
    have hp : pageIndex a p.ty = some p := (pageIndex_eq_some_iff ht a p).mpr ⟨rfl, hrest⟩
    obtain ⟨q, hq⟩ := Option.isSome_iff_exists.mp (List.findSome?_isSome_iff.mpr ⟨p.ty, ht, Option.isSome_of_eq_some hp⟩)
    obtain ⟨u, hu, hqu⟩ := List.exists_of_findSome?_eq_some hq
    rw [pageIndex_type_unique ht hu hp hqu, hp] at hqu
    rw [hq, hqu]

/-! ### The four parts of the BAR -/

/-- An address of the tile groups (R31). -/
theorem pageAt_group {g k o : Nat} (hg : g < 64) (hk : k < 16) (ho : o < 0x1000) :
    pageAt (0x1000000 + g * 0x10000 + k * 0x1000 + o) =
      if k = 0 then some ⟨.seq, g⟩ else if k ≤ 4 then some ⟨.til, 4 * g + (k - 1)⟩ else none := by
  unfold pageAt
  rw [if_pos (by omega)]
  dsimp only
  rw [show (0x1000000 + g * 0x10000 + k * 0x1000 + o - 0x1000000) / 0x10000 = g by omega,
    show (0x1000000 + g * 0x10000 + k * 0x1000 + o) % 0x10000 / 0x1000 = k by omega]

/-- An address of the job queues (R31). -/
theorem pageAt_jobQueue {i o : Nat} (hi : i < 1024) (ho : o < 0x1000) : pageAt (0x2000000 + i * 0x1000 + o) = some ⟨.jq, i⟩ := by
  unfold pageAt
  rw [if_neg (by omega), if_pos (by omega), show (0x2000000 + i * 0x1000 + o - 0x2000000) / 0x1000 = i by omega]

/-- An address of a die's block (R31). -/
theorem pageAt_die {d o : Nat} (hd : d < 2) (ho : o < 0x40000) : pageAt (0x100000 + d * 0x40000 + o) = diePageAt d o := by
  unfold pageAt
  rw [if_neg (by omega), if_neg (by omega), if_pos (by omega), show (0x100000 + d * 0x40000 + o - 0x100000) / 0x40000 = d by omega,
    show (0x100000 + d * 0x40000 + o - 0x100000) % 0x40000 = o by omega]

/-- Every other address (R31). -/
theorem pageAt_global {a : Nat} (hg : ¬ (0x1000000 ≤ a ∧ a < 0x1400000)) (hq : ¬ (0x2000000 ≤ a ∧ a < 0x2400000))
    (hd : ¬ (0x100000 ≤ a ∧ a < 0x180000)) : pageAt a = globalPages.findSome? (pageIndex a) := by
  unfold pageAt
  rw [if_neg hg, if_neg hq, if_neg hd]

/-! ### The pages of a die -/

/-- The types of a die's pages below its tally pages, in the order of their addresses. -/
def diePages : List PageType := [.agt, .late, .ccr, .dp, .col, .comm, .mxe, .vec, .vst, .net]

/-- The type of the die page in slot `k` of its block, with its address. -/
theorem base_diePages {k : Nat} (hk : k < 10) (d : Nat) :
    (Page.mk (diePages.getD k .agt) d).base = 0x100000 + d * 0x40000 + k * 0x1000 ∧ (diePages.getD k .agt).count = 2 := by
  obtain rfl | rfl | rfl | rfl | rfl | rfl | rfl | rfl | rfl | rfl :
      k = 0 ∨ k = 1 ∨ k = 2 ∨ k = 3 ∨ k = 4 ∨ k = 5 ∨ k = 6 ∨ k = 7 ∨ k = 8 ∨ k = 9 := by omega
  all_goals
    refine ⟨?_, rfl⟩
    simp only [diePages, List.getD_cons_zero, List.getD_cons_succ, Page.base, Nat.zero_mul, Nat.add_zero, Nat.reduceMul]

/-- The page in slot `k` of a die's block. -/
theorem diePageAt_slot {k : Nat} (hk : k < 10) {d o : Nat} (ho : o < 0x1000) :
    diePageAt d (k * 0x1000 + o) = some ⟨diePages.getD k .agt, d⟩ := by
  unfold diePageAt
  rw [show (k * 0x1000 + o) / 0x1000 = k by omega, if_pos hk, diePages]

/-- The tally pages of a die's block. -/
theorem diePageAt_tally {k : Nat} (hk : k < 16) {d o : Nat} (ho : o < 0x1000) :
    diePageAt d (0x10000 + k * 0x1000 + o) = some ⟨.tal, 16 * d + k⟩ := by
  unfold diePageAt
  rw [if_neg (by omega), if_pos (by omega), show (0x10000 + k * 0x1000 + o - 0x10000) / 0x1000 = k by omega]

/-- What lies beyond the pages of a die's block. -/
theorem diePageAt_empty {d o : Nat} (h1 : ¬ o < 0xA000) (h2 : ¬ (0x10000 ≤ o ∧ o < 0x20000)) : diePageAt d o = none := by
  unfold diePageAt
  rw [if_neg (by omega), if_neg h2]

/-! ### Both directions -/

/-- The page that an offset of a die's block names is there. -/
theorem diePageAt_sound {d o : Nat} (hd : d < 2) {p : Page} (h : diePageAt d o = some p) :
    p.present = true ∧ p.base ≤ 0x100000 + d * 0x40000 + o ∧ 0x100000 + d * 0x40000 + o < p.base + 0x1000 := by
  by_cases h1 : o < 0xA000
  · obtain ⟨hb, hc⟩ := base_diePages (k := o / 0x1000) (by omega) d
    rw [show o = o / 0x1000 * 0x1000 + o % 0x1000 by omega, diePageAt_slot (by omega) (by omega)] at h
    cases h
    rw [present_iff, hb]
    exact ⟨by omega, by omega, by omega⟩
  · by_cases h2 : 0x10000 ≤ o ∧ o < 0x20000
    · rw [show o = 0x10000 + (o - 0x10000) / 0x1000 * 0x1000 + o % 0x1000 by omega, diePageAt_tally (by omega) (by omega)] at h
      cases h
      simp only [present_iff, Page.base, PageType.count]
      omega
    · rw [diePageAt_empty h1 h2] at h
      cases h

/-- The page of an address is present and its 4 KiB hold the address (R28, R31). -/
theorem pageAt_sound {a : Nat} {p : Page} (h : pageAt a = some p) : p.present = true ∧ p.base ≤ a ∧ a < p.base + 0x1000 := by
  by_cases hg : 0x1000000 ≤ a ∧ a < 0x1400000
  · rw [show a = 0x1000000 + (a - 0x1000000) / 0x10000 * 0x10000 + a % 0x10000 / 0x1000 * 0x1000 + a % 0x1000 by omega,
      pageAt_group (by omega) (by omega) (by omega)] at h
    split at h
    · cases h
      simp only [present_iff, Page.base, PageType.count]
      omega
    · split at h <;> cases h
      simp only [present_iff, Page.base, PageType.count]
      omega
  by_cases hq : 0x2000000 ≤ a ∧ a < 0x2400000
  · rw [show a = 0x2000000 + (a - 0x2000000) / 0x1000 * 0x1000 + a % 0x1000 by omega, pageAt_jobQueue (by omega) (by omega)] at h
    cases h
    simp only [present_iff, Page.base, PageType.count]
    omega
  by_cases hd : 0x100000 ≤ a ∧ a < 0x180000
  · have ha : a = 0x100000 + (a - 0x100000) / 0x40000 * 0x40000 + (a - 0x100000) % 0x40000 := by omega
    rw [ha, pageAt_die (by omega) (by omega)] at h
    rw [ha]
    exact diePageAt_sound (by omega) h
  · rw [pageAt_global hg hq hd, findGlobal_eq_some_iff] at h
    exact h.2

/-- Every address of a die's page below its tally pages names it. -/
theorem pageAt_diePage {k : Nat} (hk : k < 10) {d o : Nat} (hd : d < 2) (ho : o < 0x1000) :
    pageAt ((Page.mk (diePages.getD k .agt) d).base + o) = some ⟨diePages.getD k .agt, d⟩ := by
  rw [(base_diePages hk d).1, Nat.add_assoc _ _ o, pageAt_die hd (by omega), diePageAt_slot hk ho]

/-- Every address of a present page names it (R31). -/
theorem pageAt_base_add {p : Page} (hp : p.present = true) {o : Nat} (ho : o < 0x1000) : pageAt (p.base + o) = some p := by
  obtain ⟨t, i⟩ := p
  rw [present_iff] at hp
  by_cases hg : t ∈ globalPages
  · obtain ⟨hhi, hdie⟩ := globalPages_range t hg
    have hb := base_global t hg i hp
    rw [pageAt_global (by omega) (by omega) (by omega)]
    exact (findGlobal_eq_some_iff _ _).mpr ⟨hg, present_iff.mpr hp, by omega, by omega⟩
  · cases t
    case jq => exact pageAt_jobQueue hp ho
    case seq =>
      change pageAt (0x1000000 + i * 0x10000 + o) = _
      rw [show 0x1000000 + i * 0x10000 + o = 0x1000000 + i * 0x10000 + 0 * 0x1000 + o by omega, pageAt_group hp (by omega) ho, if_pos rfl]
    case til =>
      simp only [PageType.count] at hp
      change pageAt (0x1000000 + i / 4 * 0x10000 + (i % 4 + 1) * 0x1000 + o) = _
      rw [pageAt_group (by omega) (by omega) ho, if_neg (by omega), if_pos (by omega)]
      congr 2
      omega
    case tal =>
      simp only [PageType.count] at hp
      change pageAt (0x100000 + i / 16 * 0x40000 + 0x10000 + i % 16 * 0x1000 + o) = _
      rw [Nat.add_assoc _ (i % 16 * _) o, Nat.add_assoc _ 0x10000, ← Nat.add_assoc 0x10000, pageAt_die (by omega) (by omega),
        diePageAt_tally (by omega) ho]
      congr 2
      omega
    case agt => exact pageAt_diePage (k := 0) (by decide) hp ho
    case late => exact pageAt_diePage (k := 1) (by decide) hp ho
    case ccr => exact pageAt_diePage (k := 2) (by decide) hp ho
    case dp => exact pageAt_diePage (k := 3) (by decide) hp ho
    case col => exact pageAt_diePage (k := 4) (by decide) hp ho
    case comm => exact pageAt_diePage (k := 5) (by decide) hp ho
    case mxe => exact pageAt_diePage (k := 6) (by decide) hp ho
    case vec => exact pageAt_diePage (k := 7) (by decide) hp ho
    case vst => exact pageAt_diePage (k := 8) (by decide) hp ho
    case net => exact pageAt_diePage (k := 9) (by decide) hp ho
    all_goals exact absurd (by decide) hg

end Sys2Proof.Machine

namespace Sys2Proof.Proofs

open Sys2Proof.Machine

/-- Settles O1: `pageAt` and the 4 KiB of the present pages agree in both directions. -/
theorem pageIndex : Obligations.PageIndex :=
  ⟨fun _ _ hp ho => pageAt_base_add hp ho, fun _ _ h => pageAt_sound h⟩

end Sys2Proof.Proofs
end

section
/-! SUPPORT. What a register field reads as after the shared operations, on its own page and on another, and what the register hub does with
an access that nothing turns away. -/

namespace Sys2Proof.Machine

/-! ### Pages and keys -/

/-- A page begins at a multiple of 4 KiB. -/
theorem base_mod (p : Page) : p.base % 0x1000 = 0 := by
  obtain ⟨t, i⟩ := p
  cases t <;> simp only [Page.base] <;> omega

/-- The offset of an address in its page. -/
theorem base_add_mod (p : Page) {o : Nat} (ho : o < 0x1000) : (p.base + o) % 0x1000 = o := by
  have := base_mod p
  omega

/-- Every page but the host-control page lies above it. -/
theorem base_ge {p : Page} (hp : p.present = true) (h : p ≠ pgHst) : 0x1000 ≤ p.base := by
  obtain ⟨t, i⟩ := p
  rw [present_iff] at hp
  by_cases ht : t = .hst
  · subst ht
    exact absurd (congrArg _ (Nat.lt_one_iff.mp hp)) h
  · cases t <;> first | exact absurd rfl ht | (simp only [Page.base]; omega)

/-- Fields of one page at different bits have different keys. -/
theorem Fld.key_ne {p : Page} {f g : Fld} (h : 8 * f.off + f.lo ≠ 8 * g.off + g.lo) : f.key p ≠ g.key p := by
  unfold Fld.key
  omega

theorem inPage_iff {p : Page} {k : Nat} : inPage p k = true ↔
    (p.base * 8 ≤ k ∧ k < (p.base + 0x1000) * 8) ∨ (p.ty = .xpt ∧ 0x10000000 ≤ k / 8) := by
  simp [inPage]

/-- A field of a page has its key in the page. -/
theorem inPage_key {p : Page} {f : Fld} (h : 8 * f.off + f.lo < 0x8000) : inPage p (f.key p) = true := by
  rw [inPage_iff, Fld.key]
  omega

/-- A field of another page has its key outside the host-control page. -/
theorem not_inPage_pgHst {p : Page} (hp : p.present = true) (h : p ≠ pgHst) (f : Fld) : ¬ inPage pgHst (f.key p) = true := by
  have := base_ge hp h
  rw [inPage_iff, Fld.key]
  rintro (⟨-, h⟩ | ⟨h, -⟩)
  · change _ < (0 + 0x1000) * 8 at h
    omega
  · cases h

/-! ### Fields after an update -/

/-- A write of a field leaves the fields of the page at other bits. -/
theorem State.fget_fput_off (s : State) (p : Page) {f g : Fld} (v : Nat) (h : 8 * f.off + f.lo ≠ 8 * g.off + g.lo) :
    (s.fput p f v).fget p g = s.fget p g := State.fget_fput_ne s v (Fld.key_ne h)

/-- A one-bit field set leaves the fields of the page at other bits. -/
theorem State.fget_fset_off (s : State) (p : Page) {f g : Fld} (b : Bool) (h : 8 * f.off + f.lo ≠ 8 * g.off + g.lo) :
    (s.fset p f b).fget p g = s.fget p g := State.fget_fput_off s p _ h

@[simp] theorem State.fget_fset_self (s : State) (p : Page) (f : Fld) (b : Bool) : (s.fset p f b).fget p f = b.toNat % 2 ^ f.width :=
  State.fget_fput_self s p f _

/-- A counter reads as it did and what it counts, held at its largest value (R39). -/
@[simp] theorem State.fget_bump_self (s : State) (p : Page) (f : Fld) (n : Nat) :
    (s.bump p f n).fget p f = min (2 ^ f.width - 1) (s.fget p f + n) := by
  have h : min (2 ^ f.width - 1) (s.fget p f + n) < 2 ^ f.width := by
    have := Nat.two_pow_pos f.width
    omega
  simp only [State.bump, State.fget_fput_self, satAdd, Nat.mod_eq_of_lt h]

theorem State.fget_bump_ne (s : State) {p q : Page} {f g : Fld} (n : Nat) (h : f.key p ≠ g.key q) : (s.bump p f n).fget q g = s.fget q g :=
  State.fget_fput_ne s _ h

/-- A count leaves the fields of the page at other bits. -/
theorem State.fget_bump_off (s : State) (p : Page) {f g : Fld} (n : Nat) (h : 8 * f.off + f.lo ≠ 8 * g.off + g.lo) :
    (s.bump p f n).fget p g = s.fget p g := State.fget_fput_off s p _ h

theorem State.fset_regsOnly (s : State) (p : Page) (f : Fld) (b : Bool) : RegsOnly [f.key p] s (s.fset p f b) :=
  State.fput_regsOnly s p f _

theorem State.bump_regsOnly (s : State) (p : Page) (f : Fld) (n : Nat) : RegsOnly [f.key p] s (s.bump p f n) :=
  State.fput_regsOnly s p f _

theorem State.fset_only (s : State) (p : Page) (f : Fld) (b : Bool) : Only [.regs] s (s.fset p f b) := State.fput_only s p f _

theorem State.bump_only (s : State) (p : Page) (f : Fld) (n : Nat) : Only [.regs] s (s.bump p f n) := State.fput_only s p f _

/-- States with the same registers. -/
theorem RegsOnly.of_regs {s t : State} (h : t.regs = s.regs) (ks : List Nat) : RegsOnly ks s t := fun _ _ _ => by rw [h]

theorem State.fget_of_regs {s t : State} (h : t.regs = s.regs) (p : Page) (f : Fld) : t.fget p f = s.fget p f := by
  simp only [State.fget, h]

theorem State.fon_of_fget {s t : State} {p : Page} {f : Fld} (h : t.fget p f = s.fget p f) : t.fon p f = s.fon p f := by
  simp only [State.fon, h]

/-! ### `PageOnly` as a relation -/

theorem PageOnly.refl (p : Page) (s : State) : PageOnly p s s := fun _ _ _ => rfl

theorem PageOnly.trans {p : Page} {s t u : State} (h : PageOnly p s t) (h2 : PageOnly p t u) : PageOnly p s u :=
  fun k hk d => (h2 k hk d).trans (h k hk d)

theorem PageOnly.of_regs {s t : State} (h : t.regs = s.regs) (p : Page) : PageOnly p s t := fun _ _ _ => by rw [h]

/-- A field whose key lies outside the page reads as before. -/
theorem PageOnly.fget {p q : Page} {f : Fld} {s t : State} (h : PageOnly p s t) (hk : ¬ inPage p (f.key q) = true) :
    t.fget q f = s.fget q f := h _ hk _

theorem State.fput_pageOnly (s : State) {p : Page} {f : Fld} (v : Nat) (h : inPage p (f.key p) = true) :
    PageOnly p s (s.fput p f v) :=
  fun k hk d => State.fput_regsOnly s p f v k (fun hm => hk (List.mem_singleton.mp hm ▸ h)) d

/-! ### Events -/

@[simp] theorem State.hostWrite_regs (bs : List Byte) (s : State) (a : Nat) : (s.hostWrite a bs).regs = s.regs :=
  State.hostWrite_only bs s a .regs (by decide)

@[simp] theorem State.putIssued_regs (s : State) (m a : Nat) (bs : List Byte) : (s.putIssued m a bs).regs = s.regs :=
  State.hostWrite_regs bs s a

@[simp] theorem State.raiseVector_regs (s : State) (m v : Nat) : (s.raiseVector m v).regs = s.regs := by
  unfold State.raiseVector
  split <;> rfl

/-- What the register hub holds beside the fields is no register. -/
theorem State.withHub_regs (s : State) (x : Hub) : ({ s with hub := x } : State).regs = s.regs := rfl

/-- A record put into the event ring moves the ring's HEAD on the host-control page. -/
theorem State.eqPut_pageOnly (s : State) (p : Page) : PageOnly pgHst s (s.eqPut p) := by
  unfold State.eqPut
  extract_lets n h s1 s2 hb s3
  have h1 : PageOnly pgHst s s1 := .of_regs (State.putIssued_regs _ _ _ _) _
  have h3 : PageOnly pgHst s s3 :=
    (h1.trans (State.fput_pageOnly s1 ((h + 1) % n) (f := F.hst.EQ_HEAD_HEAD) (inPage_key (by decide)))).trans
      (.of_regs (State.withHub_regs _ _) _)
  split
  · exact h3.trans (.of_regs (State.raiseVector_regs _ _ _) _)
  · exact h3

/-- The keys of a page's event registers EVT_STAT and EVT_CAUSE (R38, R39). -/
def eventKeys (p : Page) : List Nat :=
  [F.com.EVT_STAT, F.com.CAUSE_FIRST_BIT, F.com.CAUSE_FORCED, F.com.CAUSE_VALID, F.com.CAUSE_STATUS, F.com.CAUSE_DETAIL].map (Fld.key p)

/-- A field of the page at another bit than theirs has none of these keys. -/
theorem not_mem_eventKeys {p : Page} {f : Fld} (h : 8 * f.off + f.lo ∉ [0x80, 0xE0, 0xE5, 0xE7, 0xE8, 0xF0]) : f.key p ∉ eventKeys p := by
  intro hm
  obtain ⟨g, hg, hk⟩ := List.mem_map.mp hm
  have hbit : 8 * f.off + f.lo = 8 * g.off + g.lo := by
    unfold Fld.key at hk
    omega
  refine h (hbit ▸ ?_)
  simp only [List.mem_cons, List.not_mem_nil, or_false] at hg
  rcases hg with rfl | rfl | rfl | rfl | rfl | rfl <;> decide

/-- Raising events on a page writes its event registers. -/
theorem State.setStat_regsOnly (s : State) (p : Page) (evs : Nat) (forced : Bool) (st d : Nat) :
    RegsOnly (eventKeys p) s (s.setStat p evs forced st d) := by
  have put : ∀ (u : State) (f : Fld) (v : Nat), f.key p ∈ eventKeys p → RegsOnly (eventKeys p) u (u.fput p f v) :=
    fun u f v hf => (State.fput_regsOnly u p f v).mono (by simpa using hf)
  unfold State.setStat
  extract_lets s1 first
  have h1 : RegsOnly (eventKeys p) s s1 := put _ _ _ (by simp [eventKeys])
  split
  · exact h1
  · exact ((((h1.trans (put _ F.com.CAUSE_FIRST_BIT _ (by simp [eventKeys]))).trans (put _ F.com.CAUSE_FORCED _ (by simp [eventKeys]))).trans
      (put _ F.com.CAUSE_VALID _ (by simp [eventKeys]))).trans (put _ F.com.CAUSE_STATUS _ (by simp [eventKeys]))).trans
      (put _ F.com.CAUSE_DETAIL _ (by simp [eventKeys]))

/-- Raising events on a page leaves every other page. -/
theorem State.setStat_pageOnly (s : State) (p : Page) (evs : Nat) (forced : Bool) (st d : Nat) :
    PageOnly p s (s.setStat p evs forced st d) := by
  refine fun k hk d => State.setStat_regsOnly s p evs forced _ _ k (fun hm => hk ?_) d
  simp only [eventKeys, List.map_cons, List.map_nil, List.mem_cons, List.not_mem_nil, or_false] at hm
  rcases hm with rfl | rfl | rfl | rfl | rfl | rfl <;> exact inPage_key (by decide)

theorem State.report_pageOnly (s : State) (p : Page) : PageOnly pgHst s (s.report p) := by
  unfold State.report
  split
  · exact .refl _ s
  · split
    · exact State.fput_pageOnly s _ (by decide)
    · exact State.eqPut_pageOnly s p

theorem State.hostEvent_pageOnly (s : State) (evs : Nat) : PageOnly pgHst s (s.hostEvent evs) := by
  have h := State.setStat_pageOnly s pgHst evs false 0 0
  unfold State.hostEvent
  dsimp only
  split
  · exact h.trans (State.report_pageOnly _ _)
  · exact h

theorem State.lineRose_pageOnly (s : State) (p : Page) : PageOnly pgHst s (s.lineRose p) := by
  unfold State.lineRose
  split
  · exact .refl _ s
  · split <;> exact (State.report_pageOnly s p).trans (State.hostEvent_pageOnly _ _)

/-- What follows a change of a page's line touches no register outside the host-control page (R385). -/
theorem State.afterLine_pageOnly (s s0 : State) (p : Page) : PageOnly pgHst s (s.afterLine s0 p) := by
  unfold State.afterLine
  split
  · exact State.lineRose_pageOnly s p
  · split
    · exact .of_regs rfl _
    · exact .refl _ s

/-- A line that has not risen changes no more than the list of the lines not yet reported. -/
theorem State.afterLine_low {s : State} {p : Page} (s0 : State) (h : s.lineHigh p = false) :
    Only [.hub] s (s.afterLine s0 p) ∧ (s.afterLine s0 p).regs = s.regs := by
  unfold State.afterLine
  rw [h, Bool.and_false, if_neg Bool.false_ne_true]
  split
  · refine ⟨fun q hq => ?_, rfl⟩
    cases q <;> first | rfl | exact absurd (by simp) hq
  · exact ⟨.refl _ s, rfl⟩

end Sys2Proof.Machine
end

section
/-! SUPPORT. Events raised on a page other than the host-control page, split holds, and the admission of a register access (R28, R29, R38
to R42). -/

namespace Sys2Proof.Machine

/-! ### Bits -/

/-- The model's bit test is the library's. -/
theorem bitAt_eq_testBit (d i : Nat) : bitAt d i = d.testBit i := by
  rw [bitAt, Nat.testBit_eq_decide_div_mod_eq, Nat.shiftRight_eq_div_pow]
  rfl

/-- A bit below the width survives the cut to it. -/
theorem bitAt_mod_two_pow (d w i : Nat) : bitAt (d % 2 ^ w) i = (decide (i < w) && bitAt d i) := by
  simp only [bitAt_eq_testBit, Nat.testBit_mod_two_pow]

theorem bitAt_or (d e i : Nat) : bitAt (d ||| e) i = (bitAt d i || bitAt e i) := by
  simp only [bitAt_eq_testBit, Nat.testBit_or]

/-- A number with a bit set is not 0. -/
theorem ne_zero_of_bitAt {d i : Nat} (h : bitAt d i = true) : d ≠ 0 := by
  rintro rfl
  simp [bitAt] at h

/-- The lowest set bit as EVT_CAUSE names it (R39). -/
theorem find_lowest_bit {evs k : Nat} (hk : k < 32) (hb : bitAt evs k = true) (hlow : ∀ j < k, bitAt evs j = false) :
    (List.range 32).find? (bitAt evs) = some k := by
  rw [List.find?_range_eq_some]
  exact ⟨hb, List.mem_range.mpr hk, fun j hj => by simp [hlow j hj]⟩

/-! ### Events of a page -/

/-- EVT_STAT gains the events raised (R38). -/
theorem State.setStat_evtStat (s : State) (p : Page) (evs : Nat) (forced : Bool) (st d : Nat) :
    (s.setStat p evs forced st d).fget p F.com.EVT_STAT = (s.fget p F.com.EVT_STAT ||| evs) % 2 ^ 32 := by
  unfold State.setStat
  extract_lets s1 first
  have h1 : s1.fget p F.com.EVT_STAT = (s.fget p F.com.EVT_STAT ||| evs) % 2 ^ 32 := State.fget_fput_self _ _ _ _
  split
  · exact h1
  · simp (disch := decide) only [State.fget_fput_off, State.fget_fset_off, h1]

/-- A VALID EVT_CAUSE is left as it is (R39). -/
theorem State.setStat_valid {s : State} {p : Page} {evs : Nat} (h : s.fon p F.com.CAUSE_VALID = true ∨ evs = 0) (forced : Bool)
    (st d : Nat) : s.setStat p evs forced st d = s.fput p F.com.EVT_STAT (s.fget p F.com.EVT_STAT ||| evs) := if_pos h

/-- An empty EVT_CAUSE takes the lowest of the events raised, with its status and detail (R39). -/
theorem State.setStat_cause {s : State} {p : Page} {evs k : Nat} (hv : s.fon p F.com.CAUSE_VALID = false) (hk : k < 32)
    (hb : bitAt evs k = true) (hlow : ∀ j < k, bitAt evs j = false) (forced : Bool) (st d : Nat) :
    (s.setStat p evs forced st d).fon p F.com.CAUSE_VALID = true ∧ (s.setStat p evs forced st d).fon p F.com.CAUSE_FORCED = forced ∧
    (s.setStat p evs forced st d).fget p F.com.CAUSE_FIRST_BIT = k ∧ (s.setStat p evs forced st d).fget p F.com.CAUSE_STATUS = st % 2 ^ 8 ∧
    (s.setStat p evs forced st d).fget p F.com.CAUSE_DETAIL = d % 2 ^ 12 := by
  unfold State.setStat
  rw [if_neg (by simp [hv, ne_zero_of_bitAt hb]), find_lowest_bit hk hb hlow, Option.getD_some]
  refine ⟨?_, ?_, ?_, ?_, ?_⟩ <;>
    simp (disch := decide) only [State.fon, State.fget_fput_off, State.fget_fset_off, State.fget_fput_self, State.fget_fset_self]
  · rfl
  · cases forced <;> rfl
  · exact Nat.mod_eq_of_lt hk
  · rfl
  · rfl

/-- What follows a change of a page's line leaves the fields of every page but the host-control page. -/
theorem State.fget_afterLine (s s0 : State) (q : Page) {p : Page} (hp : p.present = true) (h : p ≠ pgHst) (f : Fld) :
    (s.afterLine s0 q).fget p f = s.fget p f := (State.afterLine_pageOnly s s0 q).fget (not_inPage_pgHst hp h f)

/-- Events raised on a page read there as EVT_STAT and EVT_CAUSE took them. -/
theorem State.fget_events (s : State) {p : Page} (hp : p.present = true) (h : p ≠ pgHst) (evs st d : Nat) (f : Fld) :
    (s.events p evs st d).fget p f = (s.setStat p evs false st d).fget p f := State.fget_afterLine _ _ _ hp h f

/-- Forced events read on their page as EVT_STAT and EVT_CAUSE took them. -/
theorem State.fget_force (s : State) {p : Page} (hp : p.present = true) (h : p ≠ pgHst) (bits : Nat) (f : Fld) :
    (s.force p bits).fget p f = (s.setStat p (bits &&& definedEvents p) true 0 0).fget p f := State.fget_afterLine _ _ _ hp h f

/-! ### Discarded writes -/

/-- A discarded write leaves every field of its page but EVT_STAT, EVT_CAUSE and EVT_CNT7 (R42). -/
theorem State.fget_discard (s : State) {p : Page} (hp : p.present = true) (h : p ≠ pgHst) (off evs : Nat) {f : Fld}
    (hf : 8 * f.off + f.lo ∉ [0x80, 0xE0, 0xE5, 0xE7, 0xE8, 0xF0, 0x1E0]) : (s.discard p off evs).fget p f = s.fget p f := by
  have hb : (s.bump p (F.com.EVT_CNT 7) 1).fget p f = s.fget p f :=
    State.fget_bump_off s p 1 fun hn => hf (by rw [← hn]; decide)
  unfold State.discard
  extract_lets s1
  split
  · exact hb
  · rw [State.fget_events _ hp h, (State.setStat_regsOnly _ _ _ _ _ _).fget (not_mem_eventKeys fun hm => hf (by simp at hm ⊢; omega)), hb]

/-- A discarded write is counted once (R39, R42). -/
theorem State.discard_count (s : State) {p : Page} (hp : p.present = true) (h : p ≠ pgHst) (off evs : Nat) :
    (s.discard p off evs).fget p (F.com.EVT_CNT 7) = min 0xFFFFFFFF (s.fget p (F.com.EVT_CNT 7) + 1) := by
  have hb : (s.bump p (F.com.EVT_CNT 7) 1).fget p (F.com.EVT_CNT 7) = min 0xFFFFFFFF (s.fget p (F.com.EVT_CNT 7) + 1) :=
    State.fget_bump_self _ _ _ _
  unfold State.discard
  extract_lets s1
  split
  · exact hb
  · rw [State.fget_events _ hp h, (State.setStat_regsOnly _ _ _ _ _ _).fget (not_mem_eventKeys (by decide)), hb]

/-- The events of a write discarded for a reason, read on its page. -/
theorem State.fget_discard_events (s : State) {p : Page} (hp : p.present = true) (h : p ≠ pgHst) (off : Nat) {evs : Nat} (he : evs ≠ 0)
    (f : Fld) : (s.discard p off evs).fget p f = ((s.bump p (F.com.EVT_CNT 7) 1).setStat p evs false 0 off).fget p f := by
  unfold State.discard
  rw [if_neg he, State.fget_events _ hp h]

/-- EVT_STAT gains the reasons of a discarded write (R42). -/
theorem State.discard_evtStat (s : State) {p : Page} (hp : p.present = true) (h : p ≠ pgHst) (off : Nat) {evs i : Nat} (hi : i < 32)
    (hb : bitAt evs i = true) : bitAt ((s.discard p off evs).fget p F.com.EVT_STAT) i = true := by
  rw [State.fget_discard_events s hp h off (ne_zero_of_bitAt hb), State.setStat_evtStat, bitAt_mod_two_pow, bitAt_or, hb]
  simp [hi]

/-- An empty EVT_CAUSE takes the lowest reason of a discarded write, with its offset (R39, R42). -/
theorem State.discard_cause {s : State} {p : Page} (hp : p.present = true) (hne : p ≠ pgHst) {off evs k : Nat} (hoff : off < 2 ^ 12)
    (hk : k < 32) (hb : bitAt evs k = true) (hlow : ∀ j < k, bitAt evs j = false) (hv : s.fon p F.com.CAUSE_VALID = false) :
    (s.discard p off evs).fon p F.com.CAUSE_VALID = true ∧ (s.discard p off evs).fget p F.com.CAUSE_FIRST_BIT = k ∧
    (s.discard p off evs).fon p F.com.CAUSE_FORCED = false ∧ (s.discard p off evs).fget p F.com.CAUSE_DETAIL = off := by
  have hget := State.fget_discard_events s hp hne off (ne_zero_of_bitAt hb)
  have hv' : (s.bump p (F.com.EVT_CNT 7) 1).fon p F.com.CAUSE_VALID = false :=
    (State.fon_of_fget (State.fget_bump_off s p 1 (by decide))).trans hv
  obtain ⟨hvalid, hforced, hfirst, -, hdetail⟩ := State.setStat_cause hv' hk hb hlow false 0 off
  exact ⟨(State.fon_of_fget (hget _)).trans hvalid, (hget _).trans hfirst, (State.fon_of_fget (hget _)).trans hforced,
    (hget _).trans (hdetail.trans (Nat.mod_eq_of_lt hoff))⟩

/-! ### Split holds -/

/-- A requester that holds no half of a split write loses nothing but a captured half (R29). -/
theorem State.releaseHolds_none {s : State} {r : Requester} (h : Store.get none s.hub.held r.key = none) :
    s.releaseHolds r = { s with hub.captured := Store.set none s.hub.captured r.key none } := by
  unfold State.releaseHolds
  rw [h]

/-- A held low half is counted as rejected by its page (R29). -/
theorem State.releaseHolds_some {s : State} {r : Requester} {b v : Nat} {p : Page} (h : Store.get none s.hub.held r.key = some (b, v))
    (hp : pageAt b = some p) :
    s.releaseHolds r = { s.bump p (F.com.EVT_CNT 7) 1 with
      hub.held := Store.set none s.hub.held r.key none, hub.captured := Store.set none s.hub.captured r.key none } := by
  unfold State.releaseHolds
  rw [h]
  simp only [hp]
  rfl

theorem State.releaseHolds_some_regs {s : State} {r : Requester} {b v : Nat} {p : Page}
    (h : Store.get none s.hub.held r.key = some (b, v)) (hp : pageAt b = some p) :
    (s.releaseHolds r).regs = (s.bump p (F.com.EVT_CNT 7) 1).regs := by
  rw [State.releaseHolds_some h hp]

theorem State.releaseHolds_some_held {s : State} {r : Requester} {b v : Nat} {p : Page}
    (h : Store.get none s.hub.held r.key = some (b, v)) (hp : pageAt b = some p) :
    Store.get none (s.releaseHolds r).hub.held r.key = none := by
  rw [State.releaseHolds_some h hp]
  exact Store.get_set_self none s.hub.held r.key none

theorem State.releaseHolds_regs {s : State} {r : Requester} (h : Store.get none s.hub.held r.key = none) :
    (s.releaseHolds r).regs = s.regs := by
  rw [State.releaseHolds_none h]

theorem State.releaseHolds_fget {s : State} {r : Requester} (h : Store.get none s.hub.held r.key = none) (p : Page) (f : Fld) :
    (s.releaseHolds r).fget p f = s.fget p f := State.fget_of_regs (State.releaseHolds_regs h) p f

theorem State.releaseHolds_fon {s : State} {r : Requester} (h : Store.get none s.hub.held r.key = none) (p : Page) (f : Fld) :
    (s.releaseHolds r).fon p f = s.fon p f := State.fon_of_fget (State.releaseHolds_fget h p f)

theorem State.releaseHolds_isolated {s : State} {r : Requester} (h : Store.get none s.hub.held r.key = none) (p : Page) :
    (s.releaseHolds r).isolated p = s.isolated p := State.releaseHolds_fon h p _

theorem State.releaseHolds_only_hub {s : State} {r : Requester} (h : Store.get none s.hub.held r.key = none) :
    Only [.hub] s (s.releaseHolds r) := by
  rw [State.releaseHolds_none h]
  intro q hq
  cases q <;> first | rfl | exact absurd (by simp) hq

/-! ### Admission -/

/-- What an access that reaches its page meets (R40, R45, R438). -/
theorem State.reaches_iff {s : State} {r : Requester} {p : Page} {off : Nat} : s.reaches r p off = true ↔
    p.present = true ∧ s.isolated p = false ∧ s.resetting p = false ∧ (p.ty = .jq → s.inStandby = false) ∧
    (coreOnly p off = true → r.isCore = true) ∧ Store.get none s.hub.held r.key = none := by
  have hjq : (!(p.ty == .jq && s.inStandby)) = true ↔ (p.ty = .jq → s.inStandby = false) := by
    by_cases h : p.ty = .jq <;> simp [h]
  have hcore : (!coreOnly p off || r.isCore) = true ↔ (coreOnly p off = true → r.isCore = true) := by
    cases coreOnly p off <;> simp
  simp only [State.reaches, Bool.and_eq_true, hjq, hcore, Bool.not_eq_true', Option.isNone_iff_eq_none, and_assoc]

theorem State.reaches_present {s : State} {r : Requester} {p : Page} {off : Nat} (h : s.reaches r p off = true) : p.present = true :=
  (State.reaches_iff.mp h).1

theorem State.reaches_held {s : State} {r : Requester} {p : Page} {off : Nat} (h : s.reaches r p off = true) :
    Store.get none s.hub.held r.key = none := (State.reaches_iff.mp h).2.2.2.2.2

/-- A command's register write that reaches its page acts on the state without the requester's captured half. -/
theorem State.hubAdmit_reaches {s : State} {r : Requester} {p : Page} {off : Nat} (h : s.reaches r p off = true) (act : State → State) :
    s.hubAdmit r p off act = act (s.releaseHolds r) := by
  obtain ⟨-, hiso, hres, hjq, hcore, hheld⟩ := State.reaches_iff.mp h
  have hres' : (s.releaseHolds r).resetting p = false := (State.releaseHolds_fon hheld p _).trans hres
  have hstand : (p.ty == .jq && (s.releaseHolds r).inStandby) = false := by
    rw [State.inStandby, State.releaseHolds_fget hheld]
    by_cases hty : p.ty = .jq
    · rw [← State.inStandby, hjq hty, Bool.and_false]
    · simp [hty]
  have hopen : (coreOnly p off && !r.isCore) = false := by
    cases hc : coreOnly p off
    · rfl
    · simp [hcore hc]
  unfold State.hubAdmit
  simp [State.releaseHolds_isolated hheld, hiso, hres', hstand, hopen]

end Sys2Proof.Machine
end

section
/-! SUPPORT. The fields an access meets: the common page words of R34 to R39, for every page type at once. -/

namespace Sys2Proof.Machine

/-- Every row of a page type's own register map lies from offset 0x040 on (R33). -/
theorem pageFields_off : ∀ t : PageType,
    ((pageFields t).all fun d => (List.range d.count).all fun k => 0x40 ≤ (d.fld k).off) = true := by
  intro t
  cases t <;> decide +kernel

/-- A row of a map from offset 0x040 on is not met below it. -/
theorem FieldDef.met_below {d : FieldDef} (hd : ∀ k < d.count, 0x40 ≤ (d.fld k).off) {off n : Nat} (h : off + n ≤ 0x40) :
    d.met off n = [] := by
  refine List.filterMap_eq_nil_iff.mpr fun k _ => if_neg ?_
  rintro ⟨hk, hlo, -⟩
  have := hd k hk
  omega

/-- An access below offset 0x040 meets the common page words alone, whatever the page's type (R33). -/
theorem fieldsMet_common (t : PageType) {off n : Nat} (h : off + n ≤ 0x40) :
    fieldsMet t off n = commonFields.flatMap fun d => d.met off n := by
  have hpage : (pageFields t).flatMap (fun d => d.met off n) = [] := by
    refine List.flatMap_eq_nil_iff.mpr fun d hd => FieldDef.met_below (fun k hk => ?_) h
    have hall := List.all_eq_true.mp (pageFields_off t) d hd
    simpa using List.all_eq_true.mp hall k (List.mem_range.mpr hk)
  have hcount : (if t = .hst then [instanceCounts] else []).flatMap (fun d => d.met off n) = [] := by
    refine List.flatMap_eq_nil_iff.mpr fun d hd => FieldDef.met_below (fun k _ => ?_) h
    split at hd
    · rw [List.mem_singleton.mp hd]
      change 0x40 ≤ 0x100 + 4 * k
      omega
    · cases hd
  rw [fieldsMet, allFields, List.flatMap_append, List.flatMap_append, hpage, hcount, List.append_nil, List.append_nil]

/-- No common page word is 64 bits wide (R34 to R39). -/
theorem wideLow_common (t : PageType) {off : Nat} (h : off + 4 ≤ 0x40) : wideLow t off = false := by
  have hrows : ∀ d ∈ commonFields, d.wide = false := by decide
  rw [wideLow, fieldsMet_common t h, List.any_eq_false]
  intro x hx
  obtain ⟨d, hd, hx⟩ := List.mem_flatMap.mp hx
  obtain ⟨k, -, hk⟩ := List.mem_filterMap.mp hx
  obtain ⟨-, hk⟩ := Option.ite_none_right_eq_some.mp hk
  obtain rfl := Option.some.inj hk
  simp [hrows d hd]

/-! ### Reads of ID -/

/-- A number moved nowhere. -/
@[simp] theorem moveBits_self (x a : Nat) : moveBits x a a = x := by simp [moveBits]

/-- ID of a page (R34): type code, generation 1, a revision byte, the number of the page. -/
theorem idWord_eq (p : Page) :
    idWord p = p.ty.code * 2 ^ 20 + 2 ^ 16 + Config.boot p.ty.code 0 8 % 256 * 2 ^ 8 + p.inst % 2 ^ 8 := by
  have hcode : p.ty.code < 2 ^ 12 := by cases p.ty <;> decide
  simp only [idWord, placeAt, Nat.shiftLeft_eq]
  rw [Nat.mod_eq_of_lt hcode]
  omega

/-- ID is a 32-bit word. -/
theorem idWord_lt (p : Page) : idWord p < 2 ^ 32 := by
  have hcode : p.ty.code < 2 ^ 12 := by cases p.ty <;> decide
  rw [idWord_eq]
  omega

/-- A read of offset 0 finds ID, also on an isolated page (R34, R40). -/
theorem State.pageRead_id (s : State) (r : Requester) (p : Page) : s.pageRead r p 0 4 = idWord p := by
  have hmet : fieldsMet p.ty 0 4 = [(⟨fun _ => ⟨0x000, 0, 32, 0⟩, 0, 1, .ro, false, false, false⟩, ⟨0x000, 0, 32, 0⟩)] :=
    fieldsMet_common p.ty (by decide)
  have hv : s.fieldValue r p ⟨0x000, 0, 32, 0⟩ = idWord p := if_pos rfl
  rw [State.pageRead, if_neg (by simp), if_neg (by decide), hmet, List.foldl_cons, List.foldl_nil, if_neg (by simp), hv, moveBits_self,
    Nat.zero_add]
  exact Nat.mod_eq_of_lt (idWord_lt p)

/-- Every other offset of an isolated page than ID, CAP and STAT reads zero (R40). -/
theorem State.pageRead_isolated {s : State} {r : Requester} {p : Page} {off : Nat} (n : Nat) (h : s.isolated p = true) (h0 : off ≠ 0)
    (h4 : off ≠ 4) (hC : off ≠ 0xC) : s.pageRead r p off n = 0 := by
  simp [State.pageRead, h, h0, h4, hC]

end Sys2Proof.Machine

namespace Sys2Proof.Proofs

open Sys2Proof.Machine

/-! ### Accesses turned away -/

/-- A rejected access of a requester that holds nothing is counted in HST.EVT_CNT7 and touches no other register (R28, R40). -/
theorem hostReject_releaseHolds {s : State} {r : Requester} (h : Store.get none s.hub.held r.key = none) :
    (s.releaseHolds r).hostReject.fget pgHst (F.com.EVT_CNT 7) = min 0xFFFFFFFF (s.fget pgHst (F.com.EVT_CNT 7) + 1) ∧
    Only [.regs, .hub] s (s.releaseHolds r).hostReject ∧ RegsOnly [(F.com.EVT_CNT 7).key pgHst] s (s.releaseHolds r).hostReject := by
  refine ⟨?_, (State.releaseHolds_only s r).trans ((State.bump_only _ _ _ _).mono (by simp)),
    (RegsOnly.of_regs (State.releaseHolds_regs h) _).trans (State.bump_regsOnly _ _ _ _)⟩
  rw [State.hostReject, State.fget_bump_self, State.releaseHolds_fget h]
  rfl

/-- A read of a requester that holds nothing delivers its bytes and changes nothing but the holds. -/
theorem deliverRead_releaseHolds {s : State} {r : Requester} (h : Store.get none s.hub.held r.key = none) (a n v : Nat) :
    ((s.releaseHolds r).deliverRead a n v).out = s.out ++ [Out.read a (leBytes n v)] ∧
    Only [.out, .hub] s ((s.releaseHolds r).deliverRead a n v) := by
  rw [State.releaseHolds_none h]
  refine ⟨rfl, fun q hq => ?_⟩
  cases q <;> first | rfl | exact absurd (by simp) hq

/-- UNASSIGNED_ACCESS where nothing is (R28). -/
theorem unassignedAccess_exec (r : Requester) {a : BitVec 26} (s : State) (hnone : pageAt a.toNat = none)
    (hmsi : ¬ (0x3000000 ≤ a.toNat ∧ a.toNat < 0x3008100)) :
    exec (.unassignedAccess r a false) s = .next ((s.releaseHolds r).deliverRead a.toNat 4 0) ∧
    exec (.unassignedAccess r a true) s = .next (s.releaseHolds r).hostReject := by
  have hskip : ((pageAt a.toNat).isSome || (decide (0x3000000 ≤ a.toNat) && decide (a.toNat < 0x3008100))) = false := by
    simpa [hnone] using hmsi
  change execUnassignedAccess r a false s = _ ∧ execUnassignedAccess r a true s = _
  simp [execUnassignedAccess, hskip]

/-- UNSUPPORTED_ACCESS of an access that is not aligned (R29). -/
theorem unsupportedAccess_exec (r : Requester) {a : BitVec 26} {n : Nat} (s : State) (h : aligned a.toNat n = false) :
    exec (.unsupportedAccess r a n) s = .next (s.releaseHolds r).hostReject := by
  change execUnsupportedAccess r a n s = _
  simp [execUnsupportedAccess, h]

/-- The low half that an unsupported access discards is counted by its page, the access by the host-control page (R29). -/
theorem hostReject_releaseHolds_some {s : State} {r : Requester} {b v : Nat} {p : Page} (h : Store.get none s.hub.held r.key = some (b, v))
    (hp : pageAt b = some p) (hne : p ≠ pgHst) :
    Store.get none (s.releaseHolds r).hostReject.hub.held r.key = none ∧
    (s.releaseHolds r).hostReject.fget p (F.com.EVT_CNT 7) = min 0xFFFFFFFF (s.fget p (F.com.EVT_CNT 7) + 1) ∧
    Only [.regs, .hub] s (s.releaseHolds r).hostReject ∧
    RegsOnly [(F.com.EVT_CNT 7).key p, (F.com.EVT_CNT 7).key pgHst] s (s.releaseHolds r).hostReject := by
  have hkey : (F.com.EVT_CNT 7).key pgHst ≠ (F.com.EVT_CNT 7).key p := fun he =>
    not_inPage_pgHst (pageAt_sound hp).1 hne (F.com.EVT_CNT 7) (he ▸ inPage_key (by decide))
  have hregs := State.releaseHolds_some_regs h hp
  refine ⟨State.releaseHolds_some_held h hp, ?_, (State.releaseHolds_only s r).trans ((State.bump_only _ _ _ _).mono (by simp)), ?_⟩
  · rw [State.hostReject, State.fget_bump_ne _ 1 hkey, State.fget_of_regs hregs, State.fget_bump_self]
    rfl
  · exact (((State.bump_regsOnly s p _ 1).trans (.of_regs hregs _)).mono (by simp)).trans ((State.bump_regsOnly _ _ _ _).mono (by simp))

/-- ISOLATED_PAGE_ACCESS at an offset of an isolated page (R40). -/
theorem isolatedPageAccess_exec (r : Requester) {p : Page} {o : Nat} {a : BitVec 26} {s : State} (hp : p.present = true)
    (hiso : s.isolated p = true) (ho : o < 0x1000) (ho4 : o % 4 = 0) (ha : a.toNat = p.base + o) :
    exec (.isolatedPageAccess r a false) s = .next ((s.releaseHolds r).deliverRead a.toNat 4 ((s.releaseHolds r).pageRead r p o 4)) ∧
    exec (.isolatedPageAccess r a true) s = .next (s.releaseHolds r).hostReject := by
  have hword : (p.base + o) / 4 * 4 = p.base + o := by
    have := base_mod p
    omega
  change execIsolatedPageAccess r a false s = _ ∧ execIsolatedPageAccess r a true s = _
  simp [execIsolatedPageAccess, ha, hword, pageAt_base_add hp ho, hiso, base_add_mod p ho]

/-- Settles O2: each access releases the requester's holds, then delivers its bytes or is counted. -/
theorem accessesTurnedAway : Obligations.AccessesTurnedAway := by
  refine ⟨?unassigned, ?unsupported, ?discards, ?isolated⟩
  case unassigned =>
    intro r a s hnone hmsi hheld
    obtain ⟨hread, hwrite⟩ := unassignedAccess_exec r s hnone hmsi
    exact ⟨⟨_, hread, deliverRead_releaseHolds hheld _ _ _⟩, ⟨_, hwrite, hostReject_releaseHolds hheld⟩⟩
  case unsupported =>
    intro r a n s hal hheld
    exact ⟨_, unsupportedAccess_exec r s hal, hostReject_releaseHolds hheld⟩
  case discards =>
    intro r a n b v p s hal hheld hp hne
    exact ⟨_, unsupportedAccess_exec r s hal, hostReject_releaseHolds_some hheld hp hne⟩
  case isolated =>
    intro r p o a s hp hiso ho ho4 ha hheld
    obtain ⟨hread, hwrite⟩ := isolatedPageAccess_exec r hp hiso ho ho4 ha
    refine ⟨⟨_, hwrite, hostReject_releaseHolds hheld⟩, ?id, ?zero⟩
    case id =>
      rintro rfl
      rw [State.pageRead_id] at hread
      refine ⟨_, hread, Config.boot p.ty.code 0 8 % 256, Nat.mod_lt _ (by decide), ?_⟩
      rw [← idWord_eq]
      exact deliverRead_releaseHolds hheld _ _ _
    case zero =>
      intro h0 h4 hC
      rw [State.pageRead_isolated 4 ((State.releaseHolds_isolated hheld p).trans hiso) h0 h4 hC] at hread
      exact ⟨_, hread, deliverRead_releaseHolds hheld _ _ _⟩

end Sys2Proof.Proofs
end

section
/-! SUPPORT. The rows that every page has: CTRL, soft resets and the event registers (R36 to R46, R80). -/

namespace Sys2Proof.Machine

/-! ### The event registers -/

/-- EVT_STAT after a clear (R39). -/
theorem State.clearEvents_low {s : State} {p : Page} {bits : Nat} (hb : bits < 2 ^ 32)
    (hlow : s.fget p F.com.EVT_STAT &&& (2 ^ 32 - 1 - s.fget p F.com.EVT_MASK) &&& (2 ^ 32 - 1 - bits) = 0) :
    (s.clearEvents p bits).fget p F.com.EVT_STAT = s.fget p F.com.EVT_STAT &&& (2 ^ 32 - 1 - bits) ∧
    ((s.clearEvents p bits).fget p F.com.EVT_STAT = 0 → (s.clearEvents p bits).fon p F.com.CAUSE_VALID = false) ∧
    ((s.clearEvents p bits).fget p F.com.EVT_STAT ≠ 0 →
      (s.clearEvents p bits).fget p F.com.CAUSE_VALID = s.fget p F.com.CAUSE_VALID) ∧
    Only [.regs, .hub] s (s.clearEvents p bits) ∧
    RegsOnly [F.com.EVT_STAT.key p, F.com.CAUSE_VALID.key p] s (s.clearEvents p bits) := by
  unfold State.clearEvents
  rw [Nat.mod_eq_of_lt hb]
  extract_lets left s1
  have hleft : left < 2 ^ 32 := Nat.lt_of_le_of_lt Nat.and_le_right (by omega)
  have hstat : s1.fget p F.com.EVT_STAT = left := (State.fget_fput_self _ _ _ _).trans (Nat.mod_eq_of_lt hleft)
  have hmask : s1.fget p F.com.EVT_MASK = s.fget p F.com.EVT_MASK := State.fget_fput_off _ _ _ (by decide)
  have hvalid : s1.fget p F.com.CAUSE_VALID = s.fget p F.com.CAUSE_VALID := State.fget_fput_off _ _ _ (by decide)
  have honly : Only [.regs, .hub] s s1 := (State.fput_only _ _ _ _).mono (by simp)
  have hregs : RegsOnly [F.com.EVT_STAT.key p, F.com.CAUSE_VALID.key p] s s1 := (State.fput_regsOnly _ _ _ _).mono (by simp)
  have hline : left &&& (2 ^ 32 - 1 - s.fget p F.com.EVT_MASK) = 0 := by
    rw [← hlow, Nat.and_assoc, Nat.and_assoc, Nat.and_comm (2 ^ 32 - 1 - bits)]
  clear_value s1
  by_cases h0 : left = 0
  · rw [if_pos h0]
    have hstat2 : (s1.fset p F.com.CAUSE_VALID false).fget p F.com.EVT_STAT = left :=
      (State.fget_fset_off _ _ _ (by decide)).trans hstat
    obtain ⟨hout, heq⟩ := State.afterLine_low (s := s1.fset p F.com.CAUSE_VALID false) (p := p) s (by simp [State.lineHigh, hstat2, h0])
    have hget := State.fget_of_regs heq p
    refine ⟨by rw [hget, hstat2], fun _ => ?_, fun h => absurd (by rw [hget, hstat2, h0]) h,
      (honly.trans ((State.fset_only _ _ _ _).mono (by simp))).trans (hout.mono (by simp)),
      (hregs.trans ((State.fset_regsOnly _ _ _ _).mono (by simp))).trans (.of_regs heq _)⟩
    rw [State.fon_of_fget (hget _)]
    exact State.fon_fset_self _ _ _ _ (by decide)
  · rw [if_neg h0]
    obtain ⟨hout, heq⟩ := State.afterLine_low (s := s1) (p := p) s (by rw [State.lineHigh, hstat, hmask, hline]; rfl)
    have hget := State.fget_of_regs heq p
    exact ⟨by rw [hget, hstat], fun h => absurd (by rw [← hstat, ← hget, h]) h0, fun _ => by rw [hget, hvalid],
      honly.trans (hout.mono (by simp)), hregs.trans (.of_regs heq _)⟩

/-! ### Soft resets -/

/-- What is read from a store cut to some keys. -/
theorem Store.get_filter_key {α : Type} (f : Nat → Bool) (d : α) (m : List (Nat × α)) (k : Nat) :
    Store.get d (m.filter fun x => f x.1) k = if f k then Store.get d m k else d := by
  induction m with
  | nil => simp [Store.get]
  | cons e m ih =>
    obtain ⟨k', v⟩ := e
    by_cases hk : k' = k
    · subst hk
      by_cases hf : f k' = true <;> simp [Store.get, hf, ih]
    · by_cases hf : f k' = true <;> simp [Store.get, hf, hk, ih]

/-- A present page lies below the MSI-X structures. -/
theorem base_lt {p : Page} (hp : p.present = true) : p.base < 0x2400000 := by
  obtain ⟨t, i⟩ := p
  rw [present_iff] at hp
  cases t <;> simp only [PageType.count] at hp <;> simp only [Page.base] <;> omega

/-- The bit of a field in its page. -/
theorem Fld.key_sub_base (p : Page) (f : Fld) : f.key p - p.base * 8 = 8 * f.off + f.lo := by
  unfold Fld.key
  omega

/-- What a register reads as after the fields of a page have returned to their reset values (R45). -/
theorem State.get_returnFields (s : State) (p : Page) (d k : Nat) : Store.get d (s.returnFields p).regs k =
    if (!inPage p k || (k / 8 < 0x10000000 && keptField p.ty (k - p.base * 8))) then Store.get d s.regs k else d :=
  Store.get_filter_key (fun k => !inPage p k || (k / 8 < 0x10000000 && keptField p.ty (k - p.base * 8))) d s.regs k

/-- A field of the page that its reset does not keep reads as its reset value (R45). -/
theorem State.fget_returnFields_reset (s : State) {p : Page} {f : Fld} (hf : 8 * f.off + f.lo < 0x8000)
    (hk : keptField p.ty (8 * f.off + f.lo) = false) : (s.returnFields p).fget p f = f.reset := by
  rw [State.fget, State.get_returnFields, if_neg]
  simp [inPage_key hf, Fld.key_sub_base, hk]

/-- A field of the page that its reset keeps reads as before (R45). -/
theorem State.fget_returnFields_kept (s : State) {p : Page} (hp : p.present = true) {f : Fld} (hf : 8 * f.off + f.lo < 0x8000)
    (hk : keptField p.ty (8 * f.off + f.lo) = true) : (s.returnFields p).fget p f = s.fget p f := by
  have hbase := base_lt hp
  have hlow : f.key p / 8 < 0x10000000 := by
    unfold Fld.key
    omega
  rw [State.fget, State.get_returnFields, if_pos (by simp [hlow, Fld.key_sub_base, hk])]
  rfl

/-- Fields that return to their reset values lie in the page (R45). -/
theorem State.returnFields_pageOnly (s : State) (p : Page) : PageOnly p s (s.returnFields p) := by
  intro k hk d
  rw [State.get_returnFields, if_pos (by simp [hk])]

theorem State.returnFields_only (s : State) (p : Page) : Only [.regs] s (s.returnFields p) := by
  intro q hq
  cases q <;> first | rfl | exact absurd (by simp) hq

/-- The types of pages whose soft reset ends no work (R45). -/
def workless : List PageType :=
  [.lnk, .ops, .dom, .wake, .tim, .slot, .elog, .cong, .ctx, .cel, .rgn, .tal, .ccr, .mxe, .vec, .net, .seam]

/-- A page that holds no work ends none. -/
theorem State.abortWork_workless (s : State) {p : Page} (h : p.ty ∈ workless) : s.abortWork p = s := by
  obtain ⟨t, i⟩ := p
  simp only [workless, List.mem_cons, List.not_mem_nil, or_false] at h
  rcases h with rfl | rfl | rfl | rfl | rfl | rfl | rfl | rfl | rfl | rfl | rfl | rfl | rfl | rfl | rfl | rfl | rfl <;> rfl

/-- A soft reset returns the control and event registers of any page to their reset values and sets RESET_BUSY (R45). -/
theorem State.softReset_common (s : State) (p : Page) :
    (s.softReset p).resetting p = true ∧ (s.softReset p).fget p F.com.ENABLE = 0 ∧ (s.softReset p).fget p F.com.ENABLED = 0 ∧
    (s.softReset p).fget p F.com.EVT_STAT = 0 ∧ (s.softReset p).fget p F.com.EVT_MASK = 0xFFFFFFFF := by
  have back : ∀ f : Fld, 8 * f.off + f.lo < 0x8000 → 8 * F.com.RESET_BUSY.off + F.com.RESET_BUSY.lo ≠ 8 * f.off + f.lo →
      keptField p.ty (8 * f.off + f.lo) = false → (s.softReset p).fget p f = f.reset := fun f hf hne hk =>
    (State.fget_fset_off _ _ _ hne).trans (State.fget_returnFields_reset _ hf hk)
  exact ⟨State.fon_fset_self _ _ _ _ (by decide), back F.com.ENABLE (by decide) (by decide) rfl,
    back F.com.ENABLED (by decide) (by decide) rfl, back F.com.EVT_STAT (by decide) (by decide) rfl,
    back F.com.EVT_MASK (by decide) (by decide) rfl⟩

/-- A soft reset of a page that holds no work keeps the fields it names and changes no other page (R45). -/
theorem State.softReset_workless (s : State) {p : Page} (hp : p.present = true) (h : p.ty ∈ workless) :
    (s.softReset p).fget p F.com.VERSION_SELECT = s.fget p F.com.VERSION_SELECT ∧
    (∀ k < 8, (s.softReset p).fget p (F.com.EVT_CNT k) = s.fget p (F.com.EVT_CNT k)) ∧
    Only [.regs] s (s.softReset p) ∧ PageOnly p s (s.softReset p) := by
  rw [State.softReset, State.abortWork_workless s h]
  refine ⟨?_, fun k hk => ?_, (State.returnFields_only s p).trans (State.fset_only _ _ _ _),
    (State.returnFields_pageOnly s p).trans (State.fput_pageOnly _ _ (inPage_key (by decide)))⟩
  · rw [State.fget_fset_off _ _ _ (by decide)]
    exact State.fget_returnFields_kept s hp (by decide) rfl
  · have hbit : 8 * (F.com.EVT_CNT k).off + (F.com.EVT_CNT k).lo = 0x100 + 32 * k := by
      change 8 * (0x20 + 4 * k) + 0 = _
      omega
    have hkept : keptField p.ty (0x100 + 32 * k) = true := by
      rw [keptField, if_pos (by omega)]
      simp
    rw [State.fget_fset_off _ _ _ (by rw [hbit]; change 0x61 ≠ _; omega)]
    exact State.fget_returnFields_kept s hp (by rw [hbit]; omega) (by rw [hbit]; exact hkept)

end Sys2Proof.Machine

namespace Sys2Proof.Proofs

open Sys2Proof.Machine

/-! ### Event registers -/

/-- EVT_FORCE of a page other than the host-control page (R38, R39). -/
theorem force_eventRegisters {s : State} {p : Page} (hp : p.present = true) (hne : p ≠ pgHst) (bits : Nat) :
    (s.force p bits).fget p F.com.EVT_STAT = (s.fget p F.com.EVT_STAT ||| (bits &&& definedEvents p)) % 2 ^ 32 ∧
    (∀ k < 8, (s.force p bits).fget p (F.com.EVT_CNT k) = s.fget p (F.com.EVT_CNT k)) ∧
    (s.fon p F.com.CAUSE_VALID = true → (s.force p bits).fget p F.com.CAUSE_FIRST_BIT = s.fget p F.com.CAUSE_FIRST_BIT) ∧
    (∀ k < 32, s.fon p F.com.CAUSE_VALID = false → bitAt (bits &&& definedEvents p) k = true →
      (∀ j < k, bitAt (bits &&& definedEvents p) j = false) →
      (s.force p bits).fon p F.com.CAUSE_VALID = true ∧ (s.force p bits).fon p F.com.CAUSE_FORCED = true ∧
      (s.force p bits).fget p F.com.CAUSE_FIRST_BIT = k ∧ (s.force p bits).fget p F.com.CAUSE_STATUS = 0) := by
  have hget := State.fget_force s hp hne bits
  refine ⟨by rw [hget, State.setStat_evtStat], fun k hk => ?_, fun hv => ?_, fun k hk hv hb hlow => ?_⟩
  · rw [hget]
    refine (State.setStat_regsOnly _ _ _ _ _ _).fget (not_mem_eventKeys ?_)
    simp only [F.com.EVT_CNT, List.mem_cons, List.not_mem_nil, or_false]
    omega
  · rw [hget, State.setStat_valid (.inl hv)]
    exact State.fget_fput_off _ _ _ (by decide)
  · obtain ⟨hvalid, hforced, hfirst, hstatus, -⟩ := State.setStat_cause hv hk hb hlow true 0 0
    exact ⟨(State.fon_of_fget (hget _)).trans hvalid, (State.fon_of_fget (hget _)).trans hforced, (hget _).trans hfirst,
      (hget _).trans hstatus⟩

/-- VALID of a first-position record is one bit (R79, R257). -/
theorem posValid_width {t : PageType} {sat : Bool} {f : Fld} (h : posValid t sat = some f) : 0 < f.width := by
  unfold posValid at h
  split at h <;> cases h <;> decide

/-- Settles O6: each row releases the requester's holds and then acts on the page's own event registers. -/
theorem eventRegisters : Obligations.EventRegisters := by
  refine ⟨?force, ?clear, ?record⟩
  case force =>
    intro r p bits s hr hne
    have hheld := State.reaches_held hr
    obtain ⟨hstat, hcnt, hfirst, hcause⟩ := force_eventRegisters (s := s.releaseHolds r) (State.reaches_present hr) hne bits.toNat
    simp only [State.releaseHolds_fget hheld, State.releaseHolds_fon hheld] at hstat hcnt hfirst hcause
    refine ⟨(s.releaseHolds r).force p bits.toNat, congrArg Host.Outcome.next (State.hubAdmit_reaches hr _), hstat, hcnt, hfirst, hcause, ?_⟩
    exact ((State.releaseHolds_only s r).mono (by simp [eventParts])).trans (State.force_only _ _ _)
  case clear =>
    intro r p bits s _ hiso hcore hheld hlow
    have hopen : ((s.releaseHolds r).isolated p || (coreOnly p 0x010 && !r.isCore)) = false := by
      rw [State.releaseHolds_isolated hheld, hiso]
      cases hc : coreOnly p 0x010
      · rfl
      · simp [hcore hc]
    rw [← State.releaseHolds_fget hheld, ← State.releaseHolds_fget hheld] at hlow
    obtain ⟨hstat, hempty, hkeep, honly, hregs⟩ := State.clearEvents_low bits.isLt hlow
    simp only [State.releaseHolds_fget hheld] at hstat hkeep
    refine ⟨(s.releaseHolds r).clearEvents p bits.toNat, ?_, hstat, hempty, hkeep, (State.releaseHolds_only s r).trans honly,
      (RegsOnly.of_regs (State.releaseHolds_regs hheld) _).trans hregs⟩
    change execEvtClear r p bits s = _
    rw [execEvtClear, hopen]
    rfl
  case record =>
    intro r p sat f s hf hiso hheld
    refine ⟨(s.releaseHolds r).fset p f false, ?_, State.fon_fset_self _ _ _ _ (posValid_width hf),
      (State.releaseHolds_only s r).trans ((State.fset_only _ _ _ _).mono (by simp)),
      (RegsOnly.of_regs (State.releaseHolds_regs hheld) _).trans (State.fset_regsOnly _ _ _ _)⟩
    change execNfRecordClear r p sat s = _
    simp only [execNfRecordClear, hf, State.releaseHolds_isolated hheld, hiso]
    rfl

/-! ### CTRL -/

/-- The two low bits of a CTRL word (R36). -/
theorem bitAt_low (w : Nat) : bitAt w 0 = (w % 2 == 1) ∧ bitAt w 1 = (w / 2 % 2 == 1) := by
  simp [bitAt, Nat.shiftRight_eq_div_pow]

/-- ENABLE takes a CTRL word with ENABLE 1 and SOFT_RESET 0 (R46). -/
theorem exec_enable (r : Requester) (p : Page) {w : BitVec 32} (s : State) (hw : w.toNat % 4 = 1) :
    exec (.enable r p w) s = .next (s.ctrlWrite r p w.toNat) := by
  have h0 : w.toNat % 2 = 1 := by omega
  have h1 : w.toNat / 2 % 2 = 0 := by omega
  refine if_pos ?_
  simp [bitAt_low, h0, h1]

/-- DISABLE takes a CTRL word with ENABLE 0 and SOFT_RESET 0 (R43). -/
theorem exec_disable (r : Requester) (p : Page) {w : BitVec 32} (s : State) (hw : w.toNat % 4 = 0) :
    exec (.disable r p w) s = .next (s.ctrlWrite r p w.toNat) := by
  have h0 : w.toNat % 2 = 0 := by omega
  have h1 : w.toNat / 2 % 2 = 0 := by omega
  refine if_pos ?_
  simp [bitAt_low, h0, h1]

/-- SOFT_RESET takes a CTRL word with SOFT_RESET 1 (R45). -/
theorem exec_softReset (r : Requester) (p : Page) {w : BitVec 32} (s : State) (hw : w.toNat / 2 % 2 = 1) :
    exec (.softReset r p w) s = .next (s.ctrlWrite r p w.toNat) := by
  refine if_pos ?_
  simp [bitAt_low, hw]

/-- The page's selected version gives no reason to discard a CTRL word of no other bits (R46, R47). -/
theorem ctrlReasons_version {s : State} {p : Page} {w : Nat} (hv : s.fget p F.com.VERSION_SELECT = 1) (h1 : w / 16 = 1)
    (h2 : w / 4 % 4 = 0) : s.ctrlReasons p w = 0 := by
  have h3 : w / 256 = 0 := by omega
  simp [State.ctrlReasons, hv, h1, h2, h3, bitAt]

/-- A CTRL word that reaches its page, names the selected version and sets no other bit than ENABLE and SOFT_RESET (R42 to R46). -/
theorem ctrlWrite_taken {s : State} {r : Requester} {p : Page} {w : Nat} (hr : s.reaches r p 0x008 = true)
    (hv : s.fget p F.com.VERSION_SELECT = 1) (h1 : w / 16 = 1) (h2 : w / 4 % 4 = 0) :
    s.ctrlWrite r p w =
      let u := (s.releaseHolds r).fput p F.com.VERSION_SELECT 1
      if bitAt w 1 then u.softReset p
      else if bitAt w 0 then (u.fset p F.com.ENABLE true).fset p F.com.ENABLED true else u.fset p F.com.ENABLE false := by
  have hw : (s.releaseHolds r).ctrlReasons p w = 0 :=
    ctrlReasons_version ((State.releaseHolds_fget (State.reaches_held hr) _ _).trans hv) h1 h2
  rw [State.ctrlWrite, State.hubAdmit_reaches hr, hw, h1]
  cases bitAt w 1 <;> cases bitAt w 0 <;> rfl

/-- A CTRL word that reaches its page and is discarded (R42, R46). -/
theorem ctrlWrite_discarded {s : State} {r : Requester} {p : Page} {w : Nat} (hr : s.reaches r p 0x008 = true)
    (hw : s.ctrlReasons p w ≠ 0) : s.ctrlWrite r p w = (s.releaseHolds r).discard p 0x008 (s.ctrlReasons p w) := by
  have hw' : (s.releaseHolds r).ctrlReasons p w = s.ctrlReasons p w := by
    simp only [State.ctrlReasons, State.releaseHolds_fget (State.reaches_held hr), State.releaseHolds_fon (State.reaches_held hr)]
  rw [State.ctrlWrite, State.hubAdmit_reaches hr, hw', if_pos hw]

/-- A version outside GEN_MASK is a reason to discard a CTRL word (R46). -/
theorem ctrlReasons_reject {s : State} {p : Page} {w : Nat} (hw : w / 16 % 16 ≠ 1) : bitAt (s.ctrlReasons p w) 1 = true := by
  have hgen : bitAt 2 (w / 16 % 16) = false := by
    have hlt : w / 16 % 16 < 16 := Nat.mod_lt _ (by decide)
    generalize w / 16 % 16 = v at hw hlt
    exact (by decide : ∀ v < 16, v ≠ 1 → bitAt 2 v = false) v hlt hw
  simp only [State.ctrlReasons, hgen, Bool.false_eq_true, if_false]
  split <;> split <;> rfl

/-- ENABLE with the selected version sets ENABLE and ENABLED and nothing else (R43, R46). -/
theorem enable_runs {r : Requester} {p : Page} {s : State} (hr : s.reaches r p 0x008 = true) (hv : s.fget p F.com.VERSION_SELECT = 1) :
    Runs (.enable r p 0x11#32) s fun t => t.fon p F.com.ENABLE = true ∧ t.fon p F.com.ENABLED = true ∧
      t.fget p F.com.VERSION_SELECT = 1 ∧ Only [.regs, .hub] s t ∧
      RegsOnly [F.com.ENABLE.key p, F.com.ENABLED.key p, F.com.VERSION_SELECT.key p] s t := by
  have hregs := RegsOnly.of_regs (State.releaseHolds_regs (State.reaches_held hr))
  refine ⟨_, (exec_enable r p s (by decide)).trans (congrArg _ (ctrlWrite_taken hr hv (by decide) (by decide))), ?_, ?_, ?_, ?_, ?_⟩
  · exact (State.fon_of_fget (State.fget_fset_off _ _ _ (by decide))).trans (State.fon_fset_self _ _ _ _ (by decide))
  · exact State.fon_fset_self _ _ _ _ (by decide)
  · exact (State.fget_fset_off _ _ _ (by decide)).trans ((State.fget_fset_off _ _ _ (by decide)).trans (State.fget_fput_self _ _ _ _))
  · exact (((State.releaseHolds_only s r).trans ((State.fput_only _ _ _ _).mono (by simp))).trans
      ((State.fset_only _ _ _ _).mono (by simp))).trans ((State.fset_only _ _ _ _).mono (by simp))
  · exact (((hregs _).trans ((State.fput_regsOnly _ _ F.com.VERSION_SELECT _).mono (by simp))).trans
      ((State.fset_regsOnly _ _ F.com.ENABLE _).mono (by simp))).trans ((State.fset_regsOnly _ _ F.com.ENABLED _).mono (by simp))

/-- DISABLE with the selected version clears ENABLE and leaves ENABLED (R43). -/
theorem disable_runs {r : Requester} {p : Page} {s : State} (hr : s.reaches r p 0x008 = true) (hv : s.fget p F.com.VERSION_SELECT = 1) :
    Runs (.disable r p 0x10#32) s fun t => t.fon p F.com.ENABLE = false ∧ t.fget p F.com.ENABLED = s.fget p F.com.ENABLED ∧
      t.fget p F.com.VERSION_SELECT = 1 ∧ Only [.regs, .hub] s t ∧
      RegsOnly [F.com.ENABLE.key p, F.com.VERSION_SELECT.key p] s t := by
  have hheld := State.reaches_held hr
  have hregs := RegsOnly.of_regs (State.releaseHolds_regs hheld)
  refine ⟨_, (exec_disable r p s (by decide)).trans (congrArg _ (ctrlWrite_taken hr hv (by decide) (by decide))), ?_, ?_, ?_, ?_, ?_⟩
  · exact State.fon_fset_self _ _ _ _ (by decide)
  · exact (State.fget_fset_off _ _ _ (by decide)).trans
      ((State.fget_fput_off _ _ _ (by decide)).trans (State.releaseHolds_fget hheld _ _))
  · exact (State.fget_fset_off _ _ _ (by decide)).trans (State.fget_fput_self _ _ _ _)
  · exact ((State.releaseHolds_only s r).trans ((State.fput_only _ _ _ _).mono (by simp))).trans ((State.fset_only _ _ _ _).mono (by simp))
  · exact ((hregs _).trans ((State.fput_regsOnly _ _ F.com.VERSION_SELECT _).mono (by simp))).trans
      ((State.fset_regsOnly _ _ F.com.ENABLE _).mono (by simp))

/-- ENABLE with a version outside GEN_MASK is discarded as VERSION_REJECT (R46). -/
theorem enable_runs_rejected {r : Requester} {p : Page} {w : BitVec 32} {s : State} (hr : s.reaches r p 0x008 = true)
    (hw : w.toNat % 4 = 1) (hv : w.toNat / 16 % 16 ≠ 1) (hne : p ≠ pgHst) :
    Runs (.enable r p w) s fun t => t.fget p F.com.ENABLE = s.fget p F.com.ENABLE ∧
      t.fget p F.com.VERSION_SELECT = s.fget p F.com.VERSION_SELECT ∧ bitAt (t.fget p F.com.EVT_STAT) 1 = true ∧
      t.fget p (F.com.EVT_CNT 7) = min 0xFFFFFFFF (s.fget p (F.com.EVT_CNT 7) + 1) ∧ Only eventParts s t := by
  have hp := State.reaches_present hr
  have hget := State.releaseHolds_fget (State.reaches_held hr) p
  have hbit : bitAt (s.ctrlReasons p w.toNat) 1 = true := ctrlReasons_reject hv
  refine ⟨_, (exec_enable r p s hw).trans (congrArg _ (ctrlWrite_discarded hr (ne_zero_of_bitAt hbit))), ?_, ?_, ?_, ?_, ?_⟩
  · rw [State.fget_discard _ hp hne _ _ (by decide), hget]
  · rw [State.fget_discard _ hp hne _ _ (by decide), hget]
  · exact State.discard_evtStat _ hp hne _ (by decide) hbit
  · rw [State.discard_count _ hp hne, hget]
  · exact ((State.releaseHolds_only s r).mono (by simp [eventParts])).trans (State.discard_only _ _ _ _)

/-- SOFT_RESET of any page, and what a page that holds no work keeps (R45). -/
theorem softReset_runs {r : Requester} {p : Page} {s : State} (hr : s.reaches r p 0x008 = true) (hv : s.fget p F.com.VERSION_SELECT = 1) :
    Runs (.softReset r p 0x12#32) s fun t => t.resetting p = true ∧ t.fget p F.com.ENABLE = 0 ∧ t.fget p F.com.ENABLED = 0 ∧
      t.fget p F.com.EVT_STAT = 0 ∧ t.fget p F.com.EVT_MASK = 0xFFFFFFFF ∧ (p.ty ∈ workless →
        t.fget p F.com.VERSION_SELECT = 1 ∧ (∀ k < 8, t.fget p (F.com.EVT_CNT k) = s.fget p (F.com.EVT_CNT k)) ∧
        Only [.regs, .hub] s t ∧ PageOnly p s t) := by
  have hheld := State.reaches_held hr
  refine ⟨((s.releaseHolds r).fput p F.com.VERSION_SELECT 1).softReset p, (exec_softReset r p s (by decide)).trans
    (congrArg _ (ctrlWrite_taken hr hv (by decide) (by decide))), ?_⟩
  obtain ⟨hbusy, hen, hend, hstat, hmask⟩ := State.softReset_common ((s.releaseHolds r).fput p F.com.VERSION_SELECT 1) p
  refine ⟨hbusy, hen, hend, hstat, hmask, fun hty => ?_⟩
  obtain ⟨hvs, hcnt, honly, hpage⟩ :=
    State.softReset_workless ((s.releaseHolds r).fput p F.com.VERSION_SELECT 1) (State.reaches_present hr) hty
  refine ⟨hvs.trans (State.fget_fput_self _ _ _ _), fun k hk => (hcnt k hk).trans ?_,
    ((State.releaseHolds_only s r).trans ((State.fput_only _ _ _ _).mono (by simp))).trans (honly.mono (by simp)),
    ((PageOnly.of_regs (State.releaseHolds_regs hheld) p).trans (State.fput_pageOnly _ _ (inPage_key (by decide)))).trans hpage⟩
  rw [State.fget_fput_off, State.releaseHolds_fget hheld]
  change 8 * 0x008 + 4 ≠ 8 * (0x20 + 4 * k) + 0
  omega

/-- RESET_DONE of a reset that waits for nothing (R45). -/
theorem resetDone_runs {p : Page} {s : State} (hp : p.present = true) (hbusy : s.resetting p = true) (hwait : s.resetWaits p = false)
    (hne : p ≠ pgHst) :
    Runs (.resetDone p) s fun t => t.resetting p = false ∧ bitAt (t.fget p F.com.EVT_STAT) 3 = true ∧ Only eventParts s t := by
  have hget := State.fget_events (s.fset p F.com.RESET_BUSY false) hp hne (2 ^ 3) 0 0
  refine ⟨s.resetEnds p, ?_, ?_, ?_, ?_⟩
  · change execResetDone p s = _
    simp [execResetDone, hbusy, hwait]
  · refine (State.fon_of_fget ((hget F.com.RESET_BUSY).trans ?_)).trans (State.fon_fset_self s p F.com.RESET_BUSY false (by decide))
    exact (State.setStat_regsOnly _ _ _ _ _ _).fget (not_mem_eventKeys (by decide))
  · rw [State.resetEnds, State.event, hget, State.setStat_evtStat, bitAt_mod_two_pow, bitAt_or]
    simp [bitAt]
  · exact ((State.fset_only _ _ _ _).mono (by simp [eventParts])).trans (State.event_only _ _ _ _ _)

/-- Settles O5: the CTRL word is judged, then its bits act; a soft reset drops the page's fields that it does not keep. -/
theorem blockControl : Obligations.BlockControl := by
  refine ⟨fun r p s hr hv => ⟨enable_runs hr hv, disable_runs hr hv⟩, fun r p w s hr hw hv hne => enable_runs_rejected hr hw hv hne,
    fun p s _ hen hwork => ?cleared, fun r p s hr hv => softReset_runs hr hv, fun p s hp hbusy hwait hne =>
    resetDone_runs hp hbusy hwait hne⟩
  case cleared =>
    refine ⟨s.fset p F.com.ENABLED false, ?_, State.fon_fset_self _ _ _ _ (by decide), State.fset_only _ _ _ _,
      State.fset_regsOnly _ _ _ _⟩
    change execEnabledCleared p s = _
    simp [execEnabledCleared, hen, hwork]

end Sys2Proof.Proofs
end

section
/-! SUPPORT. Register reads and writes through the hub: which access is taken by which part of REGISTER_WRITE and SPLIT_LOW_READ, and the
effect of a write that covers one plain field (R29, R30, R42). -/

namespace Sys2Proof.Machine

/-! ### Reading the address -/

/-- No refusal of the model meets an offset outside the CXL component registers and the debug offsets (log 22). -/
theorem State.refuses_none (s : State) {p : Page} (hp : p.present = true) {o : Nat} (ho : o < 0x1000)
    (hlnk : p.ty = .lnk → ¬ (0x400 ≤ o ∧ o < 0x800)) (hdbg : ¬ (0xE00 ≤ o ∧ o < 0xF00)) : s.refuses (p.base + o) = none := by
  simp only [State.refuses, pageAt_base_add hp ho, base_add_mod p ho]
  rw [if_neg fun h => hlnk h.1 h.2, if_neg fun h => hdbg ⟨h.1, h.2.1⟩]

/-- An offset of a page is aligned as its address is. -/
theorem aligned_base_add (p : Page) (o n : Nat) : aligned (p.base + o) n = aligned o n := by
  have := base_mod p
  have h4 : (p.base + o) % 4 = o % 4 := by omega
  have h8 : (p.base + o) % 8 = o % 8 := by omega
  by_cases hn4 : n = 4
  · subst hn4
    simp only [aligned, h4]
  · by_cases hn8 : n = 8
    · subst hn8
      simp only [aligned, h8]
    · rw [aligned, aligned, beq_false_of_ne hn4, beq_false_of_ne hn8]
      rfl

/-- The low half of a 64-bit register, told by the offset in its page. -/
theorem isLowHalf_base_add {p : Page} (hp : p.present = true) {o : Nat} (ho : o < 0x1000) :
    isLowHalf (p.base + o) = (o % 8 == 0 && wideLow p.ty o) := by
  have := base_mod p
  have h8 : (p.base + o) % 8 = o % 8 := by omega
  simp only [isLowHalf, pageAt_base_add hp ho, base_add_mod p ho, h8]

/-- A requester that holds no low half completes none. -/
theorem State.heldLow_none {s : State} {r : Requester} (h : Store.get none s.hub.held r.key = none) (a : Nat) : s.heldLow r a = none := by
  rw [State.heldLow, h]

/-! ### REGISTER_WRITE by width -/

/-- A 32-bit write of a word that is no low half of a 64-bit register and completes none (R29). -/
theorem exec_registerWrite_word {r : Requester} {p : Page} {o : Nat} {a : BitVec 26} {s : State} (hp : p.present = true) (ho : o < 0x1000)
    (ha : a.toNat = p.base + o) (hal : aligned o 4 = true) (href : s.refuses (p.base + o) = none)
    (hlow : (o % 8 == 0 && wideLow p.ty o) = false) (hheld : s.heldLow r (p.base + o) = none) (v : BitVec 32) :
    exec (.registerWrite r a false (v.setWidth 64)) s = .next (s.wordWrite r p o v.toNat) := by
  have hv : (v.setWidth 64).toNat % 2 ^ 32 = v.toNat := by
    have := v.isLt
    rw [BitVec.toNat_setWidth]
    omega
  change execRegisterWrite r a false (v.setWidth 64) s = _
  simp only [execRegisterWrite, ha, href, aligned_base_add, hal, isLowHalf_base_add hp ho, hlow, hheld, pageAt_base_add hp ho,
    base_add_mod p ho, Bool.false_eq_true, if_false, hv]
  rfl

/-- A 64-bit write (R29, R30). -/
theorem exec_registerWrite_pair {r : Requester} {p : Page} {o : Nat} {a : BitVec 26} {s : State} (hp : p.present = true) (ho : o < 0x1000)
    (ha : a.toNat = p.base + o) (hal : aligned o 8 = true) (href : s.refuses (p.base + o) = none) (v : BitVec 64) :
    exec (.registerWrite r a true v) s = .next (s.pairWrite r p o v.toNat) := by
  have hv : v.toNat % 2 ^ 64 = v.toNat := Nat.mod_eq_of_lt v.isLt
  change execRegisterWrite r a true v s = _
  simp only [execRegisterWrite, ha, href, aligned_base_add, hal, pageAt_base_add hp ho, base_add_mod p ho, if_true, hv]
  rfl

/-- The upper half written after its lower half: one 64-bit write, with the lower half no longer held (R29). -/
theorem exec_registerWrite_upper {r : Requester} {p : Page} {o : Nat} {a : BitVec 26} {s : State} {lo : Nat} (hp : p.present = true)
    (ho : o + 4 < 0x1000) (ha : a.toNat = p.base + (o + 4)) (hal : aligned o 8 = true) (href : s.refuses (p.base + (o + 4)) = none)
    (hheld : Store.get none s.hub.held r.key = some (p.base + o, lo)) (hi : BitVec 32) :
    exec (.registerWrite r a false (hi.setWidth 64)) s =
      .next (({ s with hub.held := Store.set none s.hub.held r.key none } : State).pairWrite r p o (lo + 2 ^ 32 * hi.toNat)) := by
  have ho8 : o % 8 = 0 := by simpa [aligned] using hal
  have hv : (hi.setWidth 64).toNat % 2 ^ 32 = hi.toNat := by
    have := hi.isLt
    rw [BitVec.toNat_setWidth]
    omega
  have hal4 : aligned (o + 4) 4 = true := by
    simp only [aligned, Bool.and_eq_true, beq_iff_eq]
    exact ⟨rfl, by omega⟩
  have hupper : ((o + 4) % 8 == 0) = false := by
    rw [beq_eq_false_iff_ne]
    omega
  have hlow : s.heldLow r (p.base + (o + 4)) = some lo := by
    simp only [State.heldLow, hheld]
    exact if_pos (Nat.add_assoc _ _ _)
  have hsub : p.base + (o + 4) - 4 = p.base + o := by omega
  change execRegisterWrite r a false (hi.setWidth 64) s = _
  simp only [execRegisterWrite, ha, href, aligned_base_add, hal4, isLowHalf_base_add hp ho, hupper, hlow, hsub,
    pageAt_base_add hp (show o < 0x1000 by omega), base_add_mod p (show o < 0x1000 by omega), Bool.false_eq_true, if_false, hv]
  rfl

/-! ### A write that covers one plain field -/

/-- The `n` bytes at offset `off` of page `p` are one field, from its lowest bit on, that the requester writes where it lies; neither the
register map nor a command register has more to say of such a write. -/
structure OneField (r : Requester) (p : Page) (off n : Nat) (d : FieldDef) (f : Fld) : Prop where
  met : fieldsMet p.ty off n = [(d, f)]
  rw : d.access = .rw
  off_eq : f.off = off
  lo_eq : f.lo = 0
  width_le : f.width ≤ 8 * n
  below : off < 0xE00
  home : homePage p off = p
  here : ∀ s : State, s.heldFld r p f = f
  notSel : ¬ (p.ty = .xpt ∧ f = F.xpt.Q_SEL_QUEUE)
  notAdj : ¬ (p.ty = .tim ∧ f = F.tim.FREQ_ADJ_ADJ)
  noCmd : ∀ v, noCommand p off v = false
  noCmdHi : n = 8 → ∀ v, noCommand p (off + 4) v = false
  noRule : ∀ (s u : State) (v : Nat), RegsOnly [f.key p] s u → ∀ x ∈ pageRules s u r p off n v, x.1 = false

/-- A mask of the low bits cut to fewer. -/
theorem two_pow_sub_one_mod {w m : Nat} (h : w ≤ m) : (2 ^ m - 1) % 2 ^ w = 2 ^ w - 1 := by
  refine Nat.eq_of_testBit_eq fun i => ?_
  simp only [Nat.testBit_mod_two_pow, Nat.testBit_two_pow_sub_one]
  by_cases hi : i < w
  · simp [hi, show i < m by omega]
  · simp [hi]

/-- A number has a bit above the low `w` of its `m` bits where it is 2^w or more. -/
theorem and_high_mask {v w m : Nat} (hv : v < 2 ^ m) (hw : w ≤ m) : v &&& (2 ^ m - 1 - (2 ^ w - 1)) = 0 ↔ v < 2 ^ w := by
  have hmask : ∀ i, (2 ^ m - 1 - (2 ^ w - 1)).testBit i = (decide (i < m) && !decide (i < w)) := by
    intro i
    have hlt : 2 ^ w - 1 < 2 ^ m := Nat.lt_of_lt_of_le (Nat.sub_one_lt (Nat.ne_of_gt (Nat.two_pow_pos w))) (Nat.pow_le_pow_right (by decide) hw)
    rw [Nat.sub_sub, Nat.add_comm 1, Nat.testBit_two_pow_sub_succ hlt, Nat.testBit_two_pow_sub_one]
  constructor
  · intro h
    refine Nat.lt_pow_two_of_testBit v fun i hi => ?_
    by_cases him : i < m
    · have := congrArg (·.testBit i) h
      simpa [Nat.testBit_and, hmask, him, show ¬ i < w by omega] using this
    · exact Nat.testBit_lt_two_pow (Nat.lt_of_lt_of_le hv (Nat.pow_le_pow_right (by decide) (by omega)))
  · intro h
    refine Nat.eq_of_testBit_eq fun i => ?_
    rw [Nat.testBit_and, hmask, Nat.zero_testBit]
    by_cases hi : i < w
    · simp [hi]
    · rw [Nat.testBit_lt_two_pow (Nat.lt_of_lt_of_le h (Nat.pow_le_pow_right (by decide) (by omega))), Bool.false_and]

section
variable {r : Requester} {p : Page} {off n : Nat} {d : FieldDef} {f : Fld} (h : OneField r p off n d f)
include h

/-- The field takes the value written. -/
theorem OneField.takeWrite (s : State) (v : Nat) : s.takeWrite r p off n v [(d, f)] = s.fput p f v := by
  have htake : s.takeWrite r p off n v [(d, f)] = s.takeBits r p off n v f := by simp [State.takeWrite, h.rw]
  rw [htake, State.takeBits, if_neg h.notSel, if_neg h.notAdj, h.here s, h.home, h.off_eq, h.lo_eq, Nat.add_zero, moveBits_self,
    moveBits_self, two_pow_sub_one_mod h.width_le, Nat.sub_self, Nat.and_zero, Nat.zero_or, Nat.and_two_pow_sub_one_eq_mod,
    State.fput, State.fput, Nat.mod_mod]

/-- The access has no other bits than the field's. -/
theorem OneField.coverOf : coverOf [(d, f)] off n = 2 ^ f.width - 1 := by
  have hlt : 2 ^ f.width - 1 < 2 ^ (8 * n) :=
    Nat.lt_of_lt_of_le (Nat.sub_one_lt (Nat.ne_of_gt (Nat.two_pow_pos _))) (Nat.pow_le_pow_right (by decide) h.width_le)
  simp [Machine.coverOf, h.off_eq, h.lo_eq, Nat.mod_eq_of_lt hlt]

/-- The write is discarded for a bit beyond the field, and as LOCKED where it would change a static field of an enabled block (R42). -/
theorem OneField.judge (s : State) {v : Nat} (hv : v < 2 ^ (8 * n)) :
    s.judge (s.fput p f v) r p off n v [(d, f)] = (if v < 2 ^ f.width then 0 else 1) |||
      (if (s.fon p F.com.ENABLED && (d.static && v % 2 ^ f.width != s.fget p f)) = true then 4 else 0) := by
  have hrsv : (v % 2 ^ (8 * n) &&& (2 ^ (8 * n) - 1 - Machine.coverOf [(d, f)] off n) != 0) = !decide (v < 2 ^ f.width) := by
    have hiff := and_high_mask hv h.width_le
    rw [Nat.mod_eq_of_lt hv, h.coverOf]
    by_cases hw : v < 2 ^ f.width
    · simp [hw, hiff.mpr hw]
    · simp [hw, mt hiff.mp hw]
  have hcmd : (noCommand p off (v % 2 ^ 32) || (n == 8 && noCommand p (off + 4) (v / 2 ^ 32 % 2 ^ 32))) = false := by
    by_cases h8 : n = 8
    · simp [h.noCmd, h.noCmdHi h8]
    · simp [h.noCmd, h8]
  have hrules : ∀ (l : List (Bool × Nat)) (m : Nat), (∀ x ∈ l, x.1 = false) →
      l.foldl (fun m x => if x.1 then m ||| x.2 else m) m = m := by
    intro l
    induction l with
    | nil => intro m _; rfl
    | cons x l ih =>
      intro m hl
      rw [List.foldl_cons, hl x (by simp)]
      exact ih m fun y hy => hl y (by simp [hy])
  have hlock : (s.fon p F.com.ENABLED && ([(d, f)].any fun x => x.1.static && x.1.access == .rw && (s.fput p f v).fget p x.2 != s.fget p x.2))
      = (s.fon p F.com.ENABLED && (d.static && v % 2 ^ f.width != s.fget p f)) := by simp [h.rw]
  rw [State.judge, hrsv, hlock, hcmd, List.foldl_append, hrules _ _ (h.noRule s _ v (State.fput_regsOnly s p f v))]
  by_cases hw : v < 2 ^ f.width <;>
    cases (s.fon p F.com.ENABLED && (d.static && v % 2 ^ f.width != s.fget p f)) <;> simp [hw]

/-- The hub judges the field's new value, and the field takes it or the write is discarded (R42). -/
theorem OneField.pageWrite (s : State) {v : Nat} (hv : v < 2 ^ (8 * n)) {why : Nat}
    (hwhy : (if v < 2 ^ f.width then 0 else 1) |||
      (if (s.fon p F.com.ENABLED && (d.static && v % 2 ^ f.width != s.fget p f)) = true then 4 else 0) = why) :
    s.pageWrite r p off n v = if why = 0 then (s.fput p f v).afterWrite s p off n else s.discard p off (why % 8) := by
  have hbelow := h.below
  rw [State.pageWrite, if_neg (by omega)]
  simp only [h.met, h.takeWrite, h.judge s hv, hwhy]

/-- A write that nothing discards: the field takes the value, and what follows the write follows (R42). -/
theorem OneField.pageWrite_taken {s : State} {v : Nat} (hv : v < 2 ^ f.width)
    (hlock : (s.fon p F.com.ENABLED && (d.static && v != s.fget p f)) = false) :
    s.pageWrite r p off n v = (s.fput p f v).afterWrite s p off n :=
  h.pageWrite s (Nat.lt_of_lt_of_le hv (Nat.pow_le_pow_right (by decide) h.width_le)) (why := 0)
    (by rw [Nat.mod_eq_of_lt hv, hlock, if_pos hv]; rfl)

/-- A write that would change a static field of an enabled block is discarded as LOCKED_WRITE (R42). -/
theorem OneField.pageWrite_locked {s : State} {v : Nat} (hv : v < 2 ^ f.width) (hen : s.fon p F.com.ENABLED = true) (hst : d.static = true)
    (hne : v ≠ s.fget p f) : s.pageWrite r p off n v = s.discard p off 4 :=
  h.pageWrite s (Nat.lt_of_lt_of_le hv (Nat.pow_le_pow_right (by decide) h.width_le)) (why := 4)
    (by rw [Nat.mod_eq_of_lt hv, if_pos hv, if_pos (by simp [hen, hst, hne])]; rfl)

/-- A write with a bit beyond the field is discarded, RSV_WRITE among its reasons (R42). -/
theorem OneField.pageWrite_rsv (s : State) {v : Nat} (hv : 2 ^ f.width ≤ v) (hv8 : v < 2 ^ (8 * n)) :
    ∃ evs, bitAt evs 0 = true ∧ s.pageWrite r p off n v = s.discard p off evs := by
  by_cases hlock : (s.fon p F.com.ENABLED && (d.static && v % 2 ^ f.width != s.fget p f)) = true
  · exact ⟨5, rfl, h.pageWrite s hv8 (why := 5) (by rw [if_neg (by omega), if_pos hlock]; rfl)⟩
  · exact ⟨1, rfl, h.pageWrite s hv8 (why := 1) (by rw [if_neg (by omega), if_neg hlock]; rfl)⟩

end

end Sys2Proof.Machine
end

section
/-! SUPPORT. Single registers of the hub: EVT_MASK of any page, the 64-bit registers of R29, and the split accesses to them. -/

namespace Sys2Proof.Machine

/-! ### EVT_MASK -/

/-- A queue register of the XPT is still no common page word (R371). -/
theorem State.heldFld_off (s : State) (r : Requester) (p : Page) {f : Fld} (h : 0x40 ≤ f.off) : 0x40 ≤ (s.heldFld r p f).off := by
  unfold State.heldFld
  split
  · exact Nat.le_trans h (by change f.off ≤ f.off + 0x10000000 + _; omega)
  · exact h

/-- No page's own rules speak of a write below offset 0x040 that leaves its registers from there on (R42). -/
theorem pageRules_common {s u : State} (r : Requester) (p : Page) {off n : Nat} (v : Nat) (h : off + n ≤ 0x40)
    (hu : ∀ f : Fld, 0x40 ≤ f.off → u.fget p f = s.fget p f) : ∀ x ∈ pageRules s u r p off n v, x.1 = false := by
  have hfar : ∀ lo, 0x41 ≤ lo → ¬ lo ≤ off := fun lo hlo => by omega
  unfold pageRules
  extract_lets met now changed i16 slot queue region chunk
  have hmet : ∀ lo hi, 0x40 ≤ lo → met lo hi = false := fun lo hi hlo => by
    change (decide _ && decide (lo < off + n)) = false
    simp [show ¬ lo < off + n by omega]
  have hchanged : ∀ f : Fld, 0x40 ≤ f.off → changed f = false := fun f hf => by
    change (u.fget p f != s.fget p f) = false
    simp [hu f hf]
  have hqueue : ∀ f : Fld, 0x40 ≤ f.off → changed (queue f) = false := fun f hf => hchanged _ (State.heldFld_off s r p hf)
  clear_value changed i16 met queue
  split <;> simp (disch := decide) [hmet, hfar, hchanged, hqueue]
  intro i hi hphase
  omega

/-- EVT_MASK is one plain field of every page (R38). -/
theorem oneField_evtMask (r : Requester) (p : Page) :
    OneField r p 0x014 4 ⟨fun _ => F.com.EVT_MASK, 0, 1, .rw, false, false, false⟩ F.com.EVT_MASK where
  met := fieldsMet_common p.ty (by decide)
  rw := rfl
  off_eq := rfl
  lo_eq := rfl
  width_le := by decide
  below := by decide
  home := if_neg fun h => absurd h.2.1 (by decide)
  here _ := if_neg fun h => absurd h.2.1 (by decide)
  notSel h := absurd h.2 (by decide)
  notAdj h := absurd h.2 (by decide)
  noCmd v := by cases h : p.ty <;> simp [noCommand, h]
  noCmdHi h := absurd h (by decide)
  noRule s u v hu := pageRules_common r p v (by decide) fun f hf => hu.fget (by
    rw [List.mem_singleton]
    exact (Fld.key_ne (by change 8 * 0x14 + 0 ≠ _; omega)).symm)

/-- After a write of EVT_MASK the page's line is looked at again, and nothing else happens (R385). -/
theorem State.afterWrite_evtMask (s u : State) (p : Page) : u.afterWrite s p 0x014 4 = u.afterLine s p := by
  obtain ⟨t, i⟩ := p
  cases t <;> rfl

/-- No row of its own takes a word at EVT_MASK. -/
theorem ownRow_evtMask (p : Page) (v : Nat) : ownRow p 0x014 v = false := by
  cases h : p.ty <;> simp [ownRow, h]

/-! ### GL_BASE_TIME and THR_RING_BASE -/

/-- GL_BASE_TIME is one plain field of 64 bits (R338). -/
theorem oneField_baseTime (r : Requester) (n : Nat) :
    OneField r (pgGl n) 0x058 8 ⟨fun _ => F.gl.GL_BASE_TIME_TIME, 0, 1, .rw, false, false, true⟩ F.gl.GL_BASE_TIME_TIME where
  met := rfl
  rw := rfl
  off_eq := rfl
  lo_eq := rfl
  width_le := by decide
  below := by decide
  home := if_neg fun h => absurd h.1 (by simp [pgGl])
  here _ := if_neg fun h => absurd h.1 (by simp [pgGl])
  notSel h := absurd h.1 (by simp [pgGl])
  notAdj h := absurd h.1 (by simp [pgGl])
  noCmd v := by simp [noCommand, pgGl]
  noCmdHi _ v := by simp [noCommand, pgGl]
  noRule _ _ _ _ x hx := by simp [pageRules, pgGl] at hx

/-- THR_RING_BASE is one plain field of 52 bits, static while the page is ENABLED (R445). -/
theorem oneField_ringBase (r : Requester) :
    OneField r pgThr 0x800 8 ⟨fun _ => F.thr.THR_RING_BASE_ADDR, 0, 1, .rw, true, false, true⟩ F.thr.THR_RING_BASE_ADDR where
  met := rfl
  rw := rfl
  off_eq := rfl
  lo_eq := rfl
  width_le := by decide
  below := by decide
  home := if_neg fun h => absurd h.1 (by decide)
  here _ := if_neg fun h => absurd h.1 (by decide)
  notSel h := absurd h.1 (by decide)
  notAdj h := absurd h.1 (by decide)
  noCmd v := by simp [noCommand, pgThr]
  noCmdHi _ v := by simp [noCommand, pgThr]
  noRule _ _ _ _ x hx := by
    simp only [pageRules, pgThr, List.mem_singleton] at hx
    rw [hx]
    rfl

/-- A 64-bit write where no word has a row of its own reaches its page as one write (R30). -/
theorem State.pairWrite_reaches {s : State} {r : Requester} {p : Page} {o : Nat} (hr : s.reaches r p o = true)
    (hlo : ∀ v, ownRow p o v = false) (hhi : ∀ v, ownRow p (o + 4) v = false) (v : Nat) :
    s.pairWrite r p o v = (s.releaseHolds r).pageWrite r p o 8 v := by
  simp only [State.pairWrite, hlo, hhi, Bool.and_false, Bool.or_false, Bool.false_eq_true, and_false, if_false]
  exact State.hubAdmit_reaches hr _

/-- The registers of 64 bits here have no row of their own. -/
theorem ownRow_baseTime (n v : Nat) : ownRow (pgGl n) 0x058 v = false ∧ ownRow (pgGl n) 0x05C v = false := by
  simp [ownRow, pgGl]

theorem ownRow_ringBase (v : Nat) : ownRow pgThr 0x800 v = false ∧ ownRow pgThr 0x804 v = false := by
  simp [ownRow, pgThr]

end Sys2Proof.Machine
end

section
/-! SUPPORT. Reads of the BAR and the split accesses of R29. -/

namespace Sys2Proof.Machine

/-! ### Reads -/

/-- A read of a page's address is a read of the page. -/
theorem State.barRead_base_add (s : State) (r : Requester) {p : Page} (hp : p.present = true) {o : Nat} (ho : o < 0x1000) (n : Nat) :
    s.barRead r (p.base + o) n = s.pageRead r p o n := by
  have := base_lt hp
  rw [State.barRead, if_neg (by omega), if_neg (by omega)]
  simp only [pageAt_base_add hp ho, base_add_mod p ho]

/-- What a read of the low or the high half of TIM.TIME finds (R163). -/
theorem State.pageRead_time {s : State} (r : Requester) (h : s.isolated ⟨.tim, 0⟩ = false) :
    s.pageRead r ⟨.tim, 0⟩ 0x40 4 = s.time.toNat % 2 ^ 32 ∧ s.pageRead r ⟨.tim, 0⟩ 0x44 4 = s.time.toNat / 2 ^ 32 := by
  have hval : s.fieldValue r ⟨.tim, 0⟩ F.tim.TIME_TIME = s.time.toNat := rfl
  have hmet : ∀ o ∈ [0x40, 0x44], fieldsMet .tim o 4 =
      [(⟨fun _ => F.tim.TIME_TIME, 0, 1, .ro, false, false, true⟩, F.tim.TIME_TIME)] := by
    intro o ho
    simp only [List.mem_cons, List.not_mem_nil, or_false] at ho
    rcases ho with rfl | rfl <;> rfl
  have hread : ∀ o ∈ [0x40, 0x44], s.pageRead r ⟨.tim, 0⟩ o 4 = moveBits s.time.toNat (8 * o) (8 * 0x40) % 2 ^ 32 := by
    intro o ho
    have hlt : ¬ 0xE00 ≤ o := by
      simp only [List.mem_cons, List.not_mem_nil, or_false] at ho
      omega
    rw [State.pageRead, if_neg (by simp [h]), if_neg hlt, hmet o ho, List.foldl_cons, List.foldl_nil, if_neg (by simp), hval, Nat.zero_add]
    rfl
  refine ⟨by rw [hread 0x40 (by simp), moveBits_self], ?_⟩
  rw [hread 0x44 (by simp)]
  have hlt := s.time.isLt
  simp only [moveBits, Nat.shiftLeft_eq, Nat.shiftRight_eq_div_pow, Nat.reduceMul, Nat.reduceSub, Nat.pow_zero, Nat.mul_one]
  omega

theorem State.deliverRead_only (s : State) (a n v : Nat) : Only [.out] s (s.deliverRead a n v) := by
  intro q hq
  cases q <;> first | rfl | exact absurd (by simp) hq

/-! ### Halves of split accesses -/

/-- A change of what the register hub holds beside the fields. -/
theorem State.withHub_only (s : State) (x : Hub) : Only [.hub] s { s with hub := x } := by
  intro q hq
  cases q <;> first | rfl | exact absurd (by simp) hq

/-- The state in which a requester has captured the upper half of the register at `a` (R29). -/
def State.withCapture (s : State) (r : Requester) (a v : Nat) : State :=
  { s with hub.captured := Store.set none s.hub.captured r.key (some (a, v)) }

/-- The state in which a requester holds the lower half written at `a` (R29). -/
def State.withHeld (s : State) (r : Requester) (a v : Nat) : State :=
  { s with hub.held := Store.set none s.hub.held r.key (some (a, v)) }

theorem State.withCapture_captured (s : State) (r : Requester) (a v : Nat) :
    Store.get none (s.withCapture r a v).hub.captured r.key = some (a, v) := Store.get_set_self none s.hub.captured r.key (some (a, v))

theorem State.withHeld_held (s : State) (r : Requester) (a v : Nat) :
    Store.get none (s.withHeld r a v).hub.held r.key = some (a, v) := Store.get_set_self none s.hub.held r.key (some (a, v))

theorem State.withCapture_only (s : State) (r : Requester) (a v : Nat) : Only [.hub] s (s.withCapture r a v) := State.withHub_only s _

theorem State.withHeld_only (s : State) (r : Requester) (a v : Nat) : Only [.hub] s (s.withHeld r a v) := State.withHub_only s _

/-- Any access releases a captured half of a requester that holds none (R29). -/
theorem State.releaseHolds_captured {s : State} {r : Requester} (h : Store.get none s.hub.held r.key = none) :
    Store.get none (s.releaseHolds r).hub.captured r.key = none := by
  rw [State.releaseHolds_none h]
  exact Store.get_set_self none s.hub.captured r.key none

/-! ### SPLIT_LOW_READ -/

/-- A 32-bit read of a low half, by a requester that has captured nothing (R29). -/
theorem exec_splitLowRead_low {r : Requester} {p : Page} {o : Nat} {a : BitVec 26} {s : State} (hp : p.present = true) (ho : o + 4 < 0x1000)
    (ha : a.toNat = p.base + o) (ho8 : o % 8 = 0) (hwide : wideLow p.ty o = true) (href : s.refuses (p.base + o) = none)
    (hcap : Store.get none s.hub.captured r.key = none) :
    exec (.splitLowRead r a false) s =
      let u := (s.releaseHolds r).deliverRead (p.base + o) 4 ((s.releaseHolds r).pageRead r p o 4)
      .next (u.withCapture r (p.base + o) (u.pageRead r p (o + 4) 4)) := by
  have hal : aligned o 4 = true := by
    simp only [aligned, Bool.and_eq_true, beq_iff_eq]
    exact ⟨rfl, by omega⟩
  have ho' : o < 0x1000 := by omega
  have hread : ∀ u : State, u.barRead r (p.base + o + 4) 4 = u.pageRead r p (o + 4) 4 := fun u => by
    rw [Nat.add_assoc, State.barRead_base_add u r hp ho]
  change execSplitLowRead r a false s = _
  simp only [execSplitLowRead, ha, href, hcap, Bool.false_eq_true, if_false, aligned_base_add, hal, isLowHalf_base_add hp ho', ho8, hwide,
    State.barRead_base_add _ r hp ho', hread]
  rfl

/-- The 32-bit read that finds its upper half captured (R29). -/
theorem exec_splitLowRead_captured {r : Requester} {a : BitVec 26} {b v : Nat} {s : State} (ha : a.toNat = b + 4) (hb : b % 8 = 0)
    (href : s.refuses a.toNat = none) (hcap : Store.get none s.hub.captured r.key = some (b, v)) :
    exec (.splitLowRead r a false) s = .next ((s.releaseHolds r).deliverRead a.toNat 4 v) := by
  have hal : aligned a.toNat 4 = true := by
    simp only [aligned, Bool.and_eq_true, beq_iff_eq]
    exact ⟨rfl, by omega⟩
  change execSplitLowRead r a false s = _
  simp [execSplitLowRead, href, hcap, hal, ← ha]

/-- A 64-bit read (R29). -/
theorem exec_splitLowRead_wide {r : Requester} {a : BitVec 26} {s : State} (hal : aligned a.toNat 8 = true)
    (href : s.refuses a.toNat = none) :
    exec (.splitLowRead r a true) s = .next ((s.releaseHolds r).deliverRead a.toNat 8 ((s.releaseHolds r).barRead r a.toNat 8)) := by
  change execSplitLowRead r a true s = _
  unfold execSplitLowRead
  simp only [href, if_true, hal, Bool.not_true, Bool.false_eq_true, if_false, Bool.false_and, false_and]
  cases Store.get none s.hub.captured r.key <;> rfl

/-! ### SPLIT_LOW_WRITE -/

/-- A 32-bit write of a low half is held (R29). -/
theorem exec_splitLowWrite {r : Requester} {p : Page} {o : Nat} {a : BitVec 26} {s : State} (hp : p.present = true) (ho : o < 0x1000)
    (ha : a.toNat = p.base + o) (ho8 : o % 8 = 0) (hwide : wideLow p.ty o = true) (href : s.refuses (p.base + o) = none)
    (hiso : s.isolated p = false) (lo : BitVec 32) :
    exec (.splitLowWrite r a lo) s = .next ((s.releaseHolds r).withHeld r (p.base + o) lo.toNat) := by
  change execSplitLowWrite r a lo s = _
  simp only [execSplitLowWrite, ha, href, isLowHalf_base_add hp ho, ho8, hwide, pageAt_base_add hp ho, Option.getD_some, hiso]
  rfl

end Sys2Proof.Machine

namespace Sys2Proof.Proofs

open Sys2Proof.Machine

/-! ### Split accesses -/

/-- GL_BASE_TIME takes a 64-bit value at once, and no other register changes (R29). -/
theorem pairWrite_baseTime {s : State} {r : Requester} {n : Nat} (hr : s.reaches r (pgGl n) 0x058 = true) {v : Nat} (hv : v < 2 ^ 64) :
    (s.pairWrite r (pgGl n) 0x058 v).fget (pgGl n) F.gl.GL_BASE_TIME_TIME = v ∧
    (s.pairWrite r (pgGl n) 0x058 v).hub = (s.releaseHolds r).hub ∧ Only [.regs, .hub] s (s.pairWrite r (pgGl n) 0x058 v) ∧
    RegsOnly [F.gl.GL_BASE_TIME_TIME.key (pgGl n)] s (s.pairWrite r (pgGl n) 0x058 v) := by
  have hregs := State.releaseHolds_regs (State.reaches_held hr)
  rw [State.pairWrite_reaches hr (fun w => (ownRow_baseTime n w).1) (fun w => (ownRow_baseTime n w).2),
    (oneField_baseTime r n).pageWrite_taken (s := s.releaseHolds r) hv (by simp)]
  change State.fget (State.fput _ _ _ _) _ _ = v ∧ _
  refine ⟨(State.fget_fput_self _ _ _ _).trans (Nat.mod_eq_of_lt hv), rfl,
    (State.releaseHolds_only s r).trans ((State.fput_only _ (pgGl n) F.gl.GL_BASE_TIME_TIME v).mono (by simp)),
    (RegsOnly.of_regs hregs _).trans (State.fput_regsOnly _ (pgGl n) F.gl.GL_BASE_TIME_TIME v)⟩

theorem present_tim : (Page.mk .tim 0).present = true := rfl

theorem present_gl (n : Fin 8) : (pgGl n.val).present = true := present_iff.mpr n.isLt

/-- No access below the debug offsets of a gate-list page is refused. -/
theorem refuses_gl (s : State) (n : Fin 8) {o : Nat} (ho : o < 0xE00) : s.refuses ((pgGl n.val).base + o) = none :=
  s.refuses_none (present_gl n) (by omega) (fun h => absurd h (by simp [pgGl])) (by omega)

/-- A 32-bit read of TIM.TIME's low half delivers it and captures the high half (R29, R163). -/
theorem splitLowRead_time_runs {r : Requester} {a : BitVec 26} {s : State} (ha : a.toNat = (Page.mk .tim 0).base + 0x40)
    (hr : s.reaches r ⟨.tim, 0⟩ 0x40 = true) (hcap : Store.get none s.hub.captured r.key = none) :
    Runs (.splitLowRead r a false) s fun t => t.out = s.out ++ [Out.read a.toNat (leBytes 4 (s.time.toNat % 2 ^ 32))] ∧
      Store.get none t.hub.captured r.key = some (a.toNat, s.time.toNat / 2 ^ 32) ∧ Only [.out, .hub] s t := by
  have hheld := State.reaches_held hr
  have hiso : (s.releaseHolds r).isolated ⟨.tim, 0⟩ = false :=
    (State.releaseHolds_isolated hheld _).trans (State.reaches_iff.mp hr).2.1
  have href := s.refuses_none present_tim (o := 0x40) (by decide) (fun h => absurd h (by decide)) (by decide)
  have honly := State.releaseHolds_only_hub hheld
  have htime : (s.releaseHolds r).time = s.time := honly .time (by decide)
  have hlow : (s.releaseHolds r).pageRead r ⟨.tim, 0⟩ 0x40 4 = s.time.toNat % 2 ^ 32 := by
    rw [(State.pageRead_time r hiso).1, htime]
  have hhigh : ∀ x, ((s.releaseHolds r).deliverRead a.toNat 4 x).pageRead r ⟨.tim, 0⟩ (0x40 + 4) 4 = s.time.toNat / 2 ^ 32 := by
    intro x
    rw [← htime]
    exact (State.pageRead_time (s := (s.releaseHolds r).deliverRead a.toNat 4 x) r hiso).2
  refine ⟨_, exec_splitLowRead_low present_tim (by decide) ha (by decide) rfl href hcap, ?_⟩
  rw [← ha, hlow, hhigh]
  exact ⟨congrArg (· ++ _) (honly .out (by decide)), State.withCapture_captured _ _ _ _,
    ((honly.mono (by simp)).trans ((State.deliverRead_only _ _ _ _).mono (by simp))).trans
      ((State.withCapture_only _ _ _ _).mono (by simp))⟩

/-- The upper half of GL_BASE_TIME, written with the lower half held, completes one 64-bit write (R29). -/
theorem registerWrite_upper_runs {r : Requester} {n : Fin 8} {a : BitVec 26} {lo hi : BitVec 32} {s : State}
    (ha : a.toNat = (pgGl n.val).base + 0x5C) (hheld : Store.get none s.hub.held r.key = some ((pgGl n.val).base + 0x58, lo.toNat))
    (hiso : s.isolated (pgGl n.val) = false) (hres : s.resetting (pgGl n.val) = false) :
    Runs (.registerWrite r a false (hi.setWidth 64)) s fun t =>
      t.fget (pgGl n.val) F.gl.GL_BASE_TIME_TIME = lo.toNat + 2 ^ 32 * hi.toNat ∧ Store.get none t.hub.held r.key = none ∧
      Only [.regs, .hub] s t ∧ RegsOnly [F.gl.GL_BASE_TIME_TIME.key (pgGl n.val)] s t := by
  have hfree : Store.get none (Store.set none s.hub.held r.key none) r.key = none := Store.get_set_self _ _ _ _
  have hr : State.reaches { s with hub.held := Store.set none s.hub.held r.key none } r (pgGl n.val) 0x058 = true :=
    State.reaches_iff.mpr
      ⟨present_gl n, hiso, hres, fun h => absurd h (by simp [pgGl]), fun h => absurd h (by simp [coreOnly, pgGl]), hfree⟩
  obtain ⟨hval, hhub, honly, hregs⟩ := pairWrite_baseTime hr (v := lo.toNat + 2 ^ 32 * hi.toNat) (by omega)
  refine ⟨_, exec_registerWrite_upper (present_gl n) (o := 0x058) (by decide) ha (by decide) (refuses_gl s n (by decide)) hheld hi,
    hval, ?_, ((State.withHub_only s _).mono (by simp)).trans honly, (RegsOnly.of_regs rfl _).trans hregs⟩
  rw [hhub, State.releaseHolds_none hfree]
  exact hfree

/-- Settles O3: a low half is captured or held for its requester, and the high half completes one 64-bit access. -/
theorem splitAccesses : Obligations.SplitAccesses := by
  refine ⟨fun r a s ha hr hcap => splitLowRead_time_runs ha hr hcap, ?highRead, ?lowWrite,
    fun r n a lo hi s ha hheld hiso hres => registerWrite_upper_runs ha hheld hiso hres, ?wideWrite, ?wideRead⟩
  case highRead =>
    intro r a b v s ha hb href hcap hheld
    have honly := State.releaseHolds_only_hub hheld
    exact ⟨_, exec_splitLowRead_captured ha hb href hcap, congrArg (· ++ _) (honly .out (by decide)), State.releaseHolds_captured hheld,
      (honly.mono (by simp)).trans ((State.deliverRead_only _ _ _ _).mono (by simp))⟩
  case lowWrite =>
    intro r n a lo s ha hr
    have hiso := (State.reaches_iff.mp hr).2.1
    refine ⟨_, exec_splitLowWrite (present_gl n) (by decide) ha (by decide) rfl (refuses_gl s n (by decide)) hiso lo, ?_⟩
    rw [← ha]
    exact ⟨State.withHeld_held _ _ _ _, (State.releaseHolds_only_hub (State.reaches_held hr)).trans (State.withHeld_only _ _ _ _)⟩
  case wideWrite =>
    intro r n a v s ha hr
    obtain ⟨hval, -, honly, hregs⟩ := pairWrite_baseTime hr v.isLt
    exact ⟨_, exec_registerWrite_pair (present_gl n) (by decide) ha (by decide) (refuses_gl s n (by decide)) v, hval, honly, hregs⟩
  case wideRead =>
    intro r a b v p s hal href hheld hp
    have hregs := State.releaseHolds_some_regs hheld hp
    exact ⟨_, exec_splitLowRead_wide hal href, State.releaseHolds_some_held hheld hp,
      (State.fget_of_regs hregs _ _).trans (State.fget_bump_self s p _ 1),
      ((State.releaseHolds_only s r).mono (by simp)).trans ((State.deliverRead_only _ _ _ _).mono (by simp)),
      (State.bump_regsOnly s p _ 1).trans (.of_regs hregs _)⟩

end Sys2Proof.Proofs
end

section
/-! The register writes of O4: EVT_MASK of any page, THR_RING_BASE, and the CTRL word. -/

namespace Sys2Proof.Proofs

open Sys2Proof.Machine

/-- A write of EVT_MASK that leaves the page's line low (R38, R385). -/
theorem pageWrite_evtMask {s : State} {r : Requester} {p : Page} {v : Nat} (hv : v < 2 ^ 32)
    (hlow : s.fget p F.com.EVT_STAT &&& (2 ^ 32 - 1 - v) = 0) :
    (s.pageWrite r p 0x014 4 v).fget p F.com.EVT_MASK = v ∧ Only [.regs, .hub] s (s.pageWrite r p 0x014 4 v) ∧
    RegsOnly [F.com.EVT_MASK.key p] s (s.pageWrite r p 0x014 4 v) := by
  have hmask : (s.fput p F.com.EVT_MASK v).fget p F.com.EVT_MASK = v := (State.fget_fput_self _ _ _ _).trans (Nat.mod_eq_of_lt hv)
  have hline : (s.fput p F.com.EVT_MASK v).lineHigh p = false := by
    rw [State.lineHigh, hmask, State.fget_fput_off _ _ _ (by decide), hlow]
    rfl
  obtain ⟨honly, hregs⟩ := State.afterLine_low s hline
  rw [(oneField_evtMask r p).pageWrite_taken (s := s) hv (by simp), State.afterWrite_evtMask]
  exact ⟨(State.fget_of_regs hregs _ _).trans hmask, ((State.fput_only _ _ _ _).mono (by simp)).trans (honly.mono (by simp)),
    (State.fput_regsOnly _ _ _ _).trans (.of_regs hregs _)⟩

/-- Settles O4: a write that covers one field is judged, and the field takes it or the page counts it as discarded. -/
theorem registerWrites : Obligations.RegisterWrites := by
  have hthr : pgThr.present = true := rfl
  have hthrne : pgThr ≠ pgHst := by decide
  have hpair : ∀ (r : Requester) (a : BitVec 26) (v : BitVec 64) (s : State), a.toNat = pgThr.base + 0x800 →
      s.reaches r pgThr 0x800 = true →
      exec (.registerWrite r a true v) s = .next ((s.releaseHolds r).pageWrite r pgThr 0x800 8 v.toNat) := by
    intro r a v s ha hr
    have href := s.refuses_none hthr (o := 0x800) (by decide) (fun h => absurd h (by decide)) (by decide)
    rw [exec_registerWrite_pair hthr (by decide) ha (by decide) href,
      State.pairWrite_reaches hr (fun w => (ownRow_ringBase w).1) (fun w => (ownRow_ringBase w).2)]
  refine ⟨?mask, ?taken, ?locked, ?rsv, ?ctrl⟩
  case mask =>
    intro r p a v s ha hr hlow
    have hp := State.reaches_present hr
    have hheld := State.reaches_held hr
    rw [← State.releaseHolds_fget hheld] at hlow
    obtain ⟨hval, honly, hregs⟩ := pageWrite_evtMask (r := r) v.isLt hlow
    refine ⟨(s.releaseHolds r).pageWrite r p 0x014 4 v.toNat, ?_, hval, (State.releaseHolds_only s r).trans honly,
      (RegsOnly.of_regs (State.releaseHolds_regs hheld) _).trans hregs⟩
    rw [exec_registerWrite_word hp (by decide) ha (by decide) (s.refuses_none hp (by decide) (fun _ => by decide) (by decide)) rfl
      (State.heldLow_none hheld _), State.wordWrite, ownRow_evtMask, State.hubAdmit_reaches hr]
    rfl
  case taken =>
    intro r a v s ha hr hv hen
    have hheld := State.reaches_held hr
    rw [← State.releaseHolds_fon hheld] at hen
    refine ⟨_, hpair r a v s ha hr, ?_⟩
    rw [(oneField_ringBase r).pageWrite_taken hv (by rw [hen]; rfl)]
    exact ⟨(State.fget_fput_self _ _ _ _).trans (Nat.mod_eq_of_lt hv),
      (State.releaseHolds_only s r).trans ((State.fput_only _ _ _ _).mono (by simp)),
      (RegsOnly.of_regs (State.releaseHolds_regs hheld) _).trans (State.fput_regsOnly _ _ _ _)⟩
  case locked =>
    intro r a v s ha hr hv hen hchange
    have hheld := State.reaches_held hr
    have hget := State.releaseHolds_fget hheld pgThr
    rw [← State.releaseHolds_fon hheld] at hen
    rw [← hget] at hchange
    refine ⟨_, hpair r a v s ha hr, ?_⟩
    rw [(oneField_ringBase r).pageWrite_locked hv hen rfl hchange]
    refine ⟨?_, ?_, ?_, fun hvalid => ?_, ?_⟩
    · rw [State.fget_discard _ hthr hthrne _ _ (by decide), hget]
    · exact State.discard_evtStat _ hthr hthrne _ (by decide) rfl
    · rw [State.discard_count _ hthr hthrne, hget]
    · rw [← State.releaseHolds_fon hheld] at hvalid
      exact State.discard_cause hthr hthrne (by decide) (by decide) rfl (by decide) hvalid
    · exact ((State.releaseHolds_only s r).mono (by simp [eventParts])).trans (State.discard_only _ _ _ _)
  case rsv =>
    intro r a v s ha hr hv
    have hget := State.releaseHolds_fget (State.reaches_held hr) pgThr
    obtain ⟨evs, hbit, hdiscard⟩ := (oneField_ringBase r).pageWrite_rsv (s.releaseHolds r) hv v.isLt
    refine ⟨_, hpair r a v s ha hr, ?_⟩
    rw [hdiscard]
    refine ⟨?_, ?_, ?_, ?_⟩
    · rw [State.fget_discard _ hthr hthrne _ _ (by decide), hget]
    · exact State.discard_evtStat _ hthr hthrne _ (by decide) hbit
    · rw [State.discard_count _ hthr hthrne, hget]
    · exact ((State.releaseHolds_only s r).mono (by simp [eventParts])).trans (State.discard_only _ _ _ _)
  case ctrl =>
    intro r p a w s hp ha hheld hw
    rw [ha] at hheld
    have hlow : (0x008 % 8 == 0 && wideLow p.ty 0x008) = false := by rw [wideLow_common p.ty (by decide), Bool.and_false]
    rw [exec_enable r p s hw, exec_registerWrite_word hp (by decide) ha (by decide)
      (s.refuses_none hp (by decide) (fun _ => by decide) (by decide)) hlow hheld]
    rfl

end Sys2Proof.Proofs
end

section
/-! SUPPORT. What the matrix engine's shared operations do (R70, R88, R100): the tile a state holds, the counters, and the products that a
reduction step and a whole operation leave in an accumulator set. -/

namespace Sys2Proof.Machine

/-! ### A tile with new contents -/

@[simp] theorem State.tile_putTile_self (s : State) (t : Nat) (u : Tile) : (s.putTile t u).tile t = u :=
  Store.get_set_self _ _ _ _

theorem State.putTile_tileOnly (s : State) (t : Nat) (u : Tile) : TileOnly t s (s.putTile t u) :=
  fun _ hj => Store.get_set_ne _ _ _ (Ne.symm hj)

theorem State.putTile_only (s : State) (t : Nat) (u : Tile) : Only [.regs, .tiles] s (s.putTile t u) := by
  intro q hq
  cases q
  case regs => exact absurd (by simp) hq
  case tiles => exact absurd (by simp) hq
  all_goals rfl

/-- New contents touch the registers that show a tile (R101, R142). -/
theorem State.putTile_regsOnly (s : State) (t : Nat) (u : Tile) : RegsOnly (tileShown t) s (s.putTile t u) := by
  intro k hk d
  simp only [tileShown, List.map_cons, List.map_nil, List.mem_cons, List.not_mem_nil, or_false, not_or] at hk
  obtain ⟨h1, h2, h3, h4, h5, h6, h7⟩ := hk
  simp only [State.putTile, State.fset, State.fput]
  rw [Store.get_set_ne' _ _ _ _ (Ne.symm h7), Store.get_set_ne' _ _ _ _ (Ne.symm h6), Store.get_set_ne' _ _ _ _ (Ne.symm h5),
    Store.get_set_ne' _ _ _ _ (Ne.symm h4), Store.get_set_ne' _ _ _ _ (Ne.symm h3), Store.get_set_ne' _ _ _ _ (Ne.symm h2),
    Store.get_set_ne' _ _ _ _ (Ne.symm h1)]

/-- A register of the tile's page at none of the bits that show the tile reads as before. -/
theorem State.fget_putTile (s : State) (t : Nat) (u : Tile) {f : Fld}
    (h : 8 * f.off + f.lo ∉ [0x200, 0x203, 0x204, 0x205, 0x208, 0x800, 0x803]) :
    (s.putTile t u).fget (tilPage t) f = s.fget (tilPage t) f := by
  refine (s.putTile_regsOnly t u).fget fun hk => h ?_
  simp only [tileShown, List.map_cons, List.map_nil, List.mem_cons, List.not_mem_nil, or_false, Fld.key, F.til.MXE_STAT_QUEUED,
    F.til.MXE_STAT_BUSY, F.til.MXE_STAT_ACTIVE_SET, F.til.MXE_STAT_DRAINING, F.til.MXE_STAT_CHUNK_BLKS, F.til.VEC_STAT_QUEUED,
    F.til.VEC_STAT_BUSY] at hk ⊢
  omega

/-! ### Sets and started operations -/

/-- The ACTIVE set is one of the two (R104). -/
theorem Tile.activeSet_eq_some {u : Tile} {x : Nat} (h : u.activeSet = some x) : x < 2 ∧ (u.set x).st = .active := by
  unfold Tile.activeSet at h
  split at h
  next h0 => cases h; exact ⟨by decide, h0⟩
  next =>
    split at h
    next h1 => cases h; exact ⟨by decide, h1⟩
    next => cases h

@[simp] theorem Tile.set_putRun (u : Tile) (i : Nat) (r : TileRun) (x : Nat) : (u.putRun i r).set x = u.set x := rfl

@[simp] theorem Tile.set_putSet_self (u : Tile) (x : Nat) (a : AccSet) : (u.putSet x a).set x = a := by
  unfold Tile.putSet Tile.set
  split <;> rfl

/-- Replacing one set leaves the other. -/
theorem Tile.set_putSet_other (u : Tile) {x : Nat} (h : x < 2) (a : AccSet) : (u.putSet x a).set (1 - x) = u.set (1 - x) := by
  obtain rfl | rfl : x = 0 ∨ x = 1 := by omega
  · rfl
  · rfl

@[simp] theorem Tile.started_putRun (u : Tile) (i : Nat) (r : TileRun) : (u.putRun i r).started = u.started.set i r := rfl

@[simp] theorem Tile.started_putSet (u : Tile) (x : Nat) (a : AccSet) : (u.putSet x a).started = u.started := by
  unfold Tile.putSet
  split <;> rfl

/-- A new set and a new started operation change nothing else of a tile. -/
theorem Tile.putRun_putSet_rest (u : Tile) (x i : Nat) (a : AccSet) (r : TileRun) :
    { (u.putSet x a).putRun i r with set0 := u.set0, set1 := u.set1, started := u.started } = u := by
  unfold Tile.putRun Tile.putSet
  split <;> rfl

/-- A set that a CLEAR flag discards stays in its state (R104). -/
@[simp] theorem AccSet.st_opened (a : AccSet) (d k : Nat) : (a.opened d k).st = a.st := by
  unfold AccSet.opened
  split <;> rfl

/-- The CLEAR flag discards the set at the operation's first step (R104). -/
theorem AccSet.opened_clear {d : Nat} (h : TD.clear d = true) (a : AccSet) : a.opened d 0 = a.cleared := by
  simp [AccSet.opened, h]

/-! ### Counters of the array -/

theorem State.countSteps_only (s : State) (t d k n : Nat) : Only [.regs] s (s.countSteps t d k n) :=
  (State.bump_only _ _ _ _).trans (State.bump_only _ _ _ _)

theorem State.countSteps_regsOnly (s : State) (t d k n : Nat) :
    RegsOnly ([F.til.MXE_ARRAY_CYC_COUNT, F.til.MXE_PRODUCTS_COUNT].map (Fld.key (tilPage t))) s (s.countSteps t d k n) :=
  ((State.bump_regsOnly _ _ _ _).mono (by simp)).trans ((State.bump_regsOnly _ _ _ _).mono (by simp))

/-- MXE_PRODUCTS counts ROWS × COLS limb products a step (R101, log 28). -/
theorem State.fget_countSteps_products (s : State) (t d k n : Nat) :
    (s.countSteps t d k n).fget (tilPage t) F.til.MXE_PRODUCTS_COUNT = min (2 ^ F.til.MXE_PRODUCTS_COUNT.width - 1)
      (s.fget (tilPage t) F.til.MXE_PRODUCTS_COUNT + n * TD.rows d * TD.cols d * limbCount (TD.aFmt d) (TD.bFmt d)) := by
  rw [State.countSteps, State.fget_bump_self, State.fget_bump_off _ _ _ (by decide)]

/-- The state that a count of steps and new contents of the tile leave. -/
theorem State.countSteps_putTile_frame (s : State) (t d k n : Nat) (u : Tile) :
    Only [.regs, .tiles] s ((s.countSteps t d k n).putTile t u) ∧ TileOnly t s ((s.countSteps t d k n).putTile t u) ∧
    RegsOnly (tileShown t ++ [F.til.MXE_ARRAY_CYC_COUNT, F.til.MXE_PRODUCTS_COUNT].map (Fld.key (tilPage t))) s
      ((s.countSteps t d k n).putTile t u) :=
  ⟨((s.countSteps_only t d k n).mono (by simp)).trans (State.putTile_only _ _ _),
    State.putTile_tileOnly (s.countSteps t d k n) t u,
    ((s.countSteps_regsOnly t d k n).mono fun _ h => List.mem_append_right _ h).trans
      ((State.putTile_regsOnly _ _ _).mono fun _ h => List.mem_append_left _ h)⟩

/-! ### One reduction step -/

/-- A fold that updates each key of a list without repetitions once: a listed key holds its old value updated. -/
theorem Store.get_foldl_update {α β : Type} [DecidableEq α] (d : α) (key : β → Nat) (f : β → α → α) (l : List β)
    (hl : (l.map key).Nodup) (b : β) (hb : b ∈ l) (m : List (Nat × α)) :
    Store.get d (l.foldl (fun m b => Store.set d m (key b) (f b (Store.get d m (key b)))) m) (key b) = f b (Store.get d m (key b)) := by
  have untouched : ∀ (l : List β) (k : Nat), k ∉ l.map key → ∀ m : List (Nat × α),
      Store.get d (l.foldl (fun m b => Store.set d m (key b) (f b (Store.get d m (key b)))) m) k = Store.get d m k := by
    intro l k
    induction l with
    | nil => exact fun _ _ => rfl
    | cons c l ih =>
      intro hk m
      rw [List.map_cons, List.mem_cons, not_or] at hk
      rw [List.foldl_cons, ih hk.2, Store.get_set_ne _ _ _ (Ne.symm hk.1)]
  induction l generalizing m with
  | nil => cases hb
  | cons c l ih =>
    obtain ⟨hc, hl⟩ := List.nodup_cons.mp hl
    rw [List.foldl_cons]
    obtain rfl | hb := List.mem_cons.mp hb
    · rw [untouched l _ hc, Store.get_set_self]
    · have hne : key c ≠ key b := fun h => hc (h ▸ List.mem_map_of_mem hb)
      rw [ih hl hb, Store.get_set_ne _ _ _ hne]

theorem zipIdx_map_range {β : Type} (g : Nat → β) (n : Nat) : ((List.range n).map g).zipIdx = (List.range n).map fun i => (g i, i) := by
  apply List.ext_getElem <;> simp

/-- The product that element `(y, z)` takes at reduction step `k` (R83, R88). -/
def State.stepProduct (s : State) (d k : Nat) (yz : Nat × Nat) (c : Acc) : Acc :=
  c.product (TD.aFmt d) (TD.bFmt d) (s.operandAt (TD.aBase d) (TD.aExp d) (TD.aStride d) (TD.aFmt d) (TD.aT d) yz.1 k)
    (s.operandAt (TD.bBase d) (TD.bExp d) (TD.bStride d) (TD.bFmt d) (TD.bT d) yz.2 k)

/-- The places of ROWS × COLS, row by row. -/
def places (rows cols : Nat) : List (Nat × Nat) := (List.range rows).flatMap fun y => (List.range cols).map fun z => (y, z)

theorem mem_places {rows cols y z : Nat} (hy : y < rows) (hz : z < cols) : (y, z) ∈ places rows cols :=
  List.mem_flatMap.mpr ⟨y, List.mem_range.mpr hy, List.mem_map.mpr ⟨z, List.mem_range.mpr hz, rfl⟩⟩

/-- The places of a set have keys of their own: the keys of a row rise, and every row's lie below the next one's. -/
theorem nodup_places (rows : Nat) {cols : Nat} (h : cols ≤ 64) : ((places rows cols).map fun yz => yz.1 * 64 + yz.2).Nodup := by
  rw [List.Nodup, List.pairwise_map, places, List.pairwise_flatMap]
  constructor
  · intro y _
    rw [List.pairwise_map]
    refine List.pairwise_lt_range.imp fun {z z'} hlt => ?_
    change y * 64 + z ≠ y * 64 + z'
    omega
  · refine List.pairwise_lt_range.imp fun {y y'} hlt => ?_
    intro p hp q hq
    obtain ⟨z, hz, rfl⟩ := List.mem_map.mp hp
    obtain ⟨z', -, rfl⟩ := List.mem_map.mp hq
    have hz := List.mem_range.mp hz
    change y * 64 + z ≠ y' * 64 + z'
    omega

/-- A reduction step goes once over the places of ROWS × COLS. -/
theorem State.accStep_elems (s : State) (d k : Nat) (a : AccSet) : (s.accStep d k a).elems =
    (places (TD.rows d) (TD.cols d)).foldl
      (fun m yz => Store.set {} m (yz.1 * 64 + yz.2) (s.stepProduct d k yz (Store.get {} m (yz.1 * 64 + yz.2)))) a.elems := by
  simp only [State.accStep, zipIdx_map_range, places, List.foldl_map, List.foldl_flatMap, State.stepProduct]

/-- A reduction step adds one product to every element of ROWS × COLS (R88). -/
theorem State.get_accStep (s : State) {d : Nat} (k : Nat) (a : AccSet) {y z : Nat} (hcols : TD.cols d ≤ 64) (hy : y < TD.rows d)
    (hz : z < TD.cols d) : Store.get {} (s.accStep d k a).elems (y * 64 + z) = s.stepProduct d k (y, z) (Store.get {} a.elems (y * 64 + z)) := by
  rw [State.accStep_elems]
  exact Store.get_foldl_update {} (fun yz : Nat × Nat => yz.1 * 64 + yz.2) (s.stepProduct d k) _ (nodup_places _ hcols) (y, z)
    (mem_places hy hz) a.elems

@[simp] theorem State.accStep_st (s : State) (d k : Nat) (a : AccSet) : (s.accStep d k a).st = a.st := rfl

@[simp] theorem State.accSteps_st (s : State) (d n : Nat) : ∀ k a, (s.accSteps d n k a).st = a.st := by
  induction n with
  | zero => exact fun _ _ => rfl
  | succ n ih => exact fun k a => (ih _ _).trans (s.accStep_st d k a)

/-- Blocks are counted as their last steps are taken (R88). -/
theorem State.accSteps_blks (s : State) (d n : Nat) : ∀ k a, (s.accSteps d n k a).blks + k / 64 = a.blks + (k + n) / 64 := by
  induction n with
  | zero => exact fun _ _ => rfl
  | succ n ih =>
    intro k a
    have hstep : (s.accStep d k a).blks + k / 64 = a.blks + (k + 1) / 64 := by
      change (if k % 64 = 63 then a.blks + 1 else a.blks) + k / 64 = _
      split <;> omega
    have hrest := ih (k + 1) (s.accStep d k a)
    rw [show k + 1 + n = k + (n + 1) by omega] at hrest
    simp only [State.accSteps]
    omega

/-! ### Signed bytes -/

theorem signedOf_toNat (b : Byte) : signedOf 8 b.toNat = b.toInt := by
  have := b.isLt
  rw [BitVec.toInt_eq_toNat_cond, signedOf, Nat.mod_eq_of_lt this]
  split <;> split <;> omega

/-- The signed byte of line `l` at reduction step `k` of an INT8 operand that is not transposed (R55, R85). -/
def State.byteAt (s : State) (base stride l k : Nat) : Int :=
  (Store.get 0 s.shelf (shelfTile base * 2 ^ 21 + shelfOff base + (l * stride + k / 64) * 64 + k % 64)).toInt

theorem State.operandAt_int8 (s : State) (base exp stride l k : Nat) :
    s.operandAt base exp stride fmtINT8 false l k = (s.byteAt base stride l k, 0) :=
  Prod.ext (signedOf_toNat _) rfl

/-- An element that has taken integer products only: `v` is their sum. -/
def Acc.IsSum (c : Acc) (v : Int) : Prop := c.nan = false ∧ c.hh = v ∧ (c.frame = none ∧ v = 0 ∨ c.frame = some 0)

theorem Acc.isSum_empty : ({} : Acc).IsSum 0 := ⟨rfl, rfl, .inl ⟨rfl, rfl⟩⟩

/-- An INT8 product adds itself to the sum (R70). -/
theorem Acc.IsSum.product {c : Acc} {v : Int} (h : c.IsSum v) (a b : Int) : (c.product fmtINT8 fmtINT8 (a, 0) (b, 0)).IsSum (v + a * b) := by
  obtain ⟨hnan, hsum, ⟨hframe, hv⟩ | hframe⟩ := h
  · have heq : c.product fmtINT8 fmtINT8 (a, 0) (b, 0) = { c with frame := some 0, hh := a * b, mid := 0, ll := 0 } := by
      change c.add 0 (a * b, 0, 0) = _
      simp only [Acc.add, hframe]
    rw [heq, hv, Int.zero_add]
    exact ⟨hnan, rfl, .inr rfl⟩
  · have heq : c.product fmtINT8 fmtINT8 (a, 0) (b, 0) = { c with hh := v + a * b } := by
      change c.add 0 (a * b, 0, 0) = _
      simp [Acc.add, hframe, shiftInt, hsum]
    rw [heq]
    exact ⟨hnan, rfl, .inr hframe⟩

/-- The product of the operands' bytes that element `(y, z)` takes at step `k`. -/
def State.byteProduct (s : State) (d y z k : Nat) : Int :=
  s.byteAt (TD.aBase d) (TD.aStride d) y k * s.byteAt (TD.bBase d) (TD.bStride d) z k

/-- An operation on signed bytes, neither operand transposed. -/
structure TD.Int8 (d : Nat) : Prop where
  aFmt : TD.aFmt d = fmtINT8
  bFmt : TD.bFmt d = fmtINT8
  aT : TD.aT d = false
  bT : TD.bT d = false
  cols : TD.cols d ≤ 64

theorem TD.Int8.stepProduct {d : Nat} (h : TD.Int8 d) (s : State) (k y z : Nat) {c : Acc} {v : Int} (hc : c.IsSum v) :
    (s.stepProduct d k (y, z) c).IsSum (v + s.byteProduct d y z k) := by
  rw [State.stepProduct, h.aFmt, h.bFmt, h.aT, h.bT, State.operandAt_int8, State.operandAt_int8]
  exact hc.product _ _

/-- `n` steps from step `k` on add the products of those steps to an element (R88). -/
theorem TD.Int8.accSteps {d : Nat} (h : TD.Int8 d) (s : State) {y z : Nat} (hy : y < TD.rows d) (hz : z < TD.cols d) (n : Nat) :
    ∀ (k : Nat) (a : AccSet) (v : Int), (Store.get {} a.elems (y * 64 + z)).IsSum v →
      (Store.get {} (s.accSteps d n k a).elems (y * 64 + z)).IsSum (v + ((List.range n).map fun j => s.byteProduct d y z (k + j)).sum) := by
  induction n with
  | zero => intro k a v hv; simpa [State.accSteps] using hv
  | succ n ih =>
    intro k a v hv
    have hstep : (Store.get {} (s.accStep d k a).elems (y * 64 + z)).IsSum (v + s.byteProduct d y z k) := by
      rw [s.get_accStep k a h.cols hy hz]
      exact h.stepProduct s k y z hv
    have hsum : ((List.range (n + 1)).map fun j => s.byteProduct d y z (k + j)).sum =
        s.byteProduct d y z k + ((List.range n).map fun j => s.byteProduct d y z (k + 1 + j)).sum := by
      simp [List.range_succ_eq_map, Function.comp_def, Nat.add_comm, Nat.add_left_comm]
    rw [hsum, ← Int.add_assoc]
    exact ih (k + 1) _ _ hstep

/-- All steps of an operation that opens a chunk leave the dot product of its operands' lines (R88, R104). -/
theorem TD.Int8.accSteps_opened {d : Nat} (h : TD.Int8 d) (hclear : TD.clear d = true) (s : State) (a : AccSet) {y z : Nat}
    (hy : y < TD.rows d) (hz : z < TD.cols d) (n : Nat) :
    (Store.get {} (s.accSteps d n 0 (a.opened d 0)).elems (y * 64 + z)).IsSum ((List.range n).map fun j => s.byteProduct d y z j).sum := by
  have hsum := h.accSteps s hy hz n 0 a.cleared 0 Acc.isSum_empty
  simpa [AccSet.opened_clear hclear] using hsum

/-! ### The rows of the array -/

/-- An operation at the array finds a set ACTIVE: all its steps left are taken (R88, R105). -/
theorem State.accumulate_active {s : State} {k op i n x : Nat} {r : TileRun} (hat : (s.tile k).atArray = some (i, r))
    (hph : r.phase = .accum n) (hop : descOpcode r.desc = op) (hset : (s.tile k).activeSet = some x) :
    s.accumulate k op = (s.countSteps k r.desc n (totalSteps r.desc - n)).putTile k
      (((s.tile k).putSet x { s.accSteps r.desc (totalSteps r.desc - n) n (((s.tile k).set x).opened r.desc n) with
        fmts := some (TD.aFmt r.desc, TD.bFmt r.desc) }).putRun i { r with phase := afterSteps r.desc }) := by
  simp only [State.accumulate, hat, hph, hop, ne_eq, not_true_eq_false, if_false, hset]

/-- While no set is ACTIVE the array waits (R100, R105). -/
theorem State.accumulate_waits {s : State} {k op i n : Nat} {r : TileRun} (hat : (s.tile k).atArray = some (i, r))
    (hph : r.phase = .accum n) (hop : descOpcode r.desc = op) (hset : (s.tile k).activeSet = none) :
    s.accumulate k op = s.bump (tilPage k) F.til.MXE_WAIT_CYC_COUNT 1 := by
  simp only [State.accumulate, hat, hph, hop, ne_eq, not_true_eq_false, if_false, hset]

theorem exec_reductionStepEnter_active {s : State} {k : Fin 256} {i n x : Nat} {r : TileRun} (hat : (s.tile k).atArray = some (i, r))
    (hph : r.phase = .accum n) (hn : n < totalSteps r.desc) (hset : (s.tile k).activeSet = some x) :
    exec (.reductionStepEnter k) s = .next ((s.countSteps k r.desc n 1).putTile k
      (((s.tile k).putSet x (s.accStep r.desc n (((s.tile k).set x).opened r.desc n))).putRun i
        { r with phase := if n + 1 = totalSteps r.desc then afterSteps r.desc else .accum (n + 1) })) := by
  change execReductionStepEnter k s = _
  simp only [execReductionStepEnter, hat, hph, if_neg (Nat.not_le.mpr hn), hset]

theorem exec_reductionStepEnter_waits {s : State} {k : Fin 256} {i n : Nat} {r : TileRun} (hat : (s.tile k).atArray = some (i, r))
    (hph : r.phase = .accum n) (hn : n < totalSteps r.desc) (hset : (s.tile k).activeSet = none) :
    exec (.reductionStepEnter k) s = .next (s.bump (tilPage k) F.til.MXE_WAIT_CYC_COUNT 1) := by
  change execReductionStepEnter k s = _
  simp only [execReductionStepEnter, hat, hph, if_neg (Nat.not_le.mpr hn), hset]

end Sys2Proof.Machine

namespace Sys2Proof.Proofs

open Sys2Proof.Machine

/-- The row of an accumulating opcode carries out its operation at the array (R88, R90). -/
theorem exec_accumulate {op : Nat} (h : op = opMma ∨ op = opMmaDrain) (k : Fin 256) (s : State) :
    exec (if op = opMma then .mma k else .mmaDrain k) s = .next (s.accumulate k op) := by
  obtain rfl | rfl := h
  · rfl
  · rfl

/-- Settles O10: each step is a fold over the places of ROWS × COLS, whose keys differ, so an element takes one product a step; for signed
bytes the frame stays 0 and the products add up. -/
theorem matrixProducts : Obligations.MatrixProducts := by
  refine ⟨?dot, ?step, ?wait⟩
  case dot =>
    intro k op i x r s hop hat hph hopc hset hclear haF hbF haT hbT hcols
    have h8 : TD.Int8 r.desc := ⟨haF, hbF, haT, hbT, hcols⟩
    obtain ⟨hx, hst⟩ := Tile.activeSet_eq_some hset
    refine ⟨_, exec_accumulate hop k s, ?_⟩
    rw [State.accumulate_active hat hph hopc hset]
    obtain ⟨honly, htile, hregs⟩ := s.countSteps_putTile_frame k r.desc 0 (totalSteps r.desc - 0)
      (((s.tile k).putSet x { s.accSteps r.desc (totalSteps r.desc - 0) 0 (((s.tile k).set x).opened r.desc 0) with
        fmts := some (TD.aFmt r.desc, TD.bFmt r.desc) }).putRun i { r with phase := afterSteps r.desc })
    simp only [State.tile_putTile_self, Tile.set_putRun, Tile.set_putSet_self, Tile.set_putSet_other _ hx, Tile.putRun_putSet_rest,
      Tile.started_putRun, Tile.started_putSet]
    refine ⟨fun y hy z hz => ?_, ?_, ?_, ?_, trivial, ?_, trivial, ?_, honly, htile, hregs⟩
    · obtain ⟨hnan, hsum, -⟩ := h8.accSteps_opened hclear s ((s.tile k).set x) hy hz (totalSteps r.desc)
      exact ⟨hsum, hnan⟩
    · rw [State.accSteps_st, AccSet.st_opened, hst]
    · rw [haF, hbF]
    · have hblks := s.accSteps_blks r.desc (64 * TD.kblk r.desc) 0 (((s.tile k).set x).opened r.desc 0)
      rw [AccSet.opened_clear hclear] at hblks ⊢
      change (s.accSteps r.desc (64 * TD.kblk r.desc) 0 ((s.tile k).set x).cleared).blks = _
      simp only [AccSet.cleared] at hblks ⊢
      omega
    · rw [afterSteps, hopc]
    · rw [State.fget_putTile _ _ _ (by decide), State.fget_countSteps_products, haF, hbF]
      simp [totalSteps, limbCount, fmtINT8, fmtQBI16]
  case step =>
    intro k i n x r s hat hph hn hset hcols
    obtain ⟨hx, -⟩ := Tile.activeSet_eq_some hset
    refine ⟨_, exec_reductionStepEnter_active hat hph hn hset, ?_⟩
    obtain ⟨honly, htile, -⟩ := s.countSteps_putTile_frame k r.desc n 1
      (((s.tile k).putSet x (s.accStep r.desc n (((s.tile k).set x).opened r.desc n))).putRun i
        { r with phase := if n + 1 = totalSteps r.desc then afterSteps r.desc else .accum (n + 1) })
    simp only [State.tile_putTile_self, Tile.set_putRun, Tile.set_putSet_self, Tile.set_putSet_other _ hx, Tile.started_putRun,
      Tile.started_putSet]
    exact ⟨fun y hy z hz => s.get_accStep n _ hcols hy hz, trivial, trivial, honly, htile⟩
  case wait =>
    intro k i n r s hat hph hn hset c hc
    refine ⟨s.bump (tilPage k) F.til.MXE_WAIT_CYC_COUNT 1, ?_, State.fget_bump_self _ _ _ _, State.bump_only _ _ _ _,
      State.bump_regsOnly _ _ _ _⟩
    obtain rfl | ⟨rfl, hop⟩ | ⟨rfl, hop⟩ := hc
    · exact exec_reductionStepEnter_waits hat hph hn hset
    · exact congrArg Host.Outcome.next (State.accumulate_waits hat hph hop hset)
    · exact congrArg Host.Outcome.next (State.accumulate_waits hat hph hop hset)

end Sys2Proof.Proofs
end

section
/-! SUPPORT. The issue of a vector instruction (R126, R131): which instruction is issued, and what the RUN records of the conditions it
meets (R80). -/

namespace Sys2Proof.Machine

/-! ### What flagging a condition may touch -/

/-- New contents of the register store touch nothing else. -/
theorem State.withRegs_only (s : State) (m : List (Nat × Nat)) : Only [.regs] s { s with regs := m } := by
  intro q hq
  cases q
  case regs => exact absurd (List.mem_singleton_self _) hq
  all_goals rfl

/-- A later finding touches registers alone (R80). -/
theorem State.lowerRecords_only (s : State) (p : Page) (tile opId : Nat) (nf sat : Bool) (c : Conds) :
    Only [.regs] s (s.lowerRecords p tile opId nf sat c) := by
  unfold State.lowerRecords
  extract_lets s1
  have h1 : Only [.regs] s s1 := by
    unfold s1
    split
    · split
      · exact State.withRegs_only _ _
      · exact Only.refl _ _
    · exact Only.refl _ _
  clear_value s1
  refine h1.trans ?_
  split
  · split
    · exact State.withRegs_only _ _
    · exact Only.refl _ _
  · exact Only.refl _ _

/-- NONFINITE touches what its event may touch (R78 to R80). -/
theorem State.flagNonfinite_only (s : State) (p : Page) (tile opId : Nat) (x : NumPos) :
    Only eventParts s (s.flagNonfinite p tile opId x) := by
  unfold State.flagNonfinite
  extract_lets j s1 s2
  have h2 : Only [.regs] s s2 := by
    unfold s2
    split
    · exact State.fput_only _ _ _ _
    · exact State.withRegs_only _ _
  exact (h2.mono (by simp [eventParts])).trans (State.event_only _ _ _ _ _)

/-- SATURATED touches what its event may touch (R78 to R80). -/
theorem State.flagSaturated_only (s : State) (p : Page) (tile opId : Nat) (x : NumPos) :
    Only eventParts s (s.flagSaturated p tile opId x) := by
  unfold State.flagSaturated
  extract_lets j s1 s2
  have h1 : Only [.regs] s s1 := by
    unfold s1
    split
    · exact Only.refl _ _
    · exact State.fput_only _ _ _ _
  have h2 : Only [.regs] s1 s2 := by
    unfold s2
    split
    · exact Only.refl _ _
    · exact State.withRegs_only _ _
  exact ((h1.trans h2).mono (by simp [eventParts])).trans (State.event_only _ _ _ _ _)

theorem State.flagConds_only (s : State) (p : Page) (tile opId : Nat) (c : Conds) : Only eventParts s (s.flagConds p tile opId c) := by
  obtain ⟨nf, sat⟩ := c
  cases nf with
  | none =>
    cases sat with
    | none => exact Only.refl _ _
    | some y => exact State.flagSaturated_only _ _ _ _ _
  | some x =>
    cases sat with
    | none => exact State.flagNonfinite_only _ _ _ _ _
    | some y => exact (State.flagNonfinite_only _ _ _ _ _).trans (State.flagSaturated_only _ _ _ _ _)

theorem State.tiles_lowerRecords (s : State) (p : Page) (tile opId : Nat) (nf sat : Bool) (c : Conds) :
    (s.lowerRecords p tile opId nf sat c).tiles = s.tiles := s.lowerRecords_only p tile opId nf sat c .tiles (by decide)

theorem State.tiles_flagConds (s : State) (p : Page) (tile opId : Nat) (c : Conds) : (s.flagConds p tile opId c).tiles = s.tiles :=
  s.flagConds_only p tile opId c .tiles (by decide)

/-! ### The instruction at hand -/

/-- The row of the opcode of the instruction at hand issues it (R126, R131). -/
theorem State.issue_atInstr {s : State} {k w : Nat} {r : VecRun} (h : s.atInstr k w r) {op : Nat} (hop : VI.op w = op)
    (act : State → Tile → VecRun → Nat → VEff) : s.issue k op act = State.issue.go k act s (s.tile k) r w 0 := by
  obtain ⟨hrun, hended, hopc, ps, c, hprog, hcode, hclean⟩ := h
  simp only [State.issue, hrun, hended, hopc, hprog, hcode, hclean, hop, bne_self_eq_false, Bool.or_self, Bool.false_eq_true, if_false,
    if_true]

/-- The tile as the effect of an instruction finds it: the RUN stands at the next one. -/
def Tile.issuing (u : Tile) (r : VecRun) : Tile := { u with vrun := some { r with pc := r.pc + 1 } }

/-- The RUN after an instruction that is not broken remembers its conditions, and which of them took a first-position record (R80). -/
theorem State.vrun_issueGo {s : State} {k : Nat} {act : State → Tile → VecRun → Nat → VEff} {u : Tile} {r : VecRun} {w corr : Nat} {e : VEff}
    (he : act s (u.issuing r) { r with pc := r.pc + 1 } w = e) (hb : e.broken = false) {r' : VecRun} (hr : e.tile.vrun = some r') :
    ((State.issue.go k act s u r w corr).tile k).vrun = some { r' with
      nf := r'.nf || e.conds.nf.isSome, sat := r'.sat || e.conds.sat.isSome
      nfRec := r'.nfRec || (e.conds.nf.isSome && !s.fon (vecPage k) F.mxe.NF_POS_VALID)
      satRec := r'.satRec || (e.conds.sat.isSome && !s.fon (vecPage k) F.mxe.SAT_POS_VALID)
      summary := r'.summary || e.msg.isSome } := by
  subst he
  simp only [Tile.issuing] at hb hr
  simp only [State.issue.go, hb, hr, Bool.false_eq_true, if_false, Option.getD_some, State.tile, State.bump_tiles, State.tiles_flagConds,
    State.tiles_lowerRecords]
  exact congrArg Tile.vrun (State.tile_putTile_self _ k _)

/-- A RUN whose instruction meets a condition while no record of it is held captures the record (R80). -/
theorem State.issueGo_captures (s : State) (k : Nat) (act : State → Tile → VecRun → Nat → VEff) (u : Tile) (r : VecRun) (w corr : Nat)
    {r' : VecRun} (hb : (act s (u.issuing r) { r with pc := r.pc + 1 } w).broken = false)
    (hr : (act s (u.issuing r) { r with pc := r.pc + 1 } w).tile.vrun = some r') :
    ∃ q, ((State.issue.go k act s u r w corr).tile k).vrun = some q ∧
      ((act s (u.issuing r) { r with pc := r.pc + 1 } w).conds.nf.isSome = true → s.fon (vecPage k) F.mxe.NF_POS_VALID = false →
        q.nfRec = true) ∧
      ((act s (u.issuing r) { r with pc := r.pc + 1 } w).conds.sat.isSome = true → s.fon (vecPage k) F.mxe.SAT_POS_VALID = false →
        q.satRec = true) :=
  ⟨_, State.vrun_issueGo rfl hb hr, fun hmet hfree => by simp [hmet, hfree], fun hmet hfree => by simp [hmet, hfree]⟩

/-- `Issued` has the RUN capture no position record that it had not. -/
theorem Issued.records {ps : List Part} {s t : State} {k : Nat} {r : VecRun} {u : Tile} {nf sat : Bool} (h : Issued ps s t k r u nf sat)
    {q : VecRun} (hq : (t.tile k).vrun = some q) : q.nfRec = r.nfRec ∧ q.satRec = r.satRec := by
  obtain ⟨htile, -⟩ := h
  rw [htile] at hq
  cases hq
  exact ⟨rfl, rfl⟩

/-- What a command that is carried out leaves is the next state of its meaning. -/
theorem Runs.post {c : Instr} {s t : State} {post : State → Prop} (h : Runs c s post) (ht : exec c s = .next t) : post t := by
  obtain ⟨t', ht', hpost⟩ := h
  exact Host.Outcome.next.inj (ht'.symm.trans ht) ▸ hpost

/-! ### The conditions of lane-wise instructions -/

/-- A gated lane with a non-finite result gives the condition (R120, R121). -/
theorem vecFp_nf_isSome {u : Tile} {w : Nat} {f : Nat → Word} (ins : Nat → List Word) (flops unit : Nat) {l : Nat} (hl : l < 128)
    (hgate : u.gate w l = true) (hf : fpNonfinite (f l) = true) : (vecFp u w f ins flops unit).conds.nf.isSome = true := by
  rw [vecFp, laneNf, Option.isSome_map, List.find?_isSome]
  exact ⟨l, List.mem_range.mpr hl, by rw [hgate, hf]; rfl⟩

/-- A gated lane whose exact result is clamped gives the condition (R56, R121). -/
theorem vecInt_sat_isSome {u : Tile} {w : Nat} {f : Nat → Int} {l : Nat} (hl : l < 128) (hgate : u.gate w l = true)
    (hf : (sat32 (f l)).2 = true) : (vecInt u w f).conds.sat.isSome = true := by
  rw [vecInt, Option.isSome_map, List.find?_isSome]
  exact ⟨l, List.mem_range.mpr hl, by rw [hgate, hf]; rfl⟩

end Sys2Proof.Machine

namespace Sys2Proof.Proofs

open Sys2Proof.Machine

/-- The RUN of a descriptor with no field but its opcode, at the first instruction of program slot 0. -/
def plainRun : VecRun := { desc := placeAt 0 8 8 2, pc := 0 }

/-- Tile 3 at the only instruction of its program, no position record being held and every register 0. -/
def atOnlyInstr (w : Nat) : State :=
  { State.reset with tiles := [(3, { progs := [(0, some ⟨1, [0], [w + secEncode 64 7 w * 2 ^ 64]⟩)]
                                     vrun := some plainRun })] }

/-- FRCP of V0 to V0 in every lane. -/
def frcpWord : Nat := 0x0B

/-- ISUB of −2^31 from V0 to V0 in every lane. -/
def isubWord : Nat := 0x11 + 2 ^ 24 + 2 ^ 63

theorem atInstr_frcp : (atOnlyInstr frcpWord).atInstr 3 frcpWord plainRun := ⟨rfl, rfl, by decide, _, _, rfl, rfl, by decide⟩

theorem atInstr_isub : (atOnlyInstr isubWord).atInstr 3 isubWord plainRun := ⟨rfl, rfl, by decide, _, _, rfl, rfl, by decide +kernel⟩

/-- The first FRCP of +0 captures the NONFINITE position record, and its RUN remembers that (R80). -/
theorem frcp_captures : ∃ q, (((atOnlyInstr frcpWord).issue 3 0x0B (unFp fpRecip)).tile 3).vrun = some q ∧ q.nfRec = true := by
  obtain ⟨q, hrun, hrec, -⟩ := State.issueGo_captures (atOnlyInstr frcpWord) 3 (unFp fpRecip) ((atOnlyInstr frcpWord).tile 3) plainRun
    frcpWord 0 rfl rfl
  rw [State.issue_atInstr atInstr_frcp (by decide)]
  exact ⟨q, hrun, hrec (vecFp_nf_isSome _ _ _ (l := 0) (by decide) (by decide) (by decide)) (by decide)⟩

/-- The first ISUB that clamps captures the SATURATED position record, and its RUN remembers that (R80). -/
theorem isub_captures : ∃ q, (((atOnlyInstr isubWord).issue 3 0x11 (binInt (· - ·))).tile 3).vrun = some q ∧ q.satRec = true := by
  obtain ⟨q, hrun, -, hrec⟩ := State.issueGo_captures (atOnlyInstr isubWord) 3 (binInt (· - ·)) ((atOnlyInstr isubWord).tile 3) plainRun
    isubWord 0 rfl rfl
  rw [State.issue_atInstr atInstr_isub (by decide)]
  exact ⟨q, hrun, hrec (vecInt_sat_isSome (l := 0) (by decide) (by decide) (by decide)) (by decide)⟩

/-- Refutes O12: `Issued` has the RUN keep its `nfRec`, which the first FRCP of +0 sets: it captures the NONFINITE position record. -/
theorem not_laneFloatArithmetic : ¬ Obligations.LaneFloatArithmetic := by
  intro h
  obtain ⟨-, -, -, -, -, -, -, -, -, -, hfrcp, -⟩ := h 3 frcpWord plainRun (atOnlyInstr frcpWord) atInstr_frcp
  obtain ⟨u', hissued, -⟩ := (hfrcp (by decide)).post (t := (atOnlyInstr frcpWord).issue 3 0x0B (unFp fpRecip)) rfl
  obtain ⟨q, hrun, hrec⟩ := frcp_captures
  exact Bool.false_ne_true ((hissued.records hrun).1.symm.trans hrec)

/-- Refutes O13: `Issued` has the RUN keep its `satRec`, which the first ISUB that clamps sets: it captures the SATURATED position record. -/
theorem not_laneIntegerAndBits : ¬ Obligations.LaneIntegerAndBits := by
  intro h
  obtain ⟨-, hisub, -⟩ := h 3 isubWord plainRun (atOnlyInstr isubWord) atInstr_isub
  obtain ⟨u', hissued, -⟩ := (hisub (by decide)).post (t := (atOnlyInstr isubWord).issue 3 0x11 (binInt (· - ·))) rfl
  obtain ⟨q, hrun, hrec⟩ := isub_captures
  exact Bool.false_ne_true ((hissued.records hrun).2.symm.trans hrec)

end Sys2Proof.Proofs
end

section
/-! SUPPORT. The NONFINITE condition of LDX of INT8, and the first LDX that meets it (R69, R80, R123). -/

namespace Sys2Proof.Machine

/-- A lane of an LDX of INT8 that expands to an infinity gives the condition (R69, R123). -/
theorem vecLdx_nf_isSome {s : State} {u : Tile} {w l : Nat} (hfmt : bitsOf (VI.imm w) 8 4 = fmtINT8) (hl : l < 128)
    (hf : fpNonfinite (intToFp ((unpackElems 8 (Store.read 0 s.shelf (shelfKey (u.addr (VI.imm w % 8) 0) + l / 64 * 64) 64) 64).getD (l % 64) 0)
      (signedOf 8 (bitsOf (VI.imm w) 16 8))) = true) : (vecLdx s u w).conds.nf.isSome = true := by
  rw [vecLdx, Option.isSome_map, List.find?_isSome]
  refine ⟨l, List.mem_range.mpr hl, ?_⟩
  rw [hfmt]
  exact hf

end Sys2Proof.Machine

namespace Sys2Proof.Proofs

open Sys2Proof.Machine

/-- LDX of INT8 to V0 with S = 127, from the address in A0. -/
def ldxWord : Nat := 0x3A + 2 ^ 32 * (fmtINT8 * 2 ^ 8 + 127 * 2 ^ 16)

/-- Tile 3 at an LDX whose lane 0 reads the signed byte 2, and so expands to 2 × 2^127. -/
def atLdx : State := { atOnlyInstr ldxWord with shelf := [(0, 2)] }

theorem atInstr_ldx : atLdx.atInstr 3 ldxWord plainRun := ⟨rfl, rfl, by decide, _, _, rfl, rfl, by decide +kernel⟩

/-- The first LDX that overflows captures the NONFINITE position record, and its RUN remembers that (R80). -/
theorem ldx_captures : ∃ q, ((atLdx.issue 3 0x3A fun s u _ w => vecLdx s u w).tile 3).vrun = some q ∧ q.nfRec = true := by
  obtain ⟨q, hrun, hrec, -⟩ := State.issueGo_captures atLdx 3 (fun s u _ w => vecLdx s u w) (atLdx.tile 3) plainRun ldxWord 0 rfl rfl
  rw [State.issue_atInstr atInstr_ldx (by decide)]
  exact ⟨q, hrun, hrec (vecLdx_nf_isSome (l := 0) (by decide) (by decide) (by decide +kernel)) (by decide)⟩

/-- Refutes O15: `Issued` has the RUN keep its `nfRec`, which the first LDX with an infinite lane sets: it captures the NONFINITE position
record. -/
theorem not_vectorMemory : ¬ Obligations.VectorMemory := by
  intro h
  obtain ⟨-, -, hldx, -⟩ := h 3 ldxWord plainRun atLdx atInstr_ldx
  obtain ⟨u', hissued, -⟩ := (hldx (by decide) (by decide)).post (t := atLdx.issue 3 0x3A fun s u _ w => vecLdx s u w) rfl
  obtain ⟨q, hrun, hrec⟩ := ldx_captures
  exact Bool.false_ne_true ((hissued.records hrun).1.symm.trans hrec)

end Sys2Proof.Proofs
end

section
/-! SUPPORT. Which started operation a row of the matrix engine takes up, and the report of a completed one (R95, R101). -/

namespace Sys2Proof.Machine

/-! ### The started operation a row takes up -/

/-- The first started operation that satisfies a predicate. -/
theorem Tile.findOp_append {u : Tile} {f : TileRun → Bool} {before rest : List TileRun} {r : TileRun} (h : u.started = before ++ r :: rest)
    (hbefore : ∀ b ∈ before, f b = false) (hr : f r = true) : u.findOp f = some (before.length, r) := by
  have hnone : before.zipIdx.find? (fun x => f x.1) = none := by
    refine List.find?_eq_none.mpr fun x hx => ?_
    rw [hbefore x.1 (List.fst_mem_of_mem_zipIdx hx)]
    exact Bool.false_ne_true
  simp only [Tile.findOp, h, List.zipIdx_append, List.zipIdx_cons, List.find?_append, hnone, List.find?_cons, hr, Option.none_or,
    Option.map_some, Nat.zero_add]

/-! ### Queue and SIGNAL -/

theorem exec_mxeOpStart_starts {s : State} {k : Fin 256} {o : TileOp} {rest : List TileOp} (hq : (s.tile k).queue = o :: rest)
    (hheld : o.held = false) (hen : s.fon (tilPage k) F.com.ENABLE = true) (hlock : (s.tile k).interlocked k o.desc = false) :
    exec (.mxeOpStart k) s = .next (s.putTile k
      { s.tile k with queue := rest, started := (s.tile k).started ++ [⟨o.desc, startPhase o.desc, false, false⟩] }) := by
  change execMxeOpStart k s = _
  simp [execMxeOpStart, hq, hheld, hen, hlock]

theorem exec_mxeOpStart_interlocked {s : State} {k : Fin 256} {o : TileOp} {rest : List TileOp} (hq : (s.tile k).queue = o :: rest)
    (hheld : o.held = false) (hen : s.fon (tilPage k) F.com.ENABLE = true) (hlock : (s.tile k).interlocked k o.desc = true)
    (hwaited : o.waited = false) :
    exec (.mxeOpStart k) s = .next ((s.bump (tilPage k) (F.com.EVT_CNT 6) 1).putTile k
      { s.tile k with queue := { o with waited := true } :: rest }) := by
  change execMxeOpStart k s = _
  simp [execMxeOpStart, hq, hheld, hen, hlock, hwaited]

theorem exec_mxeSignal {s : State} {k : Fin 256} {r : TileRun} {rest : List TileRun} (hs : (s.tile k).started = r :: rest)
    (hph : r.phase = .signal) :
    exec (.mxeSignal k) s = .next (s.putTile k { s.tile k with started := { r with phase := .ready } :: rest }) := by
  change execMxeSignal k s = _
  simp only [execMxeSignal, hs, hph, if_true, Tile.putRun, List.set_cons_zero]

theorem exec_tileOpComplete {s : State} {k : Fin 256} {r : TileRun} {before rest : List TileRun}
    (hs : (s.tile k).started = before ++ r :: rest) (hbefore : ∀ b ∈ before, b.phase ≠ .ready) (hph : r.phase = .ready) :
    exec (.tileOpComplete k) s = .next ((s.putTile k { s.tile k with started := before ++ rest }).tileReport k r) := by
  change execTileOpComplete k s = _
  have hfind : (s.tile k).findOp (fun r => r.phase = .ready) = some (before.length, r) :=
    Tile.findOp_append hs (fun b hb => decide_eq_false (hbefore b hb)) (decide_eq_true hph)
  have herase : (before ++ r :: rest).eraseIdx before.length = before ++ rest := by
    rw [List.eraseIdx_append_of_length_le (Nat.le_refl _), Nat.sub_self, List.eraseIdx_cons_zero]
  simp only [execTileOpComplete, hfind, hs, herase]

/-! ### Parts that a report touches -/

/-- Between `s` and `t` a report has been made: registers at the keys listed may have changed and notices may have been added, and a run may
have taken note; nothing else has changed. -/
structure Reports (ks : List Nat) (s t : State) : Prop where
  only : Only [.regs, .agate] s t
  regs : RegsOnly ks s t
  notices : ∀ x ∈ s.agate.notices, x ∈ t.agate.notices

theorem Reports.refl (ks : List Nat) (s : State) : Reports ks s s := ⟨Only.refl _ s, RegsOnly.refl _ s, fun _ h => h⟩

theorem Reports.trans {ks : List Nat} {s t u : State} (h : Reports ks s t) (h2 : Reports ks t u) : Reports ks s u :=
  ⟨h.only.trans h2.only, h.regs.trans h2.regs, fun x hx => h2.notices x (h.notices x hx)⟩

theorem Reports.mono {ks ls : List Nat} {s t : State} (h : Reports ks s t) (hs : ∀ k ∈ ks, k ∈ ls) : Reports ls s t :=
  ⟨h.only, h.regs.mono hs, h.notices⟩

theorem State.fput_reports (s : State) {p : Page} {f : Fld} (v : Nat) {ks : List Nat} (h : f.key p ∈ ks) : Reports ks s (s.fput p f v) :=
  ⟨(s.fput_only p f v).mono (by simp), (s.fput_regsOnly p f v).mono (by simpa using h), fun _ hx => hx⟩

theorem State.bump_reports (s : State) {p : Page} {f : Fld} (n : Nat) {ks : List Nat} (h : f.key p ∈ ks) : Reports ks s (s.bump p f n) :=
  s.fput_reports _ h

/-- New contents of the Agate's state touch nothing else. -/
theorem State.withAgate_only (s : State) (x : Agate) : Only [.regs, .agate] s { s with agate := x } := by
  intro q hq
  cases q
  case agate => exact absurd (by simp) hq
  all_goals rfl

theorem State.notify_reports (ks : List Nat) (s : State) (d t n src : Nat) : Reports ks s (s.notify d t n src) :=
  ⟨s.withAgate_only _, RegsOnly.of_regs rfl ks, fun _ hx => List.mem_append_left _ hx⟩

/-- A status that ends no run leaves a note in the run at most (R194). -/
theorem State.noteRun_reports (ks : List Nat) (s : State) {st : Nat} (h : endsRun st = false) : Reports ks s (s.noteRun st) := by
  have hnote (x : Agate) (hx : x.notices = s.agate.notices) : Reports ks s { s with agate := x } :=
    ⟨s.withAgate_only x, RegsOnly.of_regs rfl ks, fun n hn => hx ▸ hn⟩
  simp only [State.noteRun, h, Bool.false_eq_true, if_false]
  split
  · exact Reports.refl ks s
  · split
    · exact hnote _ rfl
    · split
      · exact hnote _ rfl
      · exact Reports.refl ks s

theorem State.noteRun_done (s : State) : s.noteRun stDone = s := by
  unfold State.noteRun
  split
  · rfl
  · rfl

/-- The statuses of a completed operation end no run (R194). -/
theorem endsRun_completedStatus : ∀ nf sat : Bool, endsRun (completedStatus nf sat false) = false := by decide

/-- A numeric completion counts on its page and may notify a tally (R81). -/
theorem State.numericCompletion_reports (s : State) (p : Page) (nf sat : Bool) :
    Reports [(F.com.EVT_CNT 0).key p, (F.com.EVT_CNT 1).key p] s (s.numericCompletion p nf sat) := by
  unfold State.numericCompletion
  extract_lets s1 src s2
  have h1 : Reports [(F.com.EVT_CNT 0).key p, (F.com.EVT_CNT 1).key p] s s1 := by
    unfold s1
    split
    · exact s.bump_reports 1 (by simp)
    · split
      · exact s.bump_reports 1 (by simp)
      · exact Reports.refl _ s
  have h2 : Reports [(F.com.EVT_CNT 0).key p, (F.com.EVT_CNT 1).key p] s1 s2 := by
    unfold s2
    split
    · exact State.notify_reports _ _ _ _ _ _
    · exact Reports.refl _ _
  refine (h1.trans h2).trans ?_
  split
  · exact State.notify_reports _ _ _ _ _ _
  · exact Reports.refl _ _

/-! ### The report of a completed operation (R95, R101) -/

/-- The registers that count how operations of tile `t` completed (R80, R101). -/
def completionKeys (t : Nat) : List Nat :=
  [F.com.EVT_CNT 4, F.com.EVT_CNT 5].map (Fld.key (tilPage t)) ++ [F.com.EVT_CNT 0, F.com.EVT_CNT 1].map (Fld.key (mxePage t))

/-- MXE_LAST and MXE_OPS of the report. -/
def State.opReported (s : State) (t : Nat) (r : TileRun) : State :=
  (s.mxeLast t r.desc (completedStatus r.nf r.sat false)).bump (tilPage t) F.til.MXE_OPS_COUNT 1

/-- The counts that follow MXE_LAST and MXE_OPS. -/
def State.opCounted (s : State) (t : Nat) (r : TileRun) : State :=
  (if r.nf then s.bump (tilPage t) (F.com.EVT_CNT 4) 1 else if r.sat then s.bump (tilPage t) (F.com.EVT_CNT 5) 1 else s).numericCompletion
    (mxePage t) r.nf r.sat

theorem State.tileReport_eq (s : State) (t : Nat) (r : TileRun) : s.tileReport t r =
    (if descTallyEn r.desc then ((s.opReported t r).opCounted t r).notify (t / 128) (descTally r.desc) 1 (srcCode 1 t)
      else (s.opReported t r).opCounted t r).noteRun (completedStatus r.nf r.sat false) := rfl

theorem State.opReported_reports (s : State) (t : Nat) (r : TileRun) :
    Reports ([F.til.MXE_LAST_STATUS, F.til.MXE_LAST_OPCODE, F.til.MXE_LAST_OPID_OP_ID, F.til.MXE_OPS_COUNT].map (Fld.key (tilPage t))) s
      (s.opReported t r) :=
  (((s.fput_reports _ (by simp)).trans (State.fput_reports _ _ (by simp))).trans (State.fput_reports _ _ (by simp))).trans
    (State.bump_reports _ _ (by simp))

theorem State.opCounted_reports (s : State) (t : Nat) (r : TileRun) : Reports (completionKeys t) s (s.opCounted t r) := by
  refine Reports.trans ?_ ((State.numericCompletion_reports _ _ _ _).mono (by simp [completionKeys]))
  split
  · exact s.bump_reports 1 (by simp [completionKeys])
  · split
    · exact s.bump_reports 1 (by simp [completionKeys])
    · exact Reports.refl _ s

/-- After MXE_LAST and MXE_OPS a report touches the counts, the notices and the run's notes alone. -/
theorem State.tileReport_reports (s : State) (t : Nat) (r : TileRun) : Reports (completionKeys t) (s.opReported t r) (s.tileReport t r) := by
  rw [State.tileReport_eq]
  refine ((s.opReported t r).opCounted_reports t r).trans
    (Reports.trans ?_ (State.noteRun_reports _ _ (endsRun_completedStatus r.nf r.sat)))
  split
  · exact State.notify_reports _ _ _ _ _ _
  · exact Reports.refl _ _

/-- The increment of a descriptor's tally is among the notices (R187). -/
theorem State.tileReport_notice (s : State) (t : Nat) {r : TileRun} (h : descTallyEn r.desc = true) :
    ⟨t / 128, descTally r.desc, 1, srcCode 1 t⟩ ∈ (s.tileReport t r).agate.notices := by
  rw [State.tileReport_eq, if_pos h]
  exact (State.noteRun_reports [] _ (endsRun_completedStatus r.nf r.sat)).notices _ (List.mem_append_right _ (List.mem_singleton_self _))

/-- An operation that met no condition and has no tally leaves the Agate's state (R187). -/
theorem State.tileReport_agate (s : State) (t : Nat) {r : TileRun} (h : descTallyEn r.desc = false) (hnf : r.nf = false)
    (hsat : r.sat = false) : (s.tileReport t r).agate = s.agate := by
  have hst : completedStatus r.nf r.sat false = stDone := by rw [hnf, hsat]; rfl
  rw [State.tileReport_eq, hst, State.noteRun_done, h, State.opCounted, hnf, hsat]
  rfl

/-- The registers of the MXE page lie below those of the tiles' pages. -/
theorem Fld.key_mxePage_lt (k : Fin 256) {g : Fld} (hg : 8 * g.off + g.lo < 0x8000) (f : Fld) : g.key (mxePage k) < f.key (tilPage k) := by
  have := k.isLt
  simp only [Fld.key, mxePage, tilPage, Page.base]
  omega

/-- The counts of a completion leave every other register of the tile's page. -/
theorem State.fget_tileReport (s : State) (k : Fin 256) (r : TileRun) {f : Fld} (hf : 8 * f.off + f.lo ∉ [0x180, 0x1A0]) :
    (s.tileReport k r).fget (tilPage k) f = (s.opReported k r).fget (tilPage k) f := by
  refine (s.tileReport_reports k r).regs.fget fun hmem => hf ?_
  have h0 := Fld.key_mxePage_lt k (g := F.com.EVT_CNT 0) (by decide) f
  have h1 := Fld.key_mxePage_lt k (g := F.com.EVT_CNT 1) (by decide) f
  simp only [completionKeys, List.map_cons, List.map_nil, List.cons_append, List.nil_append, List.mem_cons, List.not_mem_nil, or_false,
    Nat.ne_of_gt h0, Nat.ne_of_gt h1] at hmem
  simp only [Fld.key, F.com.EVT_CNT] at hmem
  simp only [List.mem_cons, List.not_mem_nil, or_false]
  omega

theorem State.opReported_status (s : State) (t : Nat) (r : TileRun) : (s.opReported t r).fget (tilPage t) F.til.MXE_LAST_STATUS
    = if r.nf then 0x0B else if r.sat then 0x0A else 0 := by
  rw [State.opReported, State.fget_bump_off _ _ _ (by decide), State.mxeLast, State.fget_fput_off _ _ _ (by decide),
    State.fget_fput_off _ _ _ (by decide), State.fget_fput_self]
  cases r.nf
  · cases r.sat
    · rfl
    · rfl
  · rfl

theorem State.opReported_opcode (s : State) (t : Nat) (r : TileRun) : (s.opReported t r).fget (tilPage t) F.til.MXE_LAST_OPCODE
    = descOpcode r.desc % 2 ^ F.til.MXE_LAST_OPCODE.width := by
  rw [State.opReported, State.fget_bump_off _ _ _ (by decide), State.mxeLast, State.fget_fput_off _ _ _ (by decide), State.fget_fput_self]

theorem State.opReported_opId (s : State) (t : Nat) (r : TileRun) :
    (s.opReported t r).fget (tilPage t) F.til.MXE_LAST_OPID_OP_ID = descOpId r.desc := by
  rw [State.opReported, State.fget_bump_off _ _ _ (by decide), State.mxeLast, State.fget_fput_self]
  exact Nat.mod_mod _ _

theorem State.opReported_ops (s : State) (t : Nat) (r : TileRun) : (s.opReported t r).fget (tilPage t) F.til.MXE_OPS_COUNT
    = min (2 ^ F.til.MXE_OPS_COUNT.width - 1) (s.fget (tilPage t) F.til.MXE_OPS_COUNT + 1) := by
  rw [State.opReported, State.fget_bump_self, State.mxeLast, State.fget_fput_off _ _ _ (by decide), State.fget_fput_off _ _ _ (by decide),
    State.fget_fput_off _ _ _ (by decide)]

/-! ### The status register -/

theorem State.putTile_queued (s : State) (t : Nat) (u : Tile) :
    (s.putTile t u).fget (tilPage t) F.til.MXE_STAT_QUEUED = u.queue.length % 2 ^ F.til.MXE_STAT_QUEUED.width := by
  rw [State.putTile, State.fget_fset_off _ _ _ (by decide), State.fget_fput_off _ _ _ (by decide), State.fget_fput_off _ _ _ (by decide),
    State.fget_fset_off _ _ _ (by decide), State.fget_fput_off _ _ _ (by decide), State.fget_fset_off _ _ _ (by decide),
    State.fget_fput_self]

end Sys2Proof.Machine

namespace Sys2Proof.Proofs

open Sys2Proof.Machine

/-- Settles O8: each row puts new contents into its tile, and what a completion reports after that touches other registers and the Agate's
notices alone. -/
theorem matrixQueue : Obligations.MatrixQueue := by
  refine ⟨?start, ?signal, ?complete⟩
  case start =>
    intro k o rest s hq hheld hen
    refine ⟨fun hlock => ?_, fun hlock hwaited => ?_⟩
    · exact ⟨_, exec_mxeOpStart_starts hq hheld hen hlock, State.tile_putTile_self _ _ _, State.putTile_queued _ _ _,
        State.putTile_only _ _ _, State.putTile_regsOnly _ _ _, State.putTile_tileOnly _ _ _⟩
    · refine ⟨_, exec_mxeOpStart_interlocked hq hheld hen hlock hwaited, State.tile_putTile_self _ _ _, ?_,
        ((State.bump_only _ _ _ _).mono (by simp)).trans (State.putTile_only _ _ _),
        ((State.bump_regsOnly _ _ _ _).mono (by simp)).trans ((State.putTile_regsOnly _ _ _).mono fun _ h => List.mem_cons_of_mem _ h),
        State.putTile_tileOnly (s.bump (tilPage k) (F.com.EVT_CNT 6) 1) k _⟩
      rw [State.fget_putTile _ _ _ (by decide), State.fget_bump_self]
      rfl
  case signal =>
    intro k r rest s hs hph
    exact ⟨_, exec_mxeSignal hs hph, State.tile_putTile_self _ _ _, State.putTile_only _ _ _, State.putTile_regsOnly _ _ _,
      State.putTile_tileOnly _ _ _⟩
  case complete =>
    intro k r before rest s hs hbefore hph
    refine ⟨_, exec_tileOpComplete hs hbefore hph, ?_⟩
    generalize hu : ({ s.tile k with started := before ++ rest } : Tile) = u
    have hreport := (((s.putTile k u).opReported_reports k r).mono fun _ h => List.mem_append_left (completionKeys k) h).trans
      (((s.putTile k u).tileReport_reports k r).mono fun _ h => List.mem_append_right _ h)
    have htiles : ((s.putTile k u).tileReport k r).tiles = (s.putTile k u).tiles := hreport.only .tiles (by decide)
    refine ⟨?_, ?_, ?_, ?_, ?_, fun htally => State.tileReport_notice _ _ htally,
      fun htally hnf hsat => State.tileReport_agate _ _ htally hnf hsat, ?_, ?_, ?_⟩
    · rw [State.tile, htiles]
      exact State.tile_putTile_self _ _ _
    · rw [State.fget_tileReport _ _ _ (by decide), State.opReported_status]
    · rw [State.fget_tileReport _ _ _ (by decide), State.opReported_opcode]
    · rw [State.fget_tileReport _ _ _ (by decide), State.opReported_opId]
    · rw [State.fget_tileReport _ _ _ (by decide), State.opReported_ops, State.fget_putTile _ _ _ (by decide)]
    · exact ((State.putTile_only s k u).mono (by simp)).trans (hreport.only.mono (by simp))
    · intro j hj
      rw [State.tile, htiles]
      exact State.putTile_tileOnly s k u j hj
    · refine ((State.putTile_regsOnly s k u).mono fun _ h => ?_).trans (hreport.regs.mono fun _ h => ?_)
      · exact List.mem_append_left _ (List.mem_append_left _ h)
      · simpa [completionKeys, or_assoc] using Or.inr h

end Sys2Proof.Proofs
end

section
/-! SUPPORT. Bytes that an output lays into the Shelves (R55, R94): numbers as bytes, blocks of bytes at their addresses, and what the Shelves
hold after they are written. -/

namespace Sys2Proof.Machine

/-! ### Numbers as bytes -/

@[simp] theorem length_leBytes (n : Nat) : ∀ v, (leBytes n v).length = n := by
  induction n with
  | zero => exact fun _ => rfl
  | succ n ih => exact fun v => congrArg Nat.succ (ih (v / 256))

theorem getElem?_leBytes {n i : Nat} (h : i < n) (v : Nat) : (leBytes n v)[i]? = some (BitVec.ofNat 8 (v / 2 ^ (8 * i))) := by
  induction n generalizing i v with
  | zero => cases h
  | succ n ih =>
    cases i with
    | zero => simp [leBytes]
    | succ i =>
      rw [leBytes, List.getElem?_cons_succ, ih (Nat.lt_of_succ_lt_succ h), Nat.div_div_eq_div_mul, show 256 = 2 ^ 8 from rfl, ← Nat.pow_add,
        Nat.mul_succ, Nat.add_comm 8]

/-- The bytes of a number that has a second one above its low `m` bytes. -/
theorem leBytes_add (m n : Nat) {a : Nat} (b : Nat) (h : a < 2 ^ (8 * m)) :
    leBytes (m + n) (a + 2 ^ (8 * m) * b) = leBytes m a ++ leBytes n b := by
  induction m generalizing a with
  | zero =>
    obtain rfl : a = 0 := by omega
    simp [leBytes]
  | succ m ih =>
    have hpow : 2 ^ (8 * (m + 1)) = 256 * 2 ^ (8 * m) := by rw [Nat.mul_succ, Nat.add_comm, Nat.pow_add]
    have hdiv : (a + 2 ^ (8 * (m + 1)) * b) / 256 = a / 256 + 2 ^ (8 * m) * b := by
      rw [hpow, Nat.mul_assoc, Nat.add_mul_div_left _ _ (by decide)]
    have hlow : BitVec.ofNat 8 (a + 2 ^ (8 * (m + 1)) * b) = BitVec.ofNat 8 a := by
      apply BitVec.eq_of_toNat_eq
      rw [hpow, Nat.mul_assoc]
      simp only [BitVec.toNat_ofNat]
      omega
    rw [Nat.add_right_comm, leBytes, hdiv, ih (by omega), hlow]
    rfl

/-- Elements of a whole number of bytes are packed one after the other (R55). -/
theorem packElems_bytes (c : Nat) (xs : List Int) : packElems (8 * c) xs = xs.flatMap fun x => leBytes c (unsignedOf (8 * c) x) := by
  have hlen (n : Nat) : 8 * c * n / 8 = c * n := by rw [Nat.mul_assoc, Nat.mul_div_cancel_left _ (by decide)]
  simp only [packElems, hlen]
  induction xs with
  | nil => simp [leBytes]
  | cons x xs ih =>
    have hx : unsignedOf (8 * c) x < 2 ^ (8 * c) := by
      have hpos : (0 : Int) < (2 ^ (8 * c) : Nat) := by exact_mod_cast Nat.two_pow_pos (8 * c)
      have := Int.emod_lt_of_pos x hpos
      have := Int.emod_nonneg x (Int.ne_of_gt hpos)
      unfold unsignedOf
      omega
    rw [List.length_cons, Nat.mul_succ, Nat.add_comm, packElemsNat, leBytes_add c _ _ hx, ih, List.flatMap_cons]

@[simp] theorem length_flatMap_leBytes (c n : Nat) (g : Nat → Nat) : ((List.range n).flatMap fun i => leBytes c (g i)).length = c * n := by
  induction n with
  | zero => rfl
  | succ n ih => rw [List.range_succ, List.flatMap_append, List.length_append, ih, List.flatMap_singleton, length_leBytes, Nat.mul_succ]

/-- Byte `j` of element `z` of a line of elements of `c` bytes each. -/
theorem getElem?_flatMap_leBytes {c n z j : Nat} (hz : z < n) (hj : j < c) (g : Nat → Nat) :
    ((List.range n).flatMap fun i => leBytes c (g i))[c * z + j]? = some (BitVec.ofNat 8 (g z / 2 ^ (8 * j))) := by
  induction n with
  | zero => cases hz
  | succ n ih =>
    have hlen := length_flatMap_leBytes c n g
    rw [List.range_succ, List.flatMap_append]
    obtain rfl | hlt : z = n ∨ z < n := by omega
    · rw [List.getElem?_append_right (by omega), hlen, Nat.add_sub_cancel_left, List.flatMap_singleton, getElem?_leBytes hj]
    · have : c * z + c ≤ c * n := Nat.mul_succ c z ▸ Nat.mul_le_mul_left c hlt
      rw [List.getElem?_append_left (by omega), ih hlt]

/-! ### The Shelves after bytes are written -/

theorem Store.get_foldl_set_of_not_mem {α : Type} [DecidableEq α] (d : α) {bs : List (Nat × α)} {a : Nat} (h : ∀ x, (a, x) ∉ bs)
    (m : List (Nat × α)) : Store.get d (bs.foldl (fun m b => Store.set d m b.1 b.2) m) a = Store.get d m a := by
  induction bs generalizing m with
  | nil => rfl
  | cons b bs ih =>
    have hb : b.1 ≠ a := fun hb => h b.2 (by simp [← hb])
    rw [List.foldl_cons, ih (fun x hx => h x (List.mem_cons_of_mem _ hx)), Store.get_set_ne d m _ hb]

theorem Store.get_foldl_set_of_mem {α : Type} [DecidableEq α] (d : α) {bs : List (Nat × α)} {a : Nat} {v : α} (h : (a, v) ∈ bs)
    (hone : ∀ x, (a, x) ∈ bs → x = v) (m : List (Nat × α)) : Store.get d (bs.foldl (fun m b => Store.set d m b.1 b.2) m) a = v := by
  induction bs generalizing m with
  | nil => cases h
  | cons b bs ih =>
    have hone' (x : α) (hx : (a, x) ∈ bs) : x = v := hone x (List.mem_cons_of_mem _ hx)
    rw [List.foldl_cons]
    by_cases hlater : (a, v) ∈ bs
    · exact ih hlater hone' _
    · have hlast : (a, v) = b := (List.mem_cons.mp h).resolve_right hlater
      rw [Store.get_foldl_set_of_not_mem d fun x hx => hlater (hone' x hx ▸ hx), ← hlast, Store.get_set_self]

theorem mem_placed {base a : Nat} {bs : List Byte} {v : Byte} : (a, v) ∈ placed base bs ↔ ∃ i, a = base + i ∧ bs[i]? = some v := by
  constructor
  · intro h
    obtain ⟨⟨b, i⟩, hmem, heq⟩ := List.mem_map.mp h
    obtain ⟨rfl, rfl⟩ := Prod.mk.inj heq
    exact ⟨i, rfl, List.mem_zipIdx_iff_getElem?.mp hmem⟩
  · rintro ⟨i, rfl, hi⟩
    exact List.mem_map.mpr ⟨(v, i), List.mem_zipIdx_iff_getElem?.mpr hi, rfl⟩

/-- Blocks of an output in line order: block `b` of line `y` goes to linear index `y * stride + b`, in units of `unit` bytes (R94). -/
def blocksAt (base unit stride rows blks : Nat) (bytes : Nat → Nat → List Byte) : List (Nat × Byte) :=
  (List.range rows).flatMap fun y => (List.range blks).flatMap fun b => placed (base + (y * stride + b) * unit) (bytes y b)

theorem mem_blocksAt {base unit stride rows blks a : Nat} {bytes : Nat → Nat → List Byte} {v : Byte} :
    (a, v) ∈ blocksAt base unit stride rows blks bytes ↔
      ∃ y < rows, ∃ b < blks, ∃ i, a = base + (y * stride + b) * unit + i ∧ (bytes y b)[i]? = some v := by
  simp only [blocksAt, List.mem_flatMap, List.mem_range, mem_placed]

/-- A quotient and a remainder are those of one number only. -/
theorem mul_add_inj {d q q' r r' : Nat} (hr : r < d) (hr' : r' < d) (h : q * d + r = q' * d + r') : q = q' ∧ r = r' := by
  have hq : q = q' := by
    have hdiv := congrArg (· / d) h
    simp only [Nat.mul_comm _ d, Nat.mul_add_div (Nat.zero_lt_of_lt hr), Nat.div_eq_of_lt hr, Nat.div_eq_of_lt hr', Nat.add_zero] at hdiv
    exact hdiv
  subst hq
  exact ⟨rfl, Nat.add_left_cancel h⟩

/-- A byte of a block stands at its address after the blocks are written. -/
theorem State.shelfPut_blocksAt {base unit stride rows blks : Nat} {bytes : Nat → Nat → List Byte} (hs : blks ≤ stride)
    (hlen : ∀ y b, (bytes y b).length ≤ unit) (s : State) {y b i : Nat} {v : Byte} (hy : y < rows) (hb : b < blks)
    (hv : (bytes y b)[i]? = some v) :
    Store.get 0 (s.shelfPut (blocksAt base unit stride rows blks bytes)).shelf (base + (y * stride + b) * unit + i) = v := by
  refine Store.get_foldl_set_of_mem 0 (mem_blocksAt.mpr ⟨y, hy, b, hb, i, rfl, hv⟩) (fun x hx => ?_) s.shelf
  obtain ⟨y', -, b', hb', i', haddr, hx⟩ := mem_blocksAt.mp hx
  have hin {y b i : Nat} {v : Byte} (hv : (bytes y b)[i]? = some v) : i < unit :=
    Nat.lt_of_lt_of_le (List.getElem?_eq_some_iff.mp hv).1 (hlen y b)
  obtain ⟨hlin, rfl⟩ := mul_add_inj (hin hv) (hin hx) (show (y * stride + b) * unit + i = (y' * stride + b') * unit + i' by omega)
  obtain ⟨rfl, rfl⟩ := mul_add_inj (Nat.lt_of_lt_of_le hb hs) (Nat.lt_of_lt_of_le hb' hs) hlin
  exact Option.some.inj (hx.symm.trans hv)

/-- A Shelf byte in no block written holds what it held. -/
theorem State.shelfPut_blocksAt_other {base unit stride rows blks : Nat} {bytes : Nat → Nat → List Byte} (s : State) {a : Nat}
    (h : ∀ y < rows, ∀ b < blks, ∀ i < (bytes y b).length, a ≠ base + (y * stride + b) * unit + i) :
    Store.get 0 (s.shelfPut (blocksAt base unit stride rows blks bytes)).shelf a = Store.get 0 s.shelf a := by
  refine Store.get_foldl_set_of_not_mem 0 (fun x hx => ?_) s.shelf
  obtain ⟨y, hy, b, hb, i, haddr, hx⟩ := mem_blocksAt.mp hx
  exact h y hy b hb i (List.getElem?_eq_some_iff.mp hx).1 haddr

/-- A Shelf byte outside every line's blocks holds what it held. -/
theorem State.shelfPut_blocksAt_outside {base unit stride rows blks : Nat} {bytes : Nat → Nat → List Byte}
    (hlen : ∀ y b, (bytes y b).length ≤ unit) (s : State) {a : Nat}
    (h : ∀ y < rows, ¬ (base + y * stride * unit ≤ a ∧ a < base + (y * stride + blks) * unit)) :
    Store.get 0 (s.shelfPut (blocksAt base unit stride rows blks bytes)).shelf a = Store.get 0 s.shelf a := by
  refine s.shelfPut_blocksAt_other fun y hy b hb i hi haddr => h y hy ?_
  have hfirst : y * stride * unit ≤ (y * stride + b) * unit := Nat.mul_le_mul_right _ (by omega)
  have hnext : (y * stride + b + 1) * unit ≤ (y * stride + blks) * unit := Nat.mul_le_mul_right _ (by omega)
  rw [Nat.succ_mul] at hnext
  have := hlen y b
  omega

/-! ### An output and the tile that gives it -/

/-- The key of an output's first byte (R84, R94). -/
def TD.cKey (d : Nat) : Nat := shelfTile (TD.cBase d) * 2 ^ 21 + shelfOff (TD.cBase d)

/-- An output's bytes are in the Shelves, tile `t` has new contents, and the output's conditions are flagged. -/
def State.output (s : State) (t : Nat) (u : Tile) (d : Nat) (o : Output) : State :=
  ((s.shelfPut o.bytes).putTile t u).flagConds (mxePage t) t (descOpId d) o.conds

theorem State.shelfPut_only (s : State) (bs : List (Nat × Byte)) : Only [.shelf] s (s.shelfPut bs) := by
  intro q hq
  cases q
  case shelf => exact absurd (List.mem_singleton_self _) hq
  all_goals rfl

theorem State.shelfPut_putTile_only (s : State) (t : Nat) (u : Tile) (bs : List (Nat × Byte)) :
    Only [.regs, .tiles, .shelf] s ((s.shelfPut bs).putTile t u) :=
  ((s.shelfPut_only bs).mono (by simp)).trans ((State.putTile_only _ t u).mono (by simp))

theorem State.output_only (s : State) (t : Nat) (u : Tile) (d : Nat) (o : Output) :
    Only ([.tiles, .shelf] ++ eventParts) s (s.output t u d o) :=
  ((s.shelfPut_putTile_only t u o.bytes).mono (by simp [eventParts])).trans ((State.flagConds_only _ _ _ _ _).mono (by simp [eventParts]))

theorem State.output_shelf (s : State) (t : Nat) (u : Tile) (d : Nat) (o : Output) :
    (s.output t u d o).shelf = (s.shelfPut o.bytes).shelf := State.flagConds_only _ _ _ _ _ .shelf (by decide)

theorem State.output_tile_self (s : State) (t : Nat) (u : Tile) (d : Nat) (o : Output) : (s.output t u d o).tile t = u := by
  rw [State.tile, State.output, State.tiles_flagConds]
  exact State.tile_putTile_self _ t u

theorem State.output_tileOnly (s : State) (t : Nat) (u : Tile) (d : Nat) (o : Output) : TileOnly t s (s.output t u d o) := by
  intro j hj
  rw [State.tile, State.output, State.tiles_flagConds]
  exact State.putTile_tileOnly (s.shelfPut o.bytes) t u j hj

/-- An operation whose writes are issued: it is ready, and remembers the conditions it met (R95). -/
def TileRun.written (r : TileRun) (c : Conds) : TileRun := { r with phase := .ready, nf := c.nf.isSome, sat := c.sat.isSome }

theorem Tile.putRun_append {u : Tile} {before rest : List TileRun} {r : TileRun} (hs : u.started = before ++ r :: rest) (r' : TileRun) :
    u.putRun before.length r' = { u with started := before ++ r' :: rest } := by
  rw [Tile.putRun, hs, List.set_append_right _ _ (Nat.le_refl _), Nat.sub_self, List.set_cons_zero]

theorem Tile.putSet_putRun_append {u : Tile} {before rest : List TileRun} {r : TileRun} (hs : u.started = before ++ r :: rest) (r' : TileRun)
    (x : Nat) (a : AccSet) : (u.putRun before.length r').putSet x a = { u.putSet x a with started := before ++ r' :: rest } := by
  rw [Tile.putRun_append hs]
  unfold Tile.putSet
  split
  · rfl
  · rfl

/-- SET_FREE writes the drain's output and frees the set (R104). -/
theorem exec_setFree {s : State} {k : Fin 256} {x : Nat} {r : TileRun} {before rest : List TileRun}
    (hs : (s.tile k).started = before ++ r :: rest) (hbefore : ∀ b ∈ before, ∀ y, b.phase ≠ .drain y) (hph : r.phase = .drain x) :
    exec (.setFree k) s = .next (s.output k
      { (s.tile k).putSet x { st := if (s.tile k).activeSet.isNone then .active else .free } with
        started := before ++ r.written (drainOutput r.desc ((s.tile k).set x)).conds :: rest }
      r.desc (drainOutput r.desc ((s.tile k).set x))) := by
  change execSetFree k s = _
  unfold execSetFree
  extract_lets u
  rw [Tile.findOp_append hs]
  · simp only [hph, Tile.putSet_putRun_append hs, u]
    rfl
  · intro b hb
    split
    next y hy => exact absurd hy (hbefore b hb y)
    next => rfl
  · rw [hph]

/-- CONVERT and EXPAND take the idle converter and write their blocks (R105). -/
theorem State.convertOp_converts {s : State} {k op : Nat} {r : TileRun} {rest : List TileRun} (hs : (s.tile k).started = r :: rest)
    (hph : r.phase = .convert) (hidle : (s.tile k).converterIdle = true) (hop : descOpcode r.desc = op) {o : Output}
    (ho : s.blockOutputs r.desc (if op = opConvert then s.convertBlock r.desc else s.expandBlock r.desc) = o) :
    s.convertOp k op = s.output k { s.tile k with started := r.written o.conds :: rest } r.desc o := by
  unfold State.convertOp
  extract_lets u
  rw [Tile.findOp_append (before := []) hs]
  · have hready : r.phase = .convert ∧ descOpcode r.desc = op ∧ u.converterIdle = true := ⟨hph, hop, hidle⟩
    simp only [if_pos hready, ho, Tile.putRun_append (before := []) hs, u]
    rfl
  · intro b hb
    cases hb
  · rw [hph]

/-! ### The drain of integer sums (R94, R108, R110) -/

/-- A value in range is not clamped (R56). -/
theorem clampInt_of_inRange {i : Int} (hlo : -(2 ^ 31) ≤ i) (hhi : i < 2 ^ 31) : clampInt 32 i = (i, false) := by
  have hpow : ((2 ^ (32 - 1) : Nat) : Int) = 2 ^ 31 := rfl
  simp only [clampInt, hpow]
  rw [if_neg (by omega), if_neg (by omega)]

/-- An integer is rounded to itself. -/
theorem roundBy_nearest_integer (index : Nat) (m : Int) : roundBy .nearest index m 0 = m := by simp [roundBy, rneInt, shiftInt]

/-- Element `(y, z)` of a set is an integer sum that fits 32 bits, as INT8 products leave it. -/
def AccSet.SumAt (a : AccSet) (y z : Nat) (h : Int) : Prop :=
  -(2 ^ 31) ≤ h ∧ h < 2 ^ 31 ∧ ∃ m l, Store.get {} a.elems (y * 64 + z) = ⟨false, some 0, h, m, l⟩

/-- A drain without scale finds the sum itself (R70, R108). -/
theorem AccSet.SumAt.drained {a : AccSet} {y z : Nat} {h : Int} (hsum : a.SumAt y z h) (hfmts : a.fmts = some (fmtINT8, fmtINT8)) :
    a.drained 0 y z = ⟨some (h, 0), false⟩ := by
  obtain ⟨hlo, hhi, m, l, helem⟩ := hsum
  simp [AccSet.drained, hfmts, helem, Acc.combine, clampInt_of_inRange hlo hhi, fmtBias, fmtIsQbi, fmtINT8, fmtQBI16]

/-- A drain to INT32 as nearest integers, line by line in rows, without scale and statistics. -/
structure TD.PlainDrain (d : Nat) : Prop where
  cFmt : TD.cFmt d = fmtINT32
  cT : TD.cT d = false
  rowstat : TD.rowstat d = false
  ditherOn : TD.ditherOn d = false
  scale : TD.scale d = 0

/-- A line of sums in range is written as it is, and no condition is met (R94, R110). -/
theorem TD.PlainDrain.drainLine {d : Nat} (hd : TD.PlainDrain d) (y cols : Nat) {h : Nat → Int}
    (hclamp : ∀ z < cols, clampInt 32 (h z) = (h z, false)) :
    drainLine d y ((List.range cols).map fun z => (⟨some (h z, 0), false⟩, y, z)) =
      { bytes := placed (TD.cKey d + y * TD.cStride d * 256) ((List.range cols).flatMap fun z => leBytes 4 (unsignedOf 32 (h z))) } := by
  have hround : TD.rounding d = .nearest := by rw [TD.rounding, hd.ditherOn]; rfl
  have hvalues : (List.range cols).map (fun z => (clampInt 32 (h z)).1) = (List.range cols).map h :=
    List.map_congr_left fun z hz => by rw [hclamp z (List.mem_range.mp hz)]
  have hnosat : (List.range cols).find? (fun z => (clampInt 32 (h z)).2) = none :=
    List.find?_eq_none.mpr fun z hz => by rw [hclamp z (List.mem_range.mp hz)]; exact Bool.false_ne_true
  have hbytes : packElems 32 ((List.range cols).map h) = (List.range cols).flatMap fun z => leBytes 4 (unsignedOf 32 (h z)) := by
    rw [show (32 : Nat) = 8 * 4 from rfl, packElems_bytes, List.flatMap_map]
  simp [Sys2Proof.Machine.drainLine, hd.cFmt, hround, fmtINT32, fmtFP32, fmtIsQbi, fmtWidth, blockBytes, List.map_map, Function.comp_def,
    roundBy_nearest_integer, List.find?_map, hvalues, hnosat, hbytes, TD.cKey]

/-- Without rows, or without bytes in any block, nothing is written. -/
theorem blocksAt_of_no_bytes {base unit stride rows blks : Nat} {bytes : Nat → Nat → List Byte} (h : rows = 0 ∨ ∀ y b, bytes y b = []) :
    blocksAt base unit stride rows blks bytes = [] := by
  obtain rfl | h := h
  · rfl
  · simp [blocksAt, h, placed]

/-- One block a line. -/
theorem blocksAt_lines (base unit stride rows : Nat) (bytes : Nat → Nat → List Byte) : blocksAt base unit stride rows 1 bytes =
    (List.range rows).flatMap fun y => placed (base + y * stride * unit) (bytes y 0) := by
  simp only [blocksAt, List.range_one, List.flatMap_singleton, Nat.add_zero]

/-- The bytes of line `y` of a drain to INT32: its sums (R94). -/
def AccSet.sumBytes (a : AccSet) (cols y : Nat) : List Byte :=
  (List.range cols).flatMap fun z => leBytes 4 (unsignedOf 32 (Store.get {} a.elems (y * 64 + z)).hh)

theorem AccSet.length_sumBytes (a : AccSet) (cols y : Nat) : (a.sumBytes cols y).length = 4 * cols :=
  length_flatMap_leBytes _ _ _

/-- A drain of integer sums in range writes them line by line, and meets no condition (R94, R108 to R110). -/
theorem TD.PlainDrain.drainOutput {d : Nat} (hd : TD.PlainDrain d) {a : AccSet} (hfmts : a.fmts = some (fmtINT8, fmtINT8))
    (hsums : ∀ y < TD.rows d, ∀ z < TD.cols d, ∃ h, a.SumAt y z h) :
    drainOutput d a =
      { bytes := blocksAt (TD.cKey d) 256 (TD.cStride d) (TD.rows d) 1 fun y _ => a.sumBytes (TD.cols d) y } := by
  have hsum {y z : Nat} (hy : y < TD.rows d) (hz : z < TD.cols d) : a.SumAt y z (Store.get {} a.elems (y * 64 + z)).hh := by
    obtain ⟨h, hh⟩ := hsums y hy z hz
    obtain ⟨-, -, m, l, helem⟩ := id hh
    rwa [helem]
  have hdrained {y z : Nat} (hy : y < TD.rows d) (hz : z < TD.cols d) :
      a.drained (TD.scale d) y z = ⟨some ((Store.get {} a.elems (y * 64 + z)).hh, 0), false⟩ := by
    rw [hd.scale]
    exact (hsum hy hz).drained hfmts
  have hline {y : Nat} (hy : y < TD.rows d) :
      Sys2Proof.Machine.drainLine d y ((List.range (TD.cols d)).map fun z => (a.drained (TD.scale d) y z, y, z)) =
        { bytes := placed (TD.cKey d + y * TD.cStride d * 256) (a.sumBytes (TD.cols d) y) } := by
    rw [List.map_congr_left fun z hz => by rw [hdrained hy (List.mem_range.mp hz)]]
    exact hd.drainLine y (TD.cols d) fun z hz => clampInt_of_inRange (hsum hy hz).1 (hsum hy hz).2.1
  have hplaces (f : Drained × Nat × Nat → Bool) (hf : ∀ h y z, f (⟨some (h, 0), false⟩, y, z) = false) :
      ((List.range (TD.rows d)).flatMap fun y => (List.range (TD.cols d)).map fun z => (a.drained (TD.scale d) y z, y, z)).find? f
        = none := by
    refine List.find?_eq_none.mpr fun x hx => ?_
    obtain ⟨y, hy, hx⟩ := List.mem_flatMap.mp hx
    obtain ⟨z, hz, rfl⟩ := List.mem_map.mp hx
    rw [hdrained (List.mem_range.mp hy) (List.mem_range.mp hz), hf]
    exact Bool.false_ne_true
  have hnone (f : Output → Option NumPos) (hf : ∀ bs, f { bytes := bs } = none) :
      ((List.range (TD.rows d)).map fun y => ({ bytes := placed (TD.cKey d + y * TD.cStride d * 256) (a.sumBytes (TD.cols d) y) } : Output)
        ).filterMap f = [] := by
    refine List.filterMap_eq_nil_iff.mpr fun o ho => ?_
    obtain ⟨y, -, rfl⟩ := List.mem_map.mp ho
    exact hf _
  unfold Sys2Proof.Machine.drainOutput
  split
  next hempty =>
    rw [blocksAt_of_no_bytes (hempty.imp_right fun h y _ => by rw [h]; rfl)]
  next =>
    simp only [hd.cT, hd.rowstat, Bool.false_eq_true, if_false, List.append_nil,
      List.map_congr_left fun y hy => hline (List.mem_range.mp hy), hplaces (fun x => x.1.value.isNone) fun _ _ _ => rfl,
      hplaces (fun x => x.1.sat) fun _ _ _ => rfl]
    simp only [hnone (·.conds.nf) fun _ => rfl, hnone (·.conds.sat) fun _ => rfl, Option.map_none, Option.toList_none, List.append_nil,
      List.foldl_nil, List.flatMap_map, blocksAt_lines]

/-! ### The blocks of CONVERT and EXPAND (R68, R69, R94) -/

/-- The blocks of an output are written in line order. -/
theorem State.blockOutputs_bytes (s : State) (d : Nat) {one : Nat → Nat → Output} {unit : Nat} {bytes : Nat → Nat → List Byte}
    (h : ∀ y b, (one y b).bytes = placed (TD.cKey d + (y * TD.cStride d + b) * unit) (bytes y b)) :
    (s.blockOutputs d one).bytes = blocksAt (TD.cKey d) unit (TD.cStride d) (TD.rows d) (TD.kblk d) bytes := by
  have hfold (outs : List Output) (o : Output) :
      (outs.foldl (fun o x => { bytes := o.bytes ++ x.bytes, conds := o.conds.or x.conds }) o).bytes = o.bytes ++ outs.flatMap (·.bytes) := by
    induction outs generalizing o with
    | nil => exact (List.append_nil _).symm
    | cons x outs ih => rw [List.foldl_cons, ih, List.flatMap_cons, List.append_assoc]
  rw [State.blockOutputs, hfold, List.nil_append]
  simp only [blocksAt, List.flatMap_assoc, List.flatMap_map, h]

/-- Element `64 b + j` of line `y` of a CONVERT to INT8, 0 at padding (R68, R94). -/
def State.convertedInt8 (s : State) (d y b j : Nat) : Int :=
  if TD.pitch d ≤ 64 * b + j then 0 else
    (fpToInt 8 (TD.scale d) (TD.rounding d) (TD.origin d + y * TD.pitch d + (64 * b + j)) ((s.sourceWords d y b)[j]?.getD 0)).1

/-- The bytes of a block of a CONVERT to INT8. -/
def State.convertBytes (s : State) (d y b : Nat) : List Byte :=
  (List.range 64).flatMap fun j => leBytes 1 (unsignedOf 8 (s.convertedInt8 d y b j))

theorem State.convertBlock_bytes (s : State) {d : Nat} (hfmt : TD.cFmt d = fmtINT8) (y b : Nat) :
    (s.convertBlock d y b).bytes = placed (TD.cKey d + (y * TD.cStride d + b) * 64) (s.convertBytes d y b) := by
  have hvalues : ((s.sourceWords d y b).zipIdx.map fun x => if TD.pitch d ≤ 64 * b + x.2 then ((0 : Int), false, false) else
      fpToInt 8 (TD.scale d) (TD.rounding d) (TD.origin d + y * TD.pitch d + (64 * b + x.2)) x.1).map (·.1) =
      (List.range 64).map (s.convertedInt8 d y b) := by
    have hwords (j : Nat) (hj : j ∈ List.range 64) : (s.sourceWords d y b)[j]?.getD 0 = BitVec.ofNat 32 (leNat (Store.read 0 s.shelf
        (shelfTile (TD.aBase d) * 2 ^ 21 + shelfOff (TD.aBase d) + (y * TD.aStride d + b) * 256 + 4 * j) 4)) := by
      simp [State.sourceWords, List.mem_range.mp hj]
    rw [List.map_map, State.sourceWords, zipIdx_map_range, List.map_map]
    refine List.map_congr_left fun j hj => ?_
    rw [State.convertedInt8, hwords j hj]
    exact apply_ite Prod.fst _ _ _
  have hpack : packElems 8 ((List.range 64).map (s.convertedInt8 d y b)) = s.convertBytes d y b := by
    rw [show (8 : Nat) = 8 * 1 from rfl, packElems_bytes, List.flatMap_map]
    rfl
  have hint : fmtIsQbi fmtINT8 = false ∧ fmtWidth fmtINT8 = 8 ∧ blockBytes fmtINT8 = 64 := by decide
  simp only [State.convertBlock, hfmt, hint, Bool.false_eq_true, if_false, decide_eq_true_eq, hvalues, hpack, TD.cKey]

/-- The bytes of a block of an EXPAND of INT8: each source integer times 2^S in FP32 (R69). -/
def State.expandBytes (s : State) (d y b : Nat) : List Byte :=
  (List.range 64).flatMap fun j => leBytes 4 (fpRound (Store.get 0 s.shelf (shelfTile (TD.aBase d) * 2 ^ 21 + shelfOff (TD.aBase d)
    + (y * TD.aStride d + b) * 64 + j)).toInt (TD.scale d)).toNat

theorem State.expandBlock_bytes (s : State) {d : Nat} (hfmt : TD.aFmt d = fmtINT8) (y b : Nat) :
    (s.expandBlock d y b).bytes = placed (TD.cKey d + (y * TD.cStride d + b) * 256) (s.expandBytes d y b) := by
  have helem (j : Nat) : s.elemAt (TD.aBase d) (TD.aExp d) fmtINT8 (y * TD.aStride d + b) j = ((Store.get 0 s.shelf
      (shelfTile (TD.aBase d) * 2 ^ 21 + shelfOff (TD.aBase d) + (y * TD.aStride d + b) * 64 + j)).toInt, 0) :=
    Prod.ext (signedOf_toNat _) rfl
  simp only [State.expandBlock, hfmt, helem, List.flatMap_map]
  rfl

theorem State.length_convertBytes (s : State) (d y b : Nat) : (s.convertBytes d y b).length = 64 :=
  length_flatMap_leBytes _ _ _

theorem State.length_expandBytes (s : State) (d y b : Nat) : (s.expandBytes d y b).length = 256 :=
  length_flatMap_leBytes _ _ _

end Sys2Proof.Machine

namespace Sys2Proof.Proofs

open Sys2Proof.Machine

/-- The low byte of an integer in two's complement (R55). -/
theorem ofNat_unsignedOf_byte (i : Int) : BitVec.ofNat 8 (unsignedOf 8 i) = BitVec.ofInt 8 i := by
  apply BitVec.eq_of_toNat_eq
  rw [BitVec.toNat_ofNat, BitVec.toNat_ofInt, unsignedOf]
  omega

/-- A drain of integer sums writes its lines and nothing else, and frees its set. -/
theorem setFree_runs {k : Fin 256} {x : Nat} {r : TileRun} {before rest : List TileRun} {s : State}
    (hs : (s.tile k).started = before ++ r :: rest) (hbefore : ∀ b ∈ before, ∀ y, b.phase ≠ .drain y) (hph : r.phase = .drain x)
    (hfmts : ((s.tile k).set x).fmts = some (fmtINT8, fmtINT8)) (hd : TD.PlainDrain r.desc) (hstride : 0 < TD.cStride r.desc)
    (hcols : TD.cols r.desc ≤ 64) (hsums : ∀ y < TD.rows r.desc, ∀ z < TD.cols r.desc, ∃ h, ((s.tile k).set x).SumAt y z h) :
    Runs (.setFree k) s fun t =>
      (∀ y < TD.rows r.desc, ∀ z < TD.cols r.desc, ∀ j < 4, Store.get 0 t.shelf (TD.cKey r.desc + y * TD.cStride r.desc * 256 + 4 * z + j)
        = BitVec.ofNat 8 (unsignedOf 32 (Store.get {} ((s.tile k).set x).elems (y * 64 + z)).hh / 2 ^ (8 * j))) ∧
      (∀ a, (∀ y < TD.rows r.desc, ¬ (TD.cKey r.desc + y * TD.cStride r.desc * 256 ≤ a ∧
          a < TD.cKey r.desc + y * TD.cStride r.desc * 256 + 4 * TD.cols r.desc)) → Store.get 0 t.shelf a = Store.get 0 s.shelf a) ∧
      t.tile k = { (s.tile k).putSet x { st := if (s.tile k).activeSet.isNone then .active else .free } with
        started := before ++ { r with phase := .ready, nf := false, sat := false } :: rest } ∧
      Only [.regs, .tiles, .shelf] s t ∧ TileOnly k s t ∧ RegsOnly (tileShown k) s t := by
  have hlen (y b : Nat) : (((s.tile k).set x).sumBytes (TD.cols r.desc) y).length ≤ 256 := by
    rw [AccSet.length_sumBytes]
    omega
  refine ⟨_, exec_setFree hs hbefore hph, ?_⟩
  rw [hd.drainOutput hfmts hsums]
  refine ⟨fun y hy z hz j hj => ?_, fun a ha => ?_, State.output_tile_self _ _ _ _ _, State.shelfPut_putTile_only _ _ _ _,
    State.output_tileOnly _ _ _ _ _, (RegsOnly.of_regs rfl _).trans (State.putTile_regsOnly _ _ _)⟩
  · have hbyte := getElem?_flatMap_leBytes hz hj fun z => unsignedOf 32 (Store.get {} ((s.tile k).set x).elems (y * 64 + z)).hh
    have hput := s.shelfPut_blocksAt (base := TD.cKey r.desc) (unit := 256) hstride hlen hy Nat.zero_lt_one hbyte
    rw [State.output_shelf, Nat.add_assoc _ (4 * z) j]
    rwa [Nat.add_zero] at hput
  · rw [State.output_shelf]
    refine State.shelfPut_blocksAt_other s fun y hy b hb i hi haddr => ha y hy ?_
    rw [AccSet.length_sumBytes] at hi
    obtain rfl : b = 0 := by omega
    omega

/-- A CONVERT or EXPAND whose blocks hold the bytes `bytes` writes those and nothing else. -/
theorem convertOp_blocks {s : State} {k op unit : Nat} {r : TileRun} {rest : List TileRun} {bytes : Nat → Nat → List Byte}
    (hs : (s.tile k).started = r :: rest) (hph : r.phase = .convert) (hidle : (s.tile k).converterIdle = true)
    (hfit : TD.kblk r.desc ≤ TD.cStride r.desc) (hop : descOpcode r.desc = op)
    (hbytes : ∀ y b, ((if op = opConvert then s.convertBlock r.desc else s.expandBlock r.desc) y b).bytes
      = placed (TD.cKey r.desc + (y * TD.cStride r.desc + b) * unit) (bytes y b))
    (hlen : ∀ y b, (bytes y b).length ≤ unit) :
    (∀ y < TD.rows r.desc, ∀ b < TD.kblk r.desc, ∀ i v, (bytes y b)[i]? = some v →
      Store.get 0 (s.convertOp k op).shelf (TD.cKey r.desc + (y * TD.cStride r.desc + b) * unit + i) = v) ∧
    (∀ a, (∀ y < TD.rows r.desc, ¬ (TD.cKey r.desc + y * TD.cStride r.desc * unit ≤ a ∧
        a < TD.cKey r.desc + (y * TD.cStride r.desc + TD.kblk r.desc) * unit)) →
      Store.get 0 (s.convertOp k op).shelf a = Store.get 0 s.shelf a) ∧
    (∃ nf sat, (s.convertOp k op).tile k = { s.tile k with started := { r with phase := .ready, nf := nf, sat := sat } :: rest }) ∧
    Only ([.tiles, .shelf] ++ eventParts) s (s.convertOp k op) ∧ TileOnly k s (s.convertOp k op) := by
  rw [State.convertOp_converts hs hph hidle hop rfl, State.output_shelf, s.blockOutputs_bytes r.desc hbytes]
  exact ⟨fun y hy b hb i v hv => s.shelfPut_blocksAt hfit hlen hy hb hv, fun a ha => s.shelfPut_blocksAt_outside hlen ha,
    ⟨_, _, State.output_tile_self _ _ _ _ _⟩, State.output_only _ _ _ _ _, State.output_tileOnly _ _ _ _ _⟩

/-- Settles O11: each row's output is a list of blocks of bytes at linear indices that differ, so a byte stands where its block lays it and
every byte outside the blocks is as before. -/
theorem matrixOutput : Obligations.MatrixOutput := by
  refine ⟨?drains, fun k r rest s hs hph hidle hfit => ⟨fun hop hfmt => ?converts, fun hop hfmt => ?expands⟩⟩
  case drains =>
    intro k x r before rest s hs hbefore hph _ hfmts hcFmt hcT hstat hdither hscale hstride hcols hsums
    exact setFree_runs hs hbefore hph hfmts ⟨hcFmt, hcT, hstat, hdither, hscale⟩ hstride hcols hsums
  case converts =>
    obtain ⟨hput, hframe⟩ := convertOp_blocks hs hph hidle hfit hop (s.convertBlock_bytes hfmt)
      fun y b => Nat.le_of_eq (s.length_convertBytes r.desc y b)
    refine ⟨_, rfl, fun y hy b hb j hj => ?_, hframe⟩
    have hbyte := getElem?_flatMap_leBytes hj Nat.zero_lt_one fun j => unsignedOf 8 (s.convertedInt8 r.desc y b j)
    rw [Nat.one_mul, Nat.mul_zero, Nat.pow_zero, Nat.div_one, ofNat_unsignedOf_byte] at hbyte
    exact hput y hy b hb _ _ hbyte
  case expands =>
    obtain ⟨hput, hframe⟩ := convertOp_blocks hs hph hidle hfit hop (s.expandBlock_bytes hfmt)
      fun y b => Nat.le_of_eq (s.length_expandBytes r.desc y b)
    refine ⟨_, rfl, fun y hy b hb j hj n hn => ?_, hframe⟩
    rw [Nat.add_assoc _ (4 * j) n]
    exact hput y hy b hb _ _ (getElem?_flatMap_leBytes hj hn fun j => (fpRound (Store.get 0 s.shelf (shelfTile (TD.aBase r.desc) * 2 ^ 21
      + shelfOff (TD.aBase r.desc) + (y * TD.aStride r.desc + b) * 64 + j)).toInt (TD.scale r.desc)).toNat)

end Sys2Proof.Proofs
end

section
/-! SUPPORT. The rows that move the accumulator sets from the array to the converter (R104 to R106). -/

namespace Sys2Proof.Machine

/-! ### The frame of new contents -/

/-- New contents of a tile change no other tile and no register but those that show it (R101). -/
theorem State.putTile_frame (s : State) (t : Nat) (u : Tile) :
    Only [.regs, .tiles] s (s.putTile t u) ∧ RegsOnly (tileShown t) s (s.putTile t u) ∧ TileOnly t s (s.putTile t u) :=
  ⟨s.putTile_only t u, s.putTile_regsOnly t u, s.putTile_tileOnly t u⟩

/-! ### CLEAR and DRAIN -/

theorem AccSet.cleared_active {a : AccSet} (h : a.st = .active) : a.cleared = { st := .active } := by
  rw [AccSet.cleared, h]

/-- CLEAR discards the ACTIVE set, which stays ACTIVE (R104). -/
theorem exec_clearAcc {s : State} {k : Fin 256} {i x : Nat} {r : TileRun} (hat : (s.tile k).atArray = some (i, r))
    (hset : (s.tile k).activeSet = some x) (hph : r.phase = .clear) :
    exec (.clearAcc k) s = .next (s.putTile k (((s.tile k).putSet x { st := .active }).putRun i { r with phase := .ready })) := by
  obtain ⟨-, hst⟩ := Tile.activeSet_eq_some hset
  change execClearAcc k s = _
  simp only [execClearAcc, hat, hph, hset, AccSet.cleared_active hst, if_true]

/-- DRAIN reaches the accumulator block once a set is ACTIVE (R106). -/
theorem exec_drain {s : State} {k : Fin 256} {i x : Nat} {r : TileRun} (hat : (s.tile k).atArray = some (i, r))
    (hset : (s.tile k).activeSet = some x) (hph : r.phase = .reach) :
    exec (.drain k) s = .next (s.putTile k ((s.tile k).putRun i { r with phase := .handover })) := by
  have hready : r.phase = .reach ∧ (s.tile k).activeSet.isSome = true := ⟨hph, by rw [hset]; rfl⟩
  change execDrain k s = _
  simp only [execDrain, hat, if_pos hready]

/-! ### The handover -/

/-- The tile once its ACTIVE set `x` is handed over: that set is PENDING, and the other one ACTIVE if it was FREE (R104, R105). -/
def Tile.handOver (u : Tile) (x : Nat) : Tile :=
  if (u.set (1 - x)).st = .free then
    (u.putSet x { u.set x with st := .pending }).putSet (1 - x) { u.set (1 - x) with st := .active }
  else u.putSet x { u.set x with st := .pending }

/-- The set handed over is PENDING with its contents (R104). -/
theorem Tile.set_handOver_self (u : Tile) {x : Nat} (hx : x < 2) : (u.handOver x).set x = { u.set x with st := .pending } := by
  unfold Tile.handOver
  split
  · have hother := Tile.set_putSet_other (u.putSet x { u.set x with st := .pending }) (x := 1 - x) (by omega)
      { u.set (1 - x) with st := .active }
    rw [show 1 - (1 - x) = x by omega] at hother
    rw [hother, Tile.set_putSet_self]
  · rw [Tile.set_putSet_self]

/-- A FREE set becomes ACTIVE at the handover of the other (R105). -/
theorem Tile.set_handOver_free {u : Tile} {x : Nat} (h : (u.set (1 - x)).st = .free) :
    (u.handOver x).set (1 - x) = { u.set (1 - x) with st := .active } := by
  rw [Tile.handOver, if_pos h, Tile.set_putSet_self]

/-- A set that is not FREE is as before at the handover of the other (R105). -/
theorem Tile.set_handOver_not_free {u : Tile} {x : Nat} (hx : x < 2) (h : (u.set (1 - x)).st ≠ .free) :
    (u.handOver x).set (1 - x) = u.set (1 - x) := by
  rw [Tile.handOver, if_neg h, Tile.set_putSet_other u hx]

@[simp] theorem Tile.started_handOver (u : Tile) (x : Nat) : (u.handOver x).started = u.started := by
  unfold Tile.handOver
  split
  · rw [Tile.started_putSet, Tile.started_putSet]
  · rw [Tile.started_putSet]

/-- A new set changes nothing of a tile outside its sets and started operations. -/
theorem Tile.putSet_rest (u v : Tile) (x : Nat) (a : AccSet) :
    { u.putSet x a with set0 := v.set0, set1 := v.set1, started := v.started }
      = { u with set0 := v.set0, set1 := v.set1, started := v.started } := by
  unfold Tile.putSet
  split <;> rfl

/-- A handover changes nothing of a tile outside its sets and started operations. -/
theorem Tile.handOver_rest (u : Tile) (x : Nat) :
    { u.handOver x with set0 := u.set0, set1 := u.set1, started := u.started } = u := by
  unfold Tile.handOver
  split
  · rw [Tile.putSet_rest _ u, Tile.putSet_rest _ u]
  · rw [Tile.putSet_rest _ u]

/-- DRAIN_HANDOVER hands the ACTIVE set over (R104, R105). -/
theorem exec_drainHandover {s : State} {k : Fin 256} {i x : Nat} {r : TileRun} (hat : (s.tile k).atArray = some (i, r))
    (hset : (s.tile k).activeSet = some x) (hph : r.phase = .handover) :
    exec (.drainHandover k) s = .next (s.putTile k (((s.tile k).handOver x).putRun i { r with phase := .pending x })) := by
  obtain ⟨hx, -⟩ := Tile.activeSet_eq_some hset
  change execDrainHandover k s = _
  simp only [execDrainHandover, hat, hset, hph, if_true, Tile.set_putSet_other _ hx, Tile.handOver]

/-! ### The converter takes a set -/

theorem Tile.converterIdle_of_not_draining {u : Tile} (h0 : u.set0.st ≠ .draining) (h1 : u.set1.st ≠ .draining) :
    u.converterIdle = true := by
  simp [Tile.converterIdle, h0, h1]

/-- The idle converter takes the set of the first operation that waits for it (R104, R105). -/
theorem exec_converterTakeSet {s : State} {k : Fin 256} {x : Nat} {r : TileRun} {before rest : List TileRun}
    (hs : (s.tile k).started = before ++ r :: rest)
    (hbefore : ∀ b ∈ before, b.phase ≠ .convert ∧ ∀ y, b.phase ≠ .pending y) (hph : r.phase = .pending x)
    (hidle : (s.tile k).converterIdle = true) :
    exec (.converterTakeSet k) s = .next (s.putTile k
      { (s.tile k).putSet x { (s.tile k).set x with st := .draining } with
        started := before ++ { r with phase := .drain x } :: rest }) := by
  have hstarted := (Tile.started_putSet (s.tile k) x { (s.tile k).set x with st := .draining }).trans hs
  change execConverterTakeSet k s = _
  unfold execConverterTakeSet
  extract_lets u
  rw [Tile.findOp_append hs]
  · simp only [hph, hidle, if_true, u]
    exact congrArg (fun v => Host.Outcome.next (s.putTile k v)) (Tile.putRun_append hstarted _)
  · intro b hb
    obtain ⟨hconvert, hpending⟩ := hbefore b hb
    split
    next y hy => exact absurd hy (hpending y)
    next hy => exact absurd hy hconvert
    next => rfl
  · rw [hph]

end Sys2Proof.Machine

namespace Sys2Proof.Proofs

open Sys2Proof.Machine

/-- Settles O9: each row puts new contents into its tile and touches nothing that `State.putTile` does not. -/
theorem accumulatorSets : Obligations.AccumulatorSets := by
  refine ⟨fun k i x r s hat hset => ⟨fun hph => ?clear, fun hph => ?drain, fun hph => ?handover⟩, ?take⟩
  case clear => exact ⟨_, exec_clearAcc hat hset hph, State.tile_putTile_self _ _ _, State.putTile_frame _ _ _⟩
  case drain => exact ⟨_, exec_drain hat hset hph, State.tile_putTile_self _ _ _, State.putTile_frame _ _ _⟩
  case handover =>
    obtain ⟨hx, -⟩ := Tile.activeSet_eq_some hset
    refine ⟨_, exec_drainHandover hat hset hph, ?_⟩
    simp only [State.tile_putTile_self, Tile.set_putRun, Tile.started_putRun]
    exact ⟨Tile.set_handOver_self _ hx, Tile.set_handOver_free, Tile.set_handOver_not_free hx,
      congrArg (List.set · i _) (Tile.started_handOver _ x), Tile.handOver_rest _ x, State.putTile_frame _ _ _⟩
  case take =>
    intro k x r before rest s hs hbefore hph h0 h1
    exact ⟨_, exec_converterTakeSet hs hbefore hph (Tile.converterIdle_of_not_draining h0 h1), State.tile_putTile_self _ _ _,
      State.putTile_frame _ _ _⟩

end Sys2Proof.Proofs
end

section
/-! SUPPORT. The issue of a vector instruction that meets no condition (R126, R131): the RUN advances, its effect is the tile's, the counters
of the tile's page count it, and a summary it sends joins those on their way (R138). -/

namespace Sys2Proof.Machine

/-! ### What an instruction counts and sends -/

/-- The counters of a tile's page after an instruction (R142): issue cycles, FP32 operations, table evaluations, store errors corrected. -/
def State.vecCounted (s : State) (t cyc flops evals corr : Nat) : State :=
  (((s.bump (tilPage t) F.til.VEC_ISSUE_CYC_COUNT cyc).bump (tilPage t) F.til.VEC_FLOPS_COUNT flops).bump (tilPage t)
    F.til.VEC_TBL_EVALS_COUNT evals).bump (tilPage t) F.til.VEC_STORE_CORR_COUNT corr

/-- The summary an instruction sends, if any, joins those on their way (R138). -/
def State.sent (s : State) (m : Option Summary) : State := { s with summaries := s.summaries ++ m.toList }

theorem State.vecCounted_only (s : State) (t cyc flops evals corr : Nat) : Only [.regs] s (s.vecCounted t cyc flops evals corr) :=
  State.withRegs_only s _

theorem State.vecCounted_regsOnly (s : State) (t cyc flops evals corr : Nat) :
    RegsOnly (vecShown t) s (s.vecCounted t cyc flops evals corr) :=
  (((State.bump_regsOnly _ _ _ _).mono (by simp [vecShown])).trans ((State.bump_regsOnly _ _ _ _).mono (by simp [vecShown]))).trans
    (((State.bump_regsOnly _ _ _ _).mono (by simp [vecShown])).trans ((State.bump_regsOnly _ _ _ _).mono (by simp [vecShown])))

theorem State.sent_only (s : State) (m : Option Summary) : Only [.summaries] s (s.sent m) := by
  intro q hq
  cases q
  case summaries => exact absurd (List.mem_singleton_self _) hq
  all_goals rfl

theorem State.tile_of_tiles {s t : State} (h : t.tiles = s.tiles) (k : Nat) : t.tile k = s.tile k := by
  rw [State.tile, State.tile, h]

/-- The tile after an instruction with the effect `e`: the RUN remembers its conditions, the records it captured and its summary (R80, R132). -/
def State.tileAfter (s : State) (k : Nat) (r : VecRun) (e : VEff) : Tile :=
  let q := e.tile.vrun.getD r
  { e.tile with
    vrun := some { q with
      nf := q.nf || e.conds.nf.isSome, sat := q.sat || e.conds.sat.isSome
      nfRec := q.nfRec || (e.conds.nf.isSome && !s.fon (vecPage k) F.mxe.NF_POS_VALID)
      satRec := q.satRec || (e.conds.sat.isSome && !s.fon (vecPage k) F.mxe.SAT_POS_VALID)
      summary := q.summary || e.msg.isSome } }

/-- What an instruction that is not broken does, part by part (R126, R131). -/
theorem State.issueGo_eq {s : State} {k : Nat} {act : State → Tile → VecRun → Nat → VEff} {u : Tile} {r : VecRun} {w corr : Nat} {e : VEff}
    (he : act s (u.issuing r) { r with pc := r.pc + 1 } w = e) (hb : e.broken = false) :
    State.issue.go k act s u r w corr =
      ((((((s.shelfPut e.bytes).putTile k (s.tileAfter k r e)).lowerRecords (vecPage k) k (descOpId r.desc) r.nfRec r.satRec e.conds).flagConds
        (vecPage k) k (descOpId r.desc) e.conds).vecCounted k (issueCycles (VI.op w)) e.flops e.evals (e.corr + corr)).sent e.msg) := by
  subst he
  exact if_neg fun hbroken => Bool.false_ne_true (hb.symm.trans hbroken)

/-! ### Instructions without a condition -/

theorem State.shelfPut_nil (s : State) : s.shelfPut [] = s := rfl

theorem State.lowerRecords_none (s : State) (p : Page) (tile opId : Nat) (nf sat : Bool) : s.lowerRecords p tile opId nf sat {} = s := rfl

theorem State.flagConds_none (s : State) (p : Page) (tile opId : Nat) : s.flagConds p tile opId {} = s := rfl

/-- The tile after an instruction without a condition: beside the RUN it holds what `u` holds, and the RUN waits for the summary `m` if one
was sent (R131, R132). -/
def Tile.issued (u : Tile) (r : VecRun) (m : Option Summary) : Tile :=
  { u with vrun := some { r with pc := r.pc + 1, summary := r.summary || m.isSome } }

theorem State.tileAfter_quiet (s : State) (k : Nat) (u : Tile) (r : VecRun) (m : Option Summary) :
    s.tileAfter k r { tile := u.issuing r, msg := m } = u.issued r m := by
  simp only [State.tileAfter, Tile.issuing, Tile.issued, Option.getD_some, Option.isSome_none, Bool.false_and, Bool.or_false]

section

variable {s : State} {k w op : Nat} {r : VecRun} {act : State → Tile → VecRun → Nat → VEff} {u : Tile}

/-- The issue of an instruction that meets no condition and stores no bytes. -/
theorem State.issue_quiet (h : s.atInstr k w r) (hop : VI.op w = op) {m : Option Summary}
    (he : act s ((s.tile k).issuing r) { r with pc := r.pc + 1 } w = { tile := u.issuing r, msg := m }) :
    s.issue k op act = ((s.putTile k (u.issued r m)).vecCounted k (issueCycles (VI.op w)) 0 0 0).sent m := by
  rw [State.issue_atInstr h hop, State.issueGo_eq he rfl, State.tileAfter_quiet, State.shelfPut_nil, State.lowerRecords_none,
    State.flagConds_none]

/-- What such an instruction changes: the tile, the registers that show it and count for it, and the summaries on their way. -/
theorem State.issue_quiet_frame (h : s.atInstr k w r) (hop : VI.op w = op) {m : Option Summary}
    (he : act s ((s.tile k).issuing r) { r with pc := r.pc + 1 } w = { tile := u.issuing r, msg := m }) :
    (s.issue k op act).tile k = u.issued r m ∧ (s.issue k op act).summaries = s.summaries ++ m.toList ∧ TileOnly k s (s.issue k op act) ∧
      Only [.regs, .tiles, .summaries] s (s.issue k op act) ∧ RegsOnly (vecShown k) s (s.issue k op act) := by
  rw [State.issue_quiet h hop he]
  obtain ⟨honly, hregs, hother⟩ := s.putTile_frame k (u.issued r m)
  have hself := s.tile_putTile_self k (u.issued r m)
  have hsum : (s.putTile k (u.issued r m)).summaries = s.summaries := honly .summaries (by decide)
  generalize s.putTile k (u.issued r m) = v at *
  have hcount : Only [.regs] v (v.vecCounted k (issueCycles (VI.op w)) 0 0 0) := State.vecCounted_only _ _ _ _ _ _
  have hcregs : RegsOnly (vecShown k) v (v.vecCounted k (issueCycles (VI.op w)) 0 0 0) := State.vecCounted_regsOnly _ _ _ _ _ _
  generalize v.vecCounted k (issueCycles (VI.op w)) 0 0 0 = v' at *
  have htiles (j : Nat) : (v'.sent m).tile j = v.tile j := State.tile_of_tiles (hcount .tiles (by decide)) j
  refine ⟨(htiles k).trans hself, ?_, fun j hj => (htiles j).trans (hother j hj), ?_, ?_⟩
  · rw [State.sent, show v'.summaries = _ from hcount .summaries (by decide), hsum]
  · exact ((honly.mono (by simp)).trans (hcount.mono (by simp))).trans ((State.sent_only v' m).mono (by simp))
  · exact ((hregs.mono (by simp +contextual [vecShown])).trans hcregs).trans (RegsOnly.of_regs rfl _)

/-- An instruction that meets no condition and sends no summary is issued, its effect that of `u`. -/
theorem State.issue_issued (h : s.atInstr k w r) (hop : VI.op w = op)
    (he : act s ((s.tile k).issuing r) { r with pc := r.pc + 1 } w = { tile := u.issuing r }) :
    Issued [] s (s.issue k op act) k r u false false := by
  obtain ⟨htile, hsum, hother, honly, hregs⟩ := State.issue_quiet_frame h hop he
  have honly' : Only [.regs, .tiles] s (s.issue k op act) := by
    intro q hq
    by_cases hs : q = .summaries
    · subst hs
      exact hsum.trans (List.append_nil _)
    · exact honly q (by simpa [hs] using hq)
  refine ⟨?_, hother, honly'.mono (by simp [eventParts]), fun _ _ => ⟨honly', hregs⟩, nofun, nofun⟩
  rw [htile, Tile.issued]
  simp only [Option.isSome_none, Bool.or_false]

end

end Sys2Proof.Machine
end

section
/-! SUPPORT. Predicate registers (R116, R120): the lanes that a comparison or a predicate operation writes. -/

namespace Sys2Proof.Machine

/-- Bit `i` of the sum of the powers of two of the lanes below `n` where `f` holds. -/
theorem testBit_laneSum (f : Nat → Bool) (n i : Nat) :
    ((List.range n).foldl (fun a l => if f l then a + 2 ^ l else a) 0).testBit i = (decide (i < n) && f i) := by
  have bound (n : Nat) : (List.range n).foldl (fun a l => if f l then a + 2 ^ l else a) 0 < 2 ^ n := by
    induction n with
    | zero => exact Nat.one_pos
    | succ n ih =>
      rw [List.range_succ, List.foldl_append, List.foldl_cons, List.foldl_nil]
      split <;> omega
  induction n with
  | zero => simp
  | succ n ih =>
    have hn := bound n
    rw [List.range_succ, List.foldl_append, List.foldl_cons, List.foldl_nil]
    by_cases hf : f n = true
    · rw [if_pos hf, Nat.add_comm, ← Nat.mul_one (2 ^ n), Nat.two_pow_add_eq_or_of_lt hn, Nat.mul_one, Nat.testBit_or, ih,
        Nat.testBit_two_pow]
      by_cases hi : n = i
      · subst hi
        simp [hf]
      · simp [hi, show i < n + 1 ↔ i < n by omega]
    · rw [if_neg hf, ih]
      by_cases hi : i = n
      · subst hi
        simp [hf]
      · simp [show i < n + 1 ↔ i < n by omega]

theorem Tile.putPred_zero (u : Tile) (f : Nat → Bool) : u.putPred 0 f = u := rfl

/-- A lane of a predicate register that was written. -/
theorem Tile.predLane_putPred_self (u : Tile) {x : Nat} (hx : x ≠ 0) (f : Nat → Bool) {l : Nat} (hl : l < 128) :
    (u.putPred x f).predLane x l = f l := by
  simp only [Tile.predLane, Tile.putPred, if_neg hx, Store.get_set_self, BitVec.getLsbD_ofNat, testBit_laneSum, hl, decide_true, Bool.true_and]

theorem Tile.get_putPred_ne (u : Tile) {x y : Nat} (h : y ≠ x) (f : Nat → Bool) : Store.get 0 (u.putPred x f).p y = Store.get 0 u.p y := by
  unfold Tile.putPred
  split
  · rfl
  · exact Store.get_set_ne _ _ _ (Ne.symm h)

theorem Tile.putPred_rest (u : Tile) (x : Nat) (f : Nat → Bool) : { u.putPred x f with p := u.p } = u := by
  unfold Tile.putPred
  split <;> rfl

theorem Tile.putPred_issuing (u : Tile) (r : VecRun) (x : Nat) (f : Nat → Bool) : (u.issuing r).putPred x f = (u.putPred x f).issuing r := by
  unfold Tile.putPred
  split <;> rfl

/-- Tile `u'` differs from `u` in predicate P[VD] alone, whose gated lanes hold `f`; P0 takes no write (R116, R120). -/
def PredResult (u u' : Tile) (w : Nat) (f : Nat → Bool) : Prop :=
  { u' with p := u.p } = u ∧ (VI.vd w = 0 → u'.p = u.p) ∧ (∀ x, x ≠ VI.vd w → Store.get 0 u'.p x = Store.get 0 u.p x) ∧
    (VI.vd w ≠ 0 → ∀ l < 128, u'.predLane (VI.vd w) l = if u.gate w l then f l else u.predLane (VI.vd w) l)

/-- What a comparison writes. -/
theorem vecCmp_predResult (u : Tile) {w : Nat} (hvd : VI.vd w < 8) (f : Nat → Bool) : PredResult u (vecCmp u w f).tile w f := by
  unfold vecCmp
  rw [Nat.mod_eq_of_lt hvd]
  refine ⟨u.putPred_rest _ _, fun h => ?_, fun x hx => u.get_putPred_ne hx _, fun h l hl => u.predLane_putPred_self h _ hl⟩
  rw [h, Tile.putPred_zero]

/-- A comparison at the instruction at hand is issued. -/
theorem State.issue_vecCmp {s : State} {k w op : Nat} {r : VecRun} {act : State → Tile → VecRun → Nat → VEff} (h : s.atInstr k w r)
    (hop : VI.op w = op) (hvd : VI.vd w < 8) {f : Nat → Bool}
    (he : act s ((s.tile k).issuing r) { r with pc := r.pc + 1 } w = vecCmp ((s.tile k).issuing r) w f) :
    ∃ u', Issued [] s (s.issue k op act) k r u' false false ∧ PredResult (s.tile k) u' w f :=
  ⟨_, State.issue_issued h hop (he.trans (congrArg (fun v => ({ tile := v } : VEff)) (Tile.putPred_issuing _ r _ _))),
    vecCmp_predResult _ hvd f⟩

/-- An exponent of all ones is a NaN's or an infinity's (R59). -/
theorem fpNonfinite_eq (x : Word) : fpNonfinite x = (x.toNat / 2 ^ 23 % 256 == 255) :=
  congrArg (fun n => n % 256 == 255) (Nat.shiftRight_eq_div_pow x.toNat 23)

end Sys2Proof.Machine

namespace Sys2Proof.Proofs

open Sys2Proof.Machine

/-- Settles O14: each row writes its truth value by `vecCmp`. -/
theorem predicateInstructions : Obligations.PredicateInstructions := by
  intro k w r s h hvd
  refine ⟨?fcmplt, ?fcmple, ?fcmpeq, ?fisnf, ?pand, ?por, ?pnot⟩
  case fisnf => exact fun hop => ⟨_, rfl, State.issue_vecCmp h hop hvd (congrArg (vecCmp _ w) (funext fun l => fpNonfinite_eq _))⟩
  all_goals exact fun hop => ⟨_, rfl, State.issue_vecCmp h hop hvd rfl⟩

end Sys2Proof.Proofs
end

section
/-! SUPPORT. The NONFINITE condition of scalar instructions and of table evaluations (R121, R136), and the first instruction of each kind that
meets it (R80). -/

namespace Sys2Proof.Machine

/-- A scalar instruction with a non-finite result gives the condition (R121). -/
theorem vecScalar_nf_isSome {u : Tile} {w : Nat} {f : Word → Word → Word}
    (hf : fpNonfinite (f (u.scalar (VI.va w % 16)) (u.scalar (VI.vb w % 16))) = true) : (vecScalar u w f).conds.nf.isSome = true := by
  rw [vecScalar, if_pos hf]
  rfl

/-- The stored segment, checked, that a table gives an input (R134, R135). -/
def TableSlot.segment (tb : TableSlot) (deriv : Bool) (x : Word) : CheckResult :=
  segCheck ((if deriv then tb.deriv else tb.value).getD (tableSeg tb.header x).1 0)

/-- The value or derivative at an input from the coefficients of its segment (R136, R137). -/
def TableSlot.eval (tb : TableSlot) (deriv : Bool) (c : Nat) (x : Word) : Word :=
  tableValue tb.header (if deriv then TH.symD tb.header else TH.symV tb.header) (BitVec.ofNat 32 c) (BitVec.ofNat 32 (c >>> 32))
    (BitVec.ofNat 32 (c >>> 64)) (tableSeg tb.header x).2 x

/-- The coefficients of a segment that is readable. -/
def CheckResult.data : CheckResult → Nat
  | .clean d => d
  | .corrected d => d
  | .failed => 0

/-- A table evaluation whose gated segments are readable is a lane-wise FP32 instruction (R136, R137). -/
theorem vecTable_readable {u : Tile} {w : Nat} {tb : TableSlot} {deriv : Bool} (ht : Store.get none u.tables (VI.imm w % 4) = some tb)
    (hseg : ∀ l < 128, u.gate w l = true → tb.segment deriv (u.srcA w l) ≠ .failed) :
    ∃ ins corr, vecTable u w deriv =
      { vecFp u w (fun l => tb.eval deriv (tb.segment deriv (u.srcA w l)).data (u.srcA w l)) ins (4 * 128) 4 with
        evals := 128, corr := corr } := by
  have hany : ((List.range 128).filter (u.gate w)).any (fun l => tb.segment deriv (u.srcA w l) = .failed) = false := by
    simpa using hseg
  rw [vecTable, ht]
  exact ⟨_, _, if_neg fun hbroken => Bool.false_ne_true (hany.symm.trans hbroken)⟩

/-- A readable table evaluation with a non-finite value in a gated lane gives the condition (R120, R136). -/
theorem vecTable_nonfinite {u : Tile} {w : Nat} {tb : TableSlot} {deriv : Bool} (ht : Store.get none u.tables (VI.imm w % 4) = some tb)
    (hseg : ∀ l < 128, u.gate w l = true → tb.segment deriv (u.srcA w l) ≠ .failed) {l c : Nat} (hl : l < 128)
    (hgate : u.gate w l = true) (hc : tb.segment deriv (u.srcA w l) = .clean c) (hf : fpNonfinite (tb.eval deriv c (u.srcA w l)) = true) :
    (vecTable u w deriv).broken = false ∧ (vecTable u w deriv).tile.vrun = u.vrun ∧ (vecTable u w deriv).conds.nf.isSome = true := by
  obtain ⟨ins, corr, heff⟩ := vecTable_readable ht hseg
  rw [heff]
  exact ⟨rfl, rfl, vecFp_nf_isSome ins (4 * 128) 4 hl hgate (by rw [hc]; exact hf)⟩

/-- The lanes of vector registers that nothing has written. -/
theorem Tile.lane_of_empty {u : Tile} (h : u.v = []) (x l : Nat) : u.lane x l = 0 := by
  rw [Tile.lane, h]
  change (List.replicate 128 (0 : Word)).getD l 0 = 0
  rw [List.getD_eq_getElem?_getD, List.getElem?_replicate]
  split <;> rfl

end Sys2Proof.Machine

namespace Sys2Proof.Proofs

open Sys2Proof.Machine

/-- SFADD of S0 and S0 to S0. -/
def sfaddWord : Nat := 0x42

/-- Tile 3 at an SFADD of an infinite S0. -/
def atSfadd : State :=
  { State.reset with tiles := [(3, { (atOnlyInstr sfaddWord).tile 3 with sc := [(0, 0x7F800000#32)] })] }

theorem atInstr_sfadd : atSfadd.atInstr 3 sfaddWord plainRun := ⟨rfl, rfl, by decide, _, _, rfl, rfl, by decide⟩

/-- The first SFADD of an infinity captures the NONFINITE position record, and its RUN remembers that (R80). -/
theorem sfadd_captures : ∃ q, ((atSfadd.issue 3 0x42 fun _ u _ w => vecScalar u w fpAdd).tile 3).vrun = some q ∧ q.nfRec = true := by
  obtain ⟨q, hrun, hrec, -⟩ := State.issueGo_captures atSfadd 3 (fun _ u _ w => vecScalar u w fpAdd) (atSfadd.tile 3) plainRun
    sfaddWord 0 rfl rfl
  rw [State.issue_atInstr atInstr_sfadd (by decide)]
  exact ⟨q, hrun, hrec (vecScalar_nf_isSome (by decide)) (by decide)⟩

/-- Refutes O16: `Issued` has the RUN keep its `nfRec`, which the first SFADD of an infinity sets: it captures the NONFINITE position record. -/
theorem not_scalarAndControl : ¬ Obligations.ScalarAndControl := by
  intro h
  obtain ⟨-, -, hsfadd, -⟩ := h 3 sfaddWord plainRun atSfadd atInstr_sfadd
  obtain ⟨u', hissued, -⟩ := (hsfadd (by decide)).post (t := atSfadd.issue 3 0x42 fun _ u _ w => vecScalar u w fpAdd) rfl
  obtain ⟨q, hrun, hrec⟩ := sfadd_captures
  exact Bool.false_ne_true ((hissued.records hrun).1.symm.trans hrec)

/-- TBLV of V0 to V0 by table slot 0. -/
def tblvWord : Nat := 0x30

/-- The coefficients c0 = +infinity, c1 = c2 = 0. -/
def infiniteCoeffs : Nat := 0x7F800000

/-- A uniform table whose first segment has the coefficients above, stored free of errors. -/
def infiniteTable : TableSlot := ⟨1, placeAt 0x10 0 4 1, [infiniteCoeffs + secEncode 96 7 infiniteCoeffs * 2 ^ 96], [0]⟩

/-- Tile 3 at a TBLV of zeros by that table. -/
def atTblv : State := { State.reset with tiles := [(3, { (atOnlyInstr tblvWord).tile 3 with tables := [(0, some infiniteTable)] })] }

theorem atInstr_tblv : atTblv.atInstr 3 tblvWord plainRun := ⟨rfl, rfl, by decide, _, _, rfl, rfl, by decide⟩

theorem infiniteTable_segment : infiniteTable.segment false 0 = .clean infiniteCoeffs := by decide +kernel

theorem infiniteTable_eval : fpNonfinite (infiniteTable.eval false infiniteCoeffs 0) = true := by decide +kernel

/-- The first TBLV with an infinite value captures the NONFINITE position record, and its RUN remembers that (R80). -/
theorem tblv_captures : ∃ q, ((atTblv.issue 3 0x30 fun _ u _ w => vecTable u w false).tile 3).vrun = some q ∧ q.nfRec = true := by
  have hzero (l : Nat) : ((atTblv.tile 3).issuing plainRun).srcA tblvWord l = 0 := Tile.lane_of_empty rfl _ l
  have hseg (l : Nat) : infiniteTable.segment false (((atTblv.tile 3).issuing plainRun).srcA tblvWord l) = .clean infiniteCoeffs := by
    rw [hzero, infiniteTable_segment]
  obtain ⟨hbroken, hvrun, hnf⟩ := vecTable_nonfinite rfl (fun l _ _ => by rw [hseg]; nofun) (l := 0) (by decide) (by decide) (hseg 0)
    (by rw [hzero, infiniteTable_eval])
  obtain ⟨q, hrun, hrec, -⟩ := State.issueGo_captures atTblv 3 (fun _ u _ w => vecTable u w false) (atTblv.tile 3) plainRun
    tblvWord 0 hbroken hvrun
  rw [State.issue_atInstr atInstr_tblv (by decide)]
  exact ⟨q, hrun, hrec hnf (by decide)⟩

/-- Refutes O17: `Issued` has the RUN keep its `nfRec`, which the first TBLV with an infinite value sets: it captures the NONFINITE position
record. -/
theorem not_functionTables : ¬ Obligations.FunctionTables := by
  intro h
  obtain ⟨htblv, -⟩ := h 3 tblvWord plainRun infiniteTable atTblv atInstr_tblv rfl (by decide) false (by decide)
  have hseg (l : Nat) : infiniteTable.segment false ((atTblv.tile 3).srcA tblvWord l) = .clean infiniteCoeffs := by
    rw [show (atTblv.tile 3).srcA tblvWord l = 0 from Tile.lane_of_empty rfl _ l, infiniteTable_segment]
  obtain ⟨u', hissued, -⟩ := (htblv (fun _ => infiniteCoeffs) fun l _ _ => hseg l).post
    (t := atTblv.issue 3 0x30 fun _ u _ w => vecTable u w false) rfl
  obtain ⟨q, hrun, hrec⟩ := tblv_captures
  exact Bool.false_ne_true ((hissued.records hrun).1.symm.trans hrec)

end Sys2Proof.Proofs
end

section
/-! SUPPORT. The start of a RUN (R117, R131): the head of an idle engine's queue is taken, and what its registers read as. -/

namespace Sys2Proof.Machine

/-- An accepted descriptor at the head of an idle, enabled engine's queue leaves the queue and is taken (R130). -/
theorem State.vecTake_head {s : State} {k d : Nat} {rest : List VecOp} (hidle : (s.tile k).vrun = none)
    (hq : (s.tile k).vqueue = ⟨d, false⟩ :: rest) (hen : s.fon (tilPage k) F.com.ENABLE = true) (hok : s.vecCheck k d = none)
    (act : State → VecOp → State) :
    s.vecTake k (descOpcode d) act = act (s.putTile k { s.tile k with vqueue := rest }) ⟨d, false⟩ := by
  have hhead : s.vecHead k (descOpcode d) = some (⟨d, false⟩, rest) := by
    simp only [State.vecHead, hidle, hq, hen, bne_self_eq_false, Bool.or_self, Bool.not_true, Bool.false_eq_true, if_false]
  simp only [State.vecTake, hhead, hok]

/-- The RUN of a descriptor, at its entry's first instruction; with no sweeps it has ended (R131). -/
def Tile.runOf (u : Tile) (d : Nat) : VecRun :=
  { desc := d, pc := ((u.prog (VD.pslot d)).bind fun p => p.entries[VD.entry d]?).getD 0, ended := VD.sweeps d == 0 }

/-- A RUN that is accepted finds the registers as R117 has them. -/
theorem exec_run {s : State} {k : Fin 256} {d : Nat} {rest : List VecOp} (hidle : (s.tile k).vrun = none)
    (hq : (s.tile k).vqueue = ⟨d, false⟩ :: rest) (hen : s.fon (tilPage k) F.com.ENABLE = true) (hop : descOpcode d = 2)
    (hok : s.vecCheck k d = none) :
    ∃ t, exec (.run k) s = .next t ∧
      t.tile k = { ({ s.tile k with vqueue := rest } : Tile).fresh d with vrun := some ((s.tile k).runOf d) } := by
  refine ⟨_, congrArg Host.Outcome.next (hop ▸ State.vecTake_head hidle hq hen hok _), ?_⟩
  dsimp only
  rw [State.tile_putTile_self, State.tile_putTile_self]
  rfl

/-- The address registers take the descriptor's values (R117). -/
theorem Tile.get_fresh_ad (u : Tile) (d : Nat) {x : Nat} (hx : x < 8) : Store.get 0 (u.fresh d).ad x = BitVec.ofNat 32 (VD.a d x) :=
  Store.get_foldl_update 0 id (fun r _ => BitVec.ofNat 32 (VD.a d r)) (List.range 8) (by decide) x (List.mem_range.mpr hx) []

end Sys2Proof.Machine

namespace Sys2Proof.Proofs

open Sys2Proof.Machine

/-- Settles O56: the RUN starts on `Tile.fresh`, whose register files are empty but for the address registers. -/
theorem runRegisters : Obligations.RunRegisters := by
  intro k d rest s hidle hq hen hop hok
  obtain ⟨t, hexec, htile⟩ := exec_run hidle hq hen hop hok
  refine ⟨t, hexec, ?_⟩
  simp only [htile]
  refine ⟨fun x _ l _ => Tile.lane_of_empty rfl x l, fun _ _ => rfl, fun x hx _ l _ => ?_, fun x hx => Tile.get_fresh_ad _ d hx,
    fun _ _ => rfl, rfl, rfl, rfl⟩
  rw [Tile.predLane, if_neg (Nat.one_le_iff_ne_zero.mp hx)]
  exact BitVec.getLsbD_zero

end Sys2Proof.Proofs
end
section
/-! SUPPORT. Summary slots (R138, R139, R202): what SUMMARY sends, and the fields of the decision-points page that an arrival and ARM leave. -/

namespace Sys2Proof.Machine

/-! ### SUMMARY -/

/-- The message of a SUMMARY in a RUN of descriptor `d` (R138). -/
def State.summaryOf (s : State) (k w d : Nat) : Summary :=
  ⟨VD.sumCore d, VD.sumSlot d, VI.imm w / 2 ^ 8 % 2 ^ 8, k, descOpId d, s.time.toNat,
    (List.range (VI.imm w % 4 + 1)).map fun j => (s.tile k).scalar (VI.va w + j)⟩

/-- The meaning of the SUMMARY at hand in a RUN with SUM_EN. -/
theorem exec_summary {k : Fin 256} {w : Nat} {r : VecRun} {s : State} (h : s.atInstr k w r) (hop : VI.op w = 0x48)
    (hen : VD.sumEn r.desc = true) :
    ∃ t, exec (.summary k) s = .next t ∧ t.tile k = (s.tile k).issued r (some (s.summaryOf k w r.desc)) ∧
      t.summaries = s.summaries ++ [s.summaryOf k w r.desc] ∧ TileOnly k s t ∧ Only [.regs, .tiles, .summaries] s t ∧
      RegsOnly (vecShown k) s t := by
  refine ⟨_, rfl, State.issue_quiet_frame h hop (m := some (s.summaryOf k w r.desc)) ?_⟩
  dsimp only
  rw [if_pos hen, bitsOf, Nat.shiftRight_eq_div_pow]
  rfl

/-! ### The slot's registers -/

/-- A field of a slot lies below the registers of every tile's page. -/
theorem slotField_not_tileShown {c : Nat} (hc : c < 4) {f : Fld} (hf : 8 * f.off + f.lo < 0x8000) (t : Nat) :
    f.key (slotPage c) ∉ tileShown t := by
  simp only [tileShown, List.map_cons, List.map_nil, List.mem_cons, List.not_mem_nil, or_false, Fld.key, slotPage, tilPage, Page.base]
  omega

/-- A die's page has 64 slots, 32 of each core. -/
theorem slotIx_lt {core slot : Nat} (h : slot < 32) : slotIx core slot < 64 := by
  unfold slotIx
  omega

/-! ### An arrival -/

/-- Once the slot has accepted a message, the tile that sent it takes new contents, or nothing changes (R132). -/
theorem State.summaryAccepted_cases (s : State) (m : Summary) : s.summaryAccepted m = s ∨ ∃ u, s.summaryAccepted m = s.putTile m.tile u := by
  simp only [State.summaryAccepted]
  split
  · split
    · exact .inr ⟨_, rfl⟩
    · exact .inl rfl
  · exact .inl rfl

theorem State.summaryAccepted_frame (s : State) (m : Summary) :
    Only [.regs, .tiles] s (s.summaryAccepted m) ∧ RegsOnly (tileShown m.tile) s (s.summaryAccepted m) ∧
      TileOnly m.tile s (s.summaryAccepted m) := by
  obtain h | ⟨u, h⟩ := s.summaryAccepted_cases m
  · rw [h]
    exact ⟨Only.refl _ s, RegsOnly.refl _ s, fun _ _ => rfl⟩
  · rw [h]
    exact s.putTile_frame _ _

/-- Accepting a message leaves the registers of its slot. -/
theorem State.fget_summaryAccepted (s : State) {m : Summary} (hc : m.core < 4) {f : Fld} (hf : 8 * f.off + f.lo < 0x8000) :
    (s.summaryAccepted m).fget (slotPage m.core) f = s.fget (slotPage m.core) f :=
  (s.summaryAccepted_frame m).2.1.fget (slotField_not_tileShown hc hf _)

/-- The message at index `i` arrives at its slot and leaves those on their way. -/
theorem exec_summaryMessage {i : Nat} {m : Summary} {s : State} (h : s.summaries[i]? = some m) :
    exec (.summaryMessage i) s = .next (({ s with summaries := s.summaries.eraseIdx i }.slotMessage m).summaryAccepted m) := by
  change execSummaryMessage i s = _
  simp only [execSummaryMessage, h]

/-- A message with another TAG is counted (R139). -/
theorem State.slotMessage_mismatch {s : State} {m : Summary}
    (h : m.tag ≠ s.fget (slotPage m.core) (F.dp.SLOT_CFG_TAG (slotIx m.core m.slot))) :
    s.slotMessage m = s.bump (slotPage m.core) (F.dp.SLOT_STAT_TAG_MISMATCH (slotIx m.core m.slot)) 1 := by
  unfold State.slotMessage
  exact if_pos (.inr h)

/-- The entries of a message's slot. -/
def State.slotEntries (s : State) (m : Summary) : List (Nat × List Word) := Store.get [] s.slotHeld (32 * m.core + m.slot)

/-- The entries of a message's slot with the message's words. -/
def State.slotKept (s : State) (m : Summary) : List (Nat × List Word) := Store.set [] (s.slotEntries m) m.tile m.words

/-- The message stored under its tile, and COUNT (R139). -/
def State.slotStored (s : State) (m : Summary) : State :=
  { s with slotHeld := Store.set [] s.slotHeld (32 * m.core + m.slot) (s.slotKept m) }.fput (slotPage m.core)
    (F.dp.SLOT_STAT_COUNT (slotIx m.core m.slot)) (s.slotKept m).length

/-- Combined word `i` of the entries with the message's (R113, R139). -/
def State.combinedWord (s : State) (m : Summary) (i : Nat) : Word :=
  combineSlot (bitAt (s.fget (slotPage m.core) (F.dp.SLOT_CFG_MODE (slotIx m.core m.slot))) i)
    ((s.slotKept m).map fun e => e.2.getD i 0)

/-- A slot that has reached EXPECT: its time, COMPLETE and the four words (R139). -/
def State.slotCompleted (s : State) (core slot : Nat) (word : Nat → Word) : State :=
  let p := slotPage core
  let k := slotIx core slot
  (((({ s with slotDone := Store.set 0 s.slotDone (32 * core + slot) s.time.toNat }.fset p (F.dp.SLOT_STAT_COMPLETE k) true).fput p
    (F.dp.SLOT_W0_RESULT k) (word 0).toNat).fput p (F.dp.SLOT_W1_RESULT k) (word 1).toNat).fput p (F.dp.SLOT_W2_RESULT k)
    (word 2).toNat).fput p (F.dp.SLOT_W3_RESULT k) (word 3).toNat

/-- A message that its slot takes from a tile whose words it does not hold yet (R139). -/
theorem State.slotMessage_taken {s : State} {m : Summary}
    (htag : m.tag = s.fget (slotPage m.core) (F.dp.SLOT_CFG_TAG (slotIx m.core m.slot)))
    (hexp : s.fget (slotPage m.core) (F.dp.SLOT_CFG_EXPECT (slotIx m.core m.slot)) ≠ 0)
    (hopen : s.fon (slotPage m.core) (F.dp.SLOT_STAT_COMPLETE (slotIx m.core m.slot)) = false)
    (hnew : Store.get [] (s.slotEntries m) m.tile = []) :
    s.slotMessage m = if (s.slotKept m).length < s.fget (slotPage m.core) (F.dp.SLOT_CFG_EXPECT (slotIx m.core m.slot))
      then s.slotStored m else (s.slotStored m).slotCompleted m.core m.slot (s.combinedWord m) := by
  unfold State.slotMessage
  extract_lets p k key held expect held' s1 word
  rw [if_neg (fun hskip => hskip.elim hexp fun hne => hne htag), if_neg (by rw [hopen]; exact Bool.false_ne_true),
    if_neg (fun hheld => hheld (congrArg List.length hnew))]
  rfl

theorem State.slotStored_only (s : State) (m : Summary) : Only [.regs, .slotHeld] s (s.slotStored m) := by
  intro q hq
  cases q
  case regs => exact absurd (by simp) hq
  case slotHeld => exact absurd (by simp) hq
  all_goals rfl

theorem State.slotCompleted_only (s : State) (core slot : Nat) (word : Nat → Word) :
    Only [.regs, .slotDone] s (s.slotCompleted core slot word) := by
  intro q hq
  cases q
  case regs => exact absurd (by simp) hq
  case slotDone => exact absurd (by simp) hq
  all_goals rfl

/-- COMPLETE lies beside COUNT, and the four words of a slot after both. -/
theorem slotFields_apart (k : Nat) :
    (∀ f ∈ [F.dp.SLOT_W0_RESULT k, F.dp.SLOT_W1_RESULT k, F.dp.SLOT_W2_RESULT k, F.dp.SLOT_W3_RESULT k],
      ∀ g ∈ [F.dp.SLOT_STAT_COUNT k, F.dp.SLOT_STAT_COMPLETE k], 8 * f.off + f.lo ≠ 8 * g.off + g.lo) ∧
    (∀ f ∈ [F.dp.SLOT_W1_RESULT k, F.dp.SLOT_W2_RESULT k, F.dp.SLOT_W3_RESULT k],
      8 * f.off + f.lo ≠ 8 * (F.dp.SLOT_W0_RESULT k).off + (F.dp.SLOT_W0_RESULT k).lo) ∧
    8 * (F.dp.SLOT_STAT_COMPLETE k).off + (F.dp.SLOT_STAT_COMPLETE k).lo ≠
      8 * (F.dp.SLOT_STAT_COUNT k).off + (F.dp.SLOT_STAT_COUNT k).lo := by
  simp only [List.mem_cons, List.not_mem_nil, or_false, forall_eq_or_imp, forall_eq, F.dp.SLOT_W0_RESULT, F.dp.SLOT_W1_RESULT,
    F.dp.SLOT_W2_RESULT, F.dp.SLOT_W3_RESULT, F.dp.SLOT_STAT_COUNT, F.dp.SLOT_STAT_COMPLETE]
  omega

theorem State.slotStored_held (s : State) (m : Summary) :
    Store.get [] (s.slotStored m).slotHeld (32 * m.core + m.slot) = s.slotKept m := Store.get_set_self _ _ _ _

theorem State.slotStored_count (s : State) (m : Summary) :
    (s.slotStored m).fget (slotPage m.core) (F.dp.SLOT_STAT_COUNT (slotIx m.core m.slot))
      = (s.slotKept m).length % 2 ^ (F.dp.SLOT_STAT_COUNT (slotIx m.core m.slot)).width := State.fget_fput_self _ _ _ _

theorem State.slotStored_complete (s : State) (m : Summary) :
    (s.slotStored m).fon (slotPage m.core) (F.dp.SLOT_STAT_COMPLETE (slotIx m.core m.slot))
      = s.fon (slotPage m.core) (F.dp.SLOT_STAT_COMPLETE (slotIx m.core m.slot)) :=
  State.fon_of_fget (State.fget_fput_off _ _ _ (Ne.symm (slotFields_apart _).2.2))

/-- What the registers of a completed slot read as: COUNT as before, COMPLETE set, the first word combined (R139). -/
theorem State.slotCompleted_fields (s : State) (core slot : Nat) (word : Nat → Word) :
    let t := s.slotCompleted core slot word
    t.fget (slotPage core) (F.dp.SLOT_STAT_COUNT (slotIx core slot)) = s.fget (slotPage core) (F.dp.SLOT_STAT_COUNT (slotIx core slot)) ∧
    t.fon (slotPage core) (F.dp.SLOT_STAT_COMPLETE (slotIx core slot)) = true ∧
    t.fget (slotPage core) (F.dp.SLOT_W0_RESULT (slotIx core slot)) = (word 0).toNat := by
  obtain ⟨hstat, hword, hcount⟩ := slotFields_apart (slotIx core slot)
  simp only [List.mem_cons, List.not_mem_nil, or_false, forall_eq_or_imp, forall_eq] at hstat hword
  obtain ⟨⟨h0c, h0d⟩, ⟨h1c, h1d⟩, ⟨h2c, h2d⟩, h3c, h3d⟩ := hstat
  obtain ⟨h1, h2, h3⟩ := hword
  refine ⟨?_, ?_, ?_⟩
  · rw [State.slotCompleted, State.fget_fput_off _ _ _ h3c, State.fget_fput_off _ _ _ h2c, State.fget_fput_off _ _ _ h1c,
      State.fget_fput_off _ _ _ h0c, State.fget_fset_off _ _ _ hcount]
    rfl
  · rw [State.slotCompleted, State.fon, State.fget_fput_off _ _ _ h3d, State.fget_fput_off _ _ _ h2d, State.fget_fput_off _ _ _ h1d,
      State.fget_fput_off _ _ _ h0d, State.fget_fset_self]
    rfl
  · rw [State.slotCompleted, State.fget_fput_off _ _ _ h3, State.fget_fput_off _ _ _ h2, State.fget_fput_off _ _ _ h1,
      State.fget_fput_self]
    exact Nat.mod_eq_of_lt (word 0).isLt

/-- A message that its slot takes from a tile whose words it does not hold yet: its entries, COUNT, COMPLETE and the first combined word
(R139). -/
theorem State.slotMessage_fields {s : State} {m : Summary}
    (htag : m.tag = s.fget (slotPage m.core) (F.dp.SLOT_CFG_TAG (slotIx m.core m.slot)))
    (hexp : s.fget (slotPage m.core) (F.dp.SLOT_CFG_EXPECT (slotIx m.core m.slot)) ≠ 0)
    (hopen : s.fon (slotPage m.core) (F.dp.SLOT_STAT_COMPLETE (slotIx m.core m.slot)) = false)
    (hnew : Store.get [] (s.slotEntries m) m.tile = []) :
    let p := slotPage m.core
    let k := slotIx m.core m.slot
    let t := s.slotMessage m
    Store.get [] t.slotHeld (32 * m.core + m.slot) = s.slotKept m ∧
    t.fget p (F.dp.SLOT_STAT_COUNT k) = (s.slotKept m).length % 2 ^ (F.dp.SLOT_STAT_COUNT k).width ∧
    ((s.slotKept m).length < s.fget p (F.dp.SLOT_CFG_EXPECT k) → t.fon p (F.dp.SLOT_STAT_COMPLETE k) = false) ∧
    (s.fget p (F.dp.SLOT_CFG_EXPECT k) ≤ (s.slotKept m).length → t.fon p (F.dp.SLOT_STAT_COMPLETE k) = true ∧
      t.fget p (F.dp.SLOT_W0_RESULT k) = (s.combinedWord m 0).toNat) ∧
    Only [.regs, .slotHeld, .slotDone] s t := by
  intro p k
  have honly : Only [.regs, .slotHeld, .slotDone] s (s.slotStored m) := (s.slotStored_only m).mono (by simp)
  rw [State.slotMessage_taken htag hexp hopen hnew]
  split
  next hlt =>
    exact ⟨s.slotStored_held m, s.slotStored_count m, fun _ => (s.slotStored_complete m).trans hopen, fun hle => absurd hlt (Nat.not_lt.mpr hle),
      honly⟩
  next hge =>
    have hdone := (s.slotStored m).slotCompleted_only m.core m.slot (s.combinedWord m)
    obtain ⟨hcount, hcomplete, hword⟩ := (s.slotStored m).slotCompleted_fields m.core m.slot (s.combinedWord m)
    refine ⟨?_, hcount.trans (s.slotStored_count m), fun hlt => absurd hlt hge, fun _ => ⟨hcomplete, hword⟩,
      honly.trans (hdone.mono (by simp))⟩
    rw [show State.slotHeld _ = _ from hdone .slotHeld (by decide), State.slotStored_held]

/-! ### ARM -/

/-- ARM empties a slot and leaves its results (R139, R202). -/
theorem State.armSlot_fields (s : State) (core slot : Nat) :
    let p := slotPage core
    let k := slotIx core slot
    let t := s.armSlot core slot
    Store.get [] t.slotHeld (32 * core + slot) = [] ∧ t.fget p (F.dp.SLOT_STAT_COUNT k) = 0 ∧
    t.fon p (F.dp.SLOT_STAT_COMPLETE k) = false ∧ Only [.regs, .slotHeld] s t ∧
    RegsOnly [(F.dp.SLOT_STAT_COUNT k).key p, (F.dp.SLOT_STAT_COMPLETE k).key p] s t := by
  intro p k
  refine ⟨Store.get_set_self [] s.slotHeld (32 * core + slot) [], ?_, ?_, ?_, ?_⟩
  · rw [State.armSlot, State.fget_fset_off _ _ _ (slotFields_apart k).2.2, State.fget_fput_self, Nat.zero_mod]
  · rw [State.armSlot, State.fon_fset_self _ _ _ _ Nat.one_pos]
  · intro q hq
    cases q
    case regs => exact absurd (by simp) hq
    case slotHeld => exact absurd (by simp) hq
    all_goals rfl
  · exact ((RegsOnly.of_regs rfl _).trans ((State.fput_regsOnly _ _ _ _).mono (by simp [p, k]))).trans
      ((State.fset_regsOnly _ _ _ _).mono (by simp [p, k]))

/-- The slot that ARM names on a die's page. -/
theorem slotPage_arm (d : Fin 2) (n : Fin 64) : slotPage (2 * d.val + n.val / 32) = ⟨.dp, d⟩ ∧
    slotIx (2 * d.val + n.val / 32) (n.val % 32) = n := by
  refine ⟨congrArg (Page.mk .dp) ?_, ?_⟩
  · omega
  · unfold slotIx
    omega

end Sys2Proof.Machine

namespace Sys2Proof.Proofs

open Sys2Proof.Machine

/-- An arrival leaves every part but those its slot and the tile that sent it hold (R132, R139). -/
theorem summaryMessage_frame {s : State} {i : Nat} {m : Summary} {ps : List Part} {v : State}
    (hv : Only ps { s with summaries := s.summaries.eraseIdx i } v) (htiles : .tiles ∉ ps) (hsum : .summaries ∉ ps) :
    (v.summaryAccepted m).summaries = s.summaries.eraseIdx i ∧ TileOnly m.tile s (v.summaryAccepted m) ∧
      Only ([.regs, .tiles, .summaries] ++ ps) s (v.summaryAccepted m) := by
  obtain ⟨honly, -, hother⟩ := v.summaryAccepted_frame m
  have herase : Only [.summaries] s { s with summaries := s.summaries.eraseIdx i } := by
    intro q hq
    cases q
    case summaries => exact absurd (by simp) hq
    all_goals rfl
  refine ⟨(honly .summaries (by decide)).trans (hv .summaries hsum), fun j hj => ?_, ?_⟩
  · exact (hother j hj).trans (State.tile_of_tiles (hv .tiles htiles) j)
  · exact ((herase.mono (by simp)).trans (hv.mono (by simp +contextual))).trans (honly.mono (by simp +contextual))

/-- Settles O19: SUMMARY is issued with its message; a message's slot takes it or counts it, and its tile's RUN goes on; ARM is `armSlot`. -/
theorem summarySlots : Obligations.SummarySlots := by
  refine ⟨fun k w r s h hop hen => ?sends, fun i m s hm => ?arrives, fun i m s hm hcore hslot htag => ?mismatch, fun r d n s hr => ?arms⟩
  case sends =>
    obtain ⟨t, hexec, htile, hsum, hother, honly, hregs⟩ := exec_summary h hop hen
    refine ⟨t, hexec, hsum, ?_, hother, honly, hregs⟩
    rw [htile, Tile.issued, Option.isSome_some, Bool.or_true]
  case arrives =>
    intro p k held kept hcore hslot htag hexp hopen hnew
    obtain ⟨hheld, hcount, hless, hfull, honly⟩ := State.slotMessage_fields (s := { s with summaries := s.summaries.eraseIdx i }) htag hexp
      hopen hnew
    obtain ⟨hsum, hother, hparts⟩ := summaryMessage_frame (m := m) honly (by decide) (by decide)
    have hk : k < 64 := slotIx_lt hslot
    have hfield {f : Fld} (hf : 8 * f.off + f.lo < 0x8000) := State.fget_summaryAccepted
      ({ s with summaries := s.summaries.eraseIdx i }.slotMessage m) hcore hf
    have hcomplete := State.fon_of_fget (hfield (f := F.dp.SLOT_STAT_COMPLETE k) (by simp only [F.dp.SLOT_STAT_COMPLETE]; omega))
    refine ⟨_, exec_summaryMessage hm, hsum, ?_, ?_, fun hlt => hcomplete.trans (hless hlt),
      fun hle => ⟨hcomplete.trans (hfull hle).1, ?_⟩, hparts.mono (by simp), hother⟩
    · rw [show State.slotHeld _ = _ from (State.summaryAccepted_frame _ m).1 .slotHeld (by decide)]
      exact hheld
    · exact (hfield (by simp only [F.dp.SLOT_STAT_COUNT]; omega)).trans hcount
    · exact (hfield (by simp only [F.dp.SLOT_W0_RESULT]; omega)).trans (hfull hle).2
  case mismatch =>
    have hk : slotIx m.core m.slot < 64 := slotIx_lt hslot
    have hbump := State.slotMessage_mismatch (s := { s with summaries := s.summaries.eraseIdx i }) htag
    obtain ⟨hsum, hother, hparts⟩ := summaryMessage_frame (m := m) (State.bump_only { s with summaries := s.summaries.eraseIdx i }
      (slotPage m.core) (F.dp.SLOT_STAT_TAG_MISMATCH (slotIx m.core m.slot)) 1) (by decide) (by decide)
    refine ⟨_, exec_summaryMessage hm, ?_⟩
    rw [hbump]
    refine ⟨(State.summaryAccepted_frame _ m).1 .slotHeld (by decide), ?_, hparts.mono (by simp), hother⟩
    rw [State.fget_summaryAccepted _ hcore (by simp only [F.dp.SLOT_STAT_TAG_MISMATCH]; omega), State.fget_bump_self]
    rfl
  case arms =>
    obtain ⟨hpage, hix⟩ := slotPage_arm d n
    obtain ⟨hheld, hcount, hcomplete, honly, hregs⟩ := (s.releaseHolds r).armSlot_fields (2 * d.val + n.val / 32) (n.val % 32)
    rw [hpage, hix] at hcount hcomplete hregs
    have hnone := State.reaches_held hr
    exact ⟨_, congrArg Host.Outcome.next (State.hubAdmit_reaches hr _), hheld, hcount, hcomplete,
      ((State.releaseHolds_only_hub hnone).mono (by simp)).trans (honly.mono (by simp)),
      (RegsOnly.of_regs (State.releaseHolds_regs hnone) _).trans hregs⟩

end Sys2Proof.Proofs
end
section
/-! SUPPORT. Shelves and landing buffers (R147, R148, R157): bytes written at consecutive keys, the counters that span accesses and reads of
the device range leave behind, and the meanings of the three commands. -/

namespace Sys2Proof.Machine

/-! ### Consecutive keys -/

/-- What a key holds after a list is written from key `k` on. -/
theorem Store.get_write {α : Type} [DecidableEq α] (d : α) (vs : List α) (m : List (Nat × α)) (k a : Nat) :
    Store.get d (Store.write d m k vs) a = if k ≤ a then vs[a - k]?.getD (Store.get d m a) else Store.get d m a := by
  induction vs generalizing m k with
  | nil => simp [Store.write]
  | cons v vs ih =>
    rw [Store.write, ih, Store.get_set]
    obtain hlt | rfl | hgt := Nat.lt_trichotomy k a
    · rw [if_pos (Nat.succ_le_of_lt hlt), if_pos (Nat.le_of_lt hlt), if_neg (Nat.ne_of_lt hlt),
        show a - k = a - (k + 1) + 1 by omega, List.getElem?_cons_succ]
    · rw [if_neg (Nat.not_succ_le_self k), if_pos rfl, if_pos (Nat.le_refl k), Nat.sub_self, List.getElem?_cons_zero, Option.getD_some]
    · rw [if_neg (by omega : ¬ k + 1 ≤ a), if_neg (Nat.not_le_of_lt hgt), if_neg (Nat.ne_of_gt hgt)]

theorem Store.get_write_add {α : Type} [DecidableEq α] (d : α) {vs : List α} {j : Nat} {v : α} (h : vs[j]? = some v) (m : List (Nat × α))
    (k : Nat) : Store.get d (Store.write d m k vs) (k + j) = v := by
  rw [Store.get_write, if_pos (Nat.le_add_right k j), Nat.add_sub_cancel_left, h, Option.getD_some]

theorem Store.get_write_outside {α : Type} [DecidableEq α] (d : α) {vs : List α} (m : List (Nat × α)) {k a : Nat}
    (h : a ∉ (List.range vs.length).map (k + ·)) : Store.get d (Store.write d m k vs) a = Store.get d m a := by
  rw [Store.get_write]
  split
  case isTrue hle =>
    have hout : vs.length ≤ a - k := Nat.not_lt.mp fun hlt =>
      h (List.mem_map.mpr ⟨a - k, List.mem_range.mpr hlt, Nat.add_sub_cancel' hle⟩)
    rw [List.getElem?_eq_none hout, Option.getD_none]
  case isFalse => rfl

@[simp] theorem Store.length_read {α : Type} (d : α) (m : List (Nat × α)) (k n : Nat) : (Store.read d m k n).length = n := by
  induction n generalizing k with
  | zero => rfl
  | succ n ih => rw [Store.read, List.length_cons, ih]

theorem Store.getElem?_read {α : Type} (d : α) (m : List (Nat × α)) {n i : Nat} (h : i < n) (k : Nat) :
    (Store.read d m k n)[i]? = some (Store.get d m (k + i)) := by
  induction n generalizing k i with
  | zero => cases h
  | succ n ih =>
    cases i with
    | zero => rfl
    | succ i => rw [Store.read, List.getElem?_cons_succ, ih (Nat.lt_of_succ_lt_succ h), Nat.add_right_comm, Nat.add_assoc]

/-- The Shelves with a list of bytes written from a key on. -/
def State.shelfWrite (s : State) (k : Nat) (bs : List Byte) : State := { s with shelf := Store.write 0 s.shelf k bs }

theorem State.shelfWrite_only (s : State) (k : Nat) (bs : List Byte) : Only [.shelf] s (s.shelfWrite k bs) := by
  intro q hq
  cases q
  case shelf => exact absurd (List.mem_singleton_self _) hq
  all_goals rfl

theorem State.shelfWrite_shelfOnly (s : State) (k : Nat) (bs : List Byte) :
    ShelfOnly ((List.range bs.length).map (k + ·)) s (s.shelfWrite k bs) := fun _ ha => Store.get_write_outside 0 s.shelf ha

/-! ### Counting -/

/-- The bit of a field in its page. -/
def Fld.bit (f : Fld) : Nat := 8 * f.off + f.lo

/-- Fields at different bits of a page have different keys, on whichever pages they stand. -/
theorem Fld.key_ne_of_bit {f g : Fld} (hf : f.bit < 0x8000) (hg : g.bit < 0x8000) (h : f.bit ≠ g.bit) (p q : Page) : f.key p ≠ g.key q := by
  have hp := base_mod p
  have hq := base_mod q
  simp only [Fld.bit] at hf hg h
  simp only [Fld.key]
  omega

/-- Between two states nothing has changed but registers at the bits, in their pages, of the fields listed. -/
def Counts (fs : List Fld) (s t : State) : Prop :=
  Only [.regs] s t ∧ ∀ (p : Page) (f : Fld), f.bit < 0x8000 → (∀ g ∈ fs, g.bit ≠ f.bit) → t.fget p f = s.fget p f

theorem Counts.refl (fs : List Fld) (s : State) : Counts fs s s := ⟨Only.refl _ s, fun _ _ _ _ => rfl⟩

theorem Counts.trans {fs : List Fld} {s t u : State} (h : Counts fs s t) (h2 : Counts fs t u) : Counts fs s u :=
  ⟨h.1.trans h2.1, fun p f hf hfs => (h2.2 p f hf hfs).trans (h.2 p f hf hfs)⟩

theorem Counts.mono {fs gs : List Fld} {s t : State} (h : Counts fs s t) (hs : ∀ f ∈ fs, f ∈ gs) : Counts gs s t :=
  ⟨h.1, fun p f hf hfs => h.2 p f hf fun g hg => hfs g (hs g hg)⟩

theorem Counts.ite {fs : List Fld} {s t u : State} {c : Prop} [Decidable c] (ht : Counts fs s t) (hu : Counts fs s u) :
    Counts fs s (if c then t else u) := by
  split
  · exact ht
  · exact hu

theorem State.bump_counts (s : State) (p : Page) {f : Fld} (n : Nat) {fs : List Fld} (hf : f.bit < 0x8000) (hmem : f ∈ fs) :
    Counts fs s (s.bump p f n) :=
  ⟨s.bump_only p f n, fun q _ hg hfs => State.fget_bump_ne s n (Fld.key_ne_of_bit hf hg (hfs f hmem) p q)⟩

theorem Counts.foldl {α : Type} {fs : List Fld} {step : State → α → State} (h : ∀ s a, Counts fs s (step s a)) (l : List α) (s : State) :
    Counts fs s (l.foldl step s) := by
  induction l generalizing s with
  | nil => exact Counts.refl fs s
  | cons a l ih => exact (h s a).trans (ih _)

/-- The counters of the network and seam pages (R161, R162). -/
def netCounters : List Fld := [F.net.NET_BYTES_COUNT, F.seam.SEAM_BYTES_01_COUNT, F.seam.SEAM_BYTES_10_COUNT]

theorem State.netBytes_counts (s : State) (d0 d1 : Nat) (links : Bool × Bool) (n : Nat) (out : Bool) :
    Counts netCounters s (s.netBytes d0 d1 links n out) := by
  have bump (u : State) (p : Page) {f : Fld} (hf : f ∈ netCounters) : Counts netCounters u (u.bump p f n) := by
    refine u.bump_counts p n ?_ hf
    revert f
    decide
  unfold State.netBytes
  extract_lets u v
  have hu : Counts netCounters s u := .ite (bump s _ (by decide)) (.refl _ s)
  have hv : Counts netCounters u v := .ite (bump u _ (by decide)) (.refl _ u)
  exact (hu.trans hv).trans (.ite (.refl _ v) (.ite (bump v _ (by decide)) (bump v _ (by decide))))

/-- The byte and wait counters of a span access (R160 to R162). -/
def spanCounters : List Fld :=
  [F.til.SHF_LOCAL_BYTES_COUNT, F.til.SHF_IN_BYTES_COUNT, F.til.SHF_OUT_BYTES_COUNT, F.til.SHF_REMOTE_WAIT_COUNT] ++ netCounters

/-- A span access counts its waits at the bank, then bytes and waits elsewhere (R153, R160). -/
theorem State.countSpan_counts (s : State) (f : SpanFrom) (t n : Nat) (write : Bool) (waits late : Nat) :
    Counts spanCounters (s.bump (tilPage t) F.til.SHF_BANK_CONF_COUNT waits) (s.countSpan f t n write waits late) := by
  have net {u : State} {d0 d1 : Nat} {links : Bool × Bool} : Counts spanCounters u (u.netBytes d0 d1 links n write) :=
    (u.netBytes_counts d0 d1 links n write).mono fun _ => List.mem_append_right _
  have bump {u : State} (x : Nat) {g : Fld} (m : Nat) (hg : g ∈ spanCounters) : Counts spanCounters u (u.bump (tilPage x) g m) := by
    refine u.bump_counts _ m ?_ hg
    revert g
    decide
  unfold State.countSpan
  extract_lets p u v w
  have hv : Counts spanCounters u v := .ite (bump t n (by decide)) (bump t n (by decide))
  have hw : Counts spanCounters v w := by
    subst w
    cases spanTile f t with
    | none => exact .refl _ v
    | some x => exact (bump x n (by decide)).trans (bump x late (by decide))
  refine (hv.trans hw).trans ?_
  clear_value w
  cases f with
  | own | group => exact .refl _ w
  | net | block => exact net

theorem State.countSpan_only (s : State) (f : SpanFrom) (t n : Nat) (write : Bool) (waits late : Nat) :
    Only [.regs] s (s.countSpan f t n write waits late) := (s.bump_only _ _ _).trans (s.countSpan_counts f t n write waits late).1

/-- The counters of the Cellar controllers (R284). -/
def cellarCounters : List Fld := [F.cel.RD_BYTES_COUNT, F.cel.WR_BYTES_COUNT, F.cel.TAG_BYTES_COUNT, F.cel.RMW_COUNT]

theorem State.meterRun_counts (s : State) (write : Bool) (a len : Nat) : Counts cellarCounters s (s.meterRun write a len) := by
  have bump {u : State} (c : Nat) {g : Fld} (m : Nat) (hg : g ∈ cellarCounters) : Counts cellarCounters u (u.bump (pgCel c) g m) := by
    refine u.bump_counts _ m ?_ hg
    revert g
    decide
  refine .foldl (fun u x => ?_) _ s
  split
  · extract_lets n v tagged w
    have hv : Counts cellarCounters u v := bump _ n (by cases write <;> decide)
    have hw : Counts cellarCounters v w := .ite (bump _ 8 (by decide)) (.refl _ v)
    exact (hv.trans hw).trans (.ite (.refl _ w) (.ite (.ite (bump _ 1 (by decide)) (.refl _ w)) (bump _ _ (by decide))))
  · exact .refl _ u

/-- A read of the device range leaves every field that stands, in its page, behind the Cellar controllers' counters. -/
theorem State.fget_meterRun (s : State) (write : Bool) (a len : Nat) (p : Page) {f : Fld} (hlow : 0x400 ≤ f.bit) (hhigh : f.bit < 0x8000) :
    (s.meterRun write a len).fget p f = s.fget p f := by
  have hbelow : ∀ g ∈ cellarCounters, g.bit < 0x400 := by decide
  exact (s.meterRun_counts write a len).2 p f hhigh fun g hg => Nat.ne_of_lt (Nat.lt_of_lt_of_le (hbelow g hg) hlow)

/-! ### An event of a page -/

/-- An event raised on a page stands in EVT_STAT (R38). -/
theorem State.event_evtStat (s : State) {p : Page} (hp : p.present = true) (h : p ≠ pgHst) {b : Nat} (hb : b < 32) (st d : Nat) :
    bitAt ((s.event p b st d).fget p F.com.EVT_STAT) b = true := by
  rw [State.event, State.fget_events s hp h, State.setStat_evtStat, bitAt_mod_two_pow, bitAt_or, bitAt_eq_testBit (2 ^ b),
    Nat.testBit_two_pow_self]
  simp [hb]

/-- An event raised on a page leaves its other registers. -/
theorem State.fget_event (s : State) {p : Page} (hp : p.present = true) (h : p ≠ pgHst) (b st d : Nat) {f : Fld}
    (hf : 0x400 ≤ f.bit) : (s.event p b st d).fget p f = s.fget p f := by
  have hbit : 8 * f.off + f.lo ∉ [0x80, 0xE0, 0xE5, 0xE7, 0xE8, 0xF0] := by
    simp only [Fld.bit] at hf
    simp only [List.mem_cons, List.not_mem_nil, or_false]
    omega
  rw [State.event, State.fget_events s hp h]
  exact (s.setStat_regsOnly _ _ _ _ _).fget (not_mem_eventKeys hbit)

/-! ### Span accesses -/

/-- Byte `i` of a span after a write under byte enables (R148). -/
theorem getElem?_spanMerge {old : List Byte} {i : Nat} {b : Byte} (h : old[i]? = some b) (en data : Nat) :
    (spanMerge old en data)[i]? = some (if bitAt en i then BitVec.ofNat 8 (data / 2 ^ (8 * i)) else b) := by
  simp [spanMerge, List.getElem?_zipIdx, h, Nat.shiftRight_eq_div_pow]

@[simp] theorem length_spanMerge (old : List Byte) (en data : Nat) : (spanMerge old en data).length = old.length := by simp [spanMerge]

/-- Something the package delivers joins what it has delivered. -/
def State.delivered (s : State) (x : Out) : State := { s with out := s.out ++ [x] }

theorem State.delivered_only (s : State) (x : Out) : Only [.out] s (s.delivered x) := by
  intro q hq
  cases q
  case out => exact absurd (List.mem_singleton_self _) hq
  all_goals rfl

/-- The meaning of an access to the Shelf of a tile that is awake and not isolated, no entry to NAP being under way (R148). -/
theorem exec_shelfSpanAccess {f : SpanFrom} {k : Fin 256} {n : Fin 24576} {write : Option (BitVec 64 × BitVec 512)} {waits : Fin 4}
    {late : Nat} {s : State} (hnap : s.napping = false) (hgoal : s.pwr.goal ≠ 2) (hiso : s.isolated (tilPage k) = false) :
    exec (.shelfSpanAccess f k n write waits late) s
      = .next (s.spanAccess f k n (write.map fun x => (x.1.toNat, x.2.toNat)) waits late) := by
  change execShelfSpanAccess f k n write waits late s = _
  simp only [execShelfSpanAccess, if_neg hgoal, State.whenAwake, hnap, State.spanNow, hiso, Bool.false_eq_true, if_false]

/-! ### Fills -/

/-- A read of the device range that gives bytes gives those of its run, and counts (R260, R284). -/
theorem State.devRead_ok {s s1 : State} {who : Agent} {a len : Nat} {bs : List Byte} (h : s.devRead who a len = (s1, .ok bs)) :
    s1 = s.meterRun false a len ∧ bs.length = len := by
  unfold State.devRead at h
  split at h
  · cases h
  · split at h
    · cases h
    · cases h
      exact ⟨rfl, by simp [State.runBytes]⟩

theorem State.putFill_only (s : State) (k : Nat) (f : Fill) : Only [.agate] s (s.putFill k f) := by
  intro q hq
  cases q
  case agate => exact absurd (List.mem_singleton_self _) hq
  all_goals rfl

/-- The fields of landing buffer `n` that a fill write reads or counts in (R157, R160). -/
def landingFields (n : Nat) : List Fld := [F.til.LB_BASE_BASE n, F.til.LB_STAT_GEN n, F.til.LB_DROP_COUNT n]

theorem landingFields_bit {n : Nat} (h : n < 4) {f : Fld} (hf : f ∈ landingFields n) : 0x400 ≤ f.bit ∧ f.bit < 0x8000 := by
  simp only [landingFields, List.mem_cons, List.not_mem_nil, or_false] at hf
  obtain rfl | rfl | rfl := hf <;> simp only [Fld.bit, F.til.LB_BASE_BASE, F.til.LB_STAT_GEN, F.til.LB_DROP_COUNT] <;> omega

/-- The read of a fill leaves the landing buffers' fields and every part but the registers. -/
theorem State.meterRun_landing (s : State) {n : Nat} (h : n < 4) (write : Bool) (a len : Nat) : Only [.regs] s (s.meterRun write a len) ∧
    ∀ (p : Page), ∀ f ∈ landingFields n, (s.meterRun write a len).fget p f = s.fget p f :=
  ⟨(s.meterRun_counts write a len).1, fun p _ hf => s.fget_meterRun write a len p (landingFields_bit h hf).1 (landingFields_bit h hf).2⟩

/-- A fill is current as long as its buffer's fields stand. -/
theorem State.fillCurrent_congr {s u : State} {f : Fill} (h : ∀ (p : Page), ∀ g ∈ landingFields f.buf, u.fget p g = s.fget p g) :
    u.fillCurrent f = s.fillCurrent f := by
  rw [State.fillCurrent, State.fillCurrent, h _ _ (by simp [landingFields])]

/-- Fill `k` after 64 bytes, which land in its buffer in the buffer's generation and are dropped and counted in another (R157). -/
def State.fillArrived (s : State) (k : Nat) (f : Fill) (bs : List Byte) : State :=
  let u := s.putFill k f.moved
  if s.fillCurrent f then
    (u.shelfWrite (f.tile * 2 ^ 21 + s.fget (tilPage f.tile) (F.til.LB_BASE_BASE f.buf) + f.pos) bs).bump (tilPage f.tile)
      F.til.SHF_IN_BYTES_COUNT 64
  else (u.bump (tilPage f.tile) (F.til.LB_DROP_COUNT f.buf) 1).event (tilPage f.tile) 16

/-- The meaning of a fill write whose 64 bytes can be read (R157). -/
theorem exec_lbFillWrite {k : Nat} {f : Fill} {s s1 : State} {bs : List Byte} (hk : s.agate.fills[k]? = some f) (hpos : f.pos < f.len)
    (hread : s.devRead (.tenant (Fin.ofNat 16 s.agate.tenant)) (f.src + f.pos) 64 = (s1, .ok bs)) :
    exec (.lbFillWrite k) s = .next (s1.fillArrived k f bs) := by
  change execLbFillWrite k s = _
  simp only [execLbFillWrite, hk, if_neg (Nat.not_le_of_lt hpos), hread]
  exact (apply_ite Host.Outcome.next _ _ _).symm

/-- The tally of a landed fill is the Agate's business alone; one that is not speculative is sent (R186, R187). -/
theorem State.fillTally_agate (s : State) (f : Fill) : ∃ x : Agate, s.fillTally f = { s with agate := x } ∧ x.fills = s.agate.fills ∧
    ∀ n, f.sig = some n → f.spec = false → x.notices = s.agate.notices ++ [n] := by
  unfold State.fillTally
  split
  case h_1 hsig => exact ⟨s.agate, rfl, rfl, fun n hn => by simp [hsig] at hn⟩
  case h_2 n hsig =>
    split
    case isTrue hspec => exact ⟨_, rfl, rfl, fun _ _ hno => by simp [hspec] at hno⟩
    case isFalse => exact ⟨_, rfl, rfl, fun m hm _ => by rw [← Option.some.inj (hsig.symm.trans hm)]⟩

/-- The meaning of the end of a fill whose FILLING buffer is in its generation (R157). -/
theorem exec_fillComplete {k : Nat} {f : Fill} {s : State} (hk : s.agate.fills[k]? = some f) (hpos : f.len ≤ f.pos)
    (hcur : s.fillCurrent f = true) (hst : s.lbState f.tile f.buf = 1) :
    ∃ t, exec (.fillComplete k) s = .next t ∧ t.regs = (s.fput (tilPage f.tile) (F.til.LB_STAT_STATE f.buf) 2).regs ∧
      Only [.regs, .agate] s t ∧ t.agate.fills = s.agate.fills.eraseIdx k ∧
      ∀ n, f.sig = some n → f.spec = false → t.agate.notices = s.agate.notices ++ [n] := by
  have hboth : ({ s with agate.fills := s.agate.fills.eraseIdx k }.fillCurrent f
      && { s with agate.fills := s.agate.fills.eraseIdx k }.lbState f.tile f.buf == 1) = true := by
    rw [Bool.and_eq_true]
    exact ⟨hcur, beq_iff_eq.mpr hst⟩
  change ∃ t, execFillComplete k s = _ ∧ _
  simp only [execFillComplete, hk, if_neg (Nat.not_lt_of_le hpos), hboth, if_true]
  obtain ⟨x, hx, hfills, hsent⟩ := State.fillTally_agate _ f
  exact ⟨_, congrArg Host.Outcome.next hx, rfl,
    ((s.fput_only (tilPage f.tile) (F.til.LB_STAT_STATE f.buf) 2).mono (by simp)).trans (State.withAgate_only _ x), hfills, hsent⟩

end Sys2Proof.Machine

namespace Sys2Proof.Proofs

open Sys2Proof.Machine

/-- A read of a span gives its bytes and counts (R148). -/
theorem spanRead_runs {f : SpanFrom} {k : Fin 256} {n : Fin 24576} {waits : Fin 4} {late : Nat} {s : State} (hnap : s.napping = false)
    (hgoal : s.pwr.goal ≠ 2) (hiso : s.isolated (tilPage k) = false) :
    Runs (.shelfSpanAccess f k n none waits late) s fun t =>
      t.out = s.out ++ [Out.read (k * 2 ^ 21 + 64 * n) (Store.read 0 s.shelf (k * 2 ^ 21 + 64 * n) 64)] ∧ Only [.regs, .out] s t := by
  refine ⟨_, exec_shelfSpanAccess hnap hgoal hiso, ?_⟩
  let u := s.delivered (Out.read (spanKey k n) (Store.read 0 s.shelf (spanKey k n) 64))
  have hcount : Only [.regs] u (u.countSpan f k 64 false waits late) := u.countSpan_only _ _ _ _ _ _
  exact ⟨hcount .out (by decide), ((s.delivered_only _).mono (by simp)).trans (hcount.mono (by simp))⟩

/-- A write of a span changes the enabled bytes of it and counts (R148, R153). -/
theorem spanWrite_runs {f : SpanFrom} {k : Fin 256} {n : Fin 24576} {waits : Fin 4} {late : Nat} {s : State} (hnap : s.napping = false)
    (hgoal : s.pwr.goal ≠ 2) (hiso : s.isolated (tilPage k) = false) (en : BitVec 64) (data : BitVec 512) :
    Runs (.shelfSpanAccess f k n (some (en, data)) waits late) s fun t =>
      (∀ j < 64, Store.get 0 t.shelf (k * 2 ^ 21 + 64 * n + j) = if en.getLsbD j then BitVec.ofNat 8 (data.toNat / 2 ^ (8 * j))
        else Store.get 0 s.shelf (k * 2 ^ 21 + 64 * n + j)) ∧
      ShelfOnly ((List.range 64).map (k * 2 ^ 21 + 64 * n + ·)) s t ∧
      t.fget (tilPage k) F.til.SHF_BANK_CONF_COUNT = min (2 ^ F.til.SHF_BANK_CONF_COUNT.width - 1)
        (s.fget (tilPage k) F.til.SHF_BANK_CONF_COUNT + waits) ∧ Only [.regs, .shelf] s t := by
  refine ⟨_, exec_shelfSpanAccess hnap hgoal hiso, ?_⟩
  let bs := spanMerge (Store.read 0 s.shelf (spanKey k n) 64) en.toNat data.toNat
  let u := s.shelfWrite (spanKey k n) bs
  let t := u.countSpan f k (popCount 64 en.toNat) true waits late
  have hcount : Only [.regs] u t := u.countSpan_only _ _ _ _ _ _
  have hshelf : t.shelf = u.shelf := hcount .shelf (by decide)
  have hlen : bs.length = 64 := by simp [bs]
  refine ⟨fun j hj => ?_, fun a ha => ?_, ?_, ((s.shelfWrite_only _ _).mono (by simp)).trans (hcount.mono (by simp))⟩
  · have hbyte := getElem?_spanMerge (Store.getElem?_read 0 s.shelf hj (spanKey k n)) en.toNat data.toNat
    rw [bitAt_eq_testBit] at hbyte
    exact (congrArg (Store.get 0 · _) hshelf).trans (Store.get_write_add 0 hbyte _ _)
  · exact (congrArg (Store.get 0 · _) hshelf).trans (s.shelfWrite_shelfOnly _ bs a (hlen ▸ ha))
  · exact ((u.countSpan_counts f k _ true waits late).2 _ _ (by decide) (by decide)).trans (State.fget_bump_self _ _ _ _)

/-- A fill write in its buffer's generation lands in the buffer (R157). -/
theorem lbFillWrite_lands {k : Nat} {f : Fill} {s s1 : State} {bs : List Byte} (hk : s.agate.fills[k]? = some f) (hpos : f.pos < f.len)
    (hbuf : f.buf < 4) (hread : s.devRead (.tenant (Fin.ofNat 16 s.agate.tenant)) (f.src + f.pos) 64 = (s1, .ok bs))
    (hcur : s.fillCurrent f = true) :
    Runs (.lbFillWrite k) s fun t =>
      (∀ j < 64, some (Store.get 0 t.shelf (f.tile * 2 ^ 21 + s.fget (tilPage f.tile) (F.til.LB_BASE_BASE f.buf) + f.pos + j)) = bs[j]?) ∧
      ShelfOnly ((List.range 64).map (f.tile * 2 ^ 21 + s.fget (tilPage f.tile) (F.til.LB_BASE_BASE f.buf) + f.pos + ·)) s t ∧
      t.agate.fills = s.agate.fills.set k { f with pos := f.pos + 64 } ∧ Only [.regs, .agate, .shelf] s t := by
  obtain ⟨rfl, hlen⟩ := State.devRead_ok hread
  obtain ⟨hmeter, hfields⟩ := s.meterRun_landing hbuf false (f.src + f.pos) 64
  refine ⟨_, exec_lbFillWrite hk hpos hread, ?_⟩
  generalize s.meterRun false (f.src + f.pos) 64 = u at *
  have hshelf : u.shelf = s.shelf := hmeter .shelf (by decide)
  have hagate : u.agate = s.agate := hmeter .agate (by decide)
  rw [State.fillArrived, if_pos ((State.fillCurrent_congr hfields).trans hcur), hfields _ _ (by simp [landingFields])]
  generalize f.tile * 2 ^ 21 + s.fget (tilPage f.tile) (F.til.LB_BASE_BASE f.buf) + f.pos = at_
  refine ⟨fun j hj => ?_, fun a ha => ?_, ?_, ?_⟩
  · rw [List.getElem?_eq_getElem (hlen ▸ hj)]
    exact congrArg some (Store.get_write_add 0 (List.getElem?_eq_getElem (hlen ▸ hj)) _ _)
  · exact ((u.putFill k f.moved).shelfWrite_shelfOnly at_ bs a (hlen ▸ ha)).trans (congrArg (Store.get 0 · a) hshelf)
  · exact congrArg (·.fills.set k f.moved) hagate
  · exact ((hmeter.mono (by simp)).trans ((u.putFill_only k f.moved).mono (by simp))).trans
      (((State.shelfWrite_only _ _ _).mono (by simp)).trans ((State.bump_only _ _ _ _).mono (by simp)))

/-- A fill write in another generation is dropped, counted and reported (R157). -/
theorem lbFillWrite_drops {k : Nat} {f : Fill} {s s1 : State} {bs : List Byte} (hk : s.agate.fills[k]? = some f) (hpos : f.pos < f.len)
    (htile : f.tile < 256) (hbuf : f.buf < 4) (hread : s.devRead (.tenant (Fin.ofNat 16 s.agate.tenant)) (f.src + f.pos) 64 = (s1, .ok bs))
    (hcur : s.fillCurrent f = false) :
    Runs (.lbFillWrite k) s fun t => t.shelf = s.shelf ∧
      t.fget (tilPage f.tile) (F.til.LB_DROP_COUNT f.buf) = min (2 ^ (F.til.LB_DROP_COUNT f.buf).width - 1)
        (s.fget (tilPage f.tile) (F.til.LB_DROP_COUNT f.buf) + 1) ∧ bitAt (t.fget (tilPage f.tile) F.com.EVT_STAT) 16 = true ∧
      Only (.agate :: eventParts) s t := by
  obtain ⟨rfl, -⟩ := State.devRead_ok hread
  obtain ⟨hmeter, hfields⟩ := s.meterRun_landing hbuf false (f.src + f.pos) 64
  have hmem : F.til.LB_DROP_COUNT f.buf ∈ landingFields f.buf := by simp [landingFields]
  have hpage : (tilPage f.tile).present = true := present_iff.mpr htile
  have hother : tilPage f.tile ≠ pgHst := by simp [tilPage, pgHst]
  refine ⟨_, exec_lbFillWrite hk hpos hread, ?_⟩
  generalize s.meterRun false (f.src + f.pos) 64 = u at *
  rw [State.fillArrived, if_neg (by simp [State.fillCurrent_congr hfields, hcur])]
  have hframe : Only (.agate :: eventParts) s (((u.putFill k f.moved).bump (tilPage f.tile) (F.til.LB_DROP_COUNT f.buf) 1).event
      (tilPage f.tile) 16) :=
    ((hmeter.mono (by simp [eventParts])).trans ((u.putFill_only k f.moved).mono (by simp))).trans
      (((State.bump_only _ _ _ _).mono (by simp [eventParts])).trans ((State.event_only _ _ _ _ _).mono fun _ => List.mem_cons_of_mem _))
  refine ⟨hframe .shelf (by decide), ?_, State.event_evtStat _ hpage hother (by decide) _ _, hframe⟩
  rw [State.fget_event _ hpage hother _ _ _ (landingFields_bit hbuf hmem).1, State.fget_bump_self, ← hfields _ _ hmem]
  rfl

/-- Settles O20: a span is one write of 64 merged bytes, a fill write one write of the 64 bytes read, and what either
counts beside stands on other fields than the ones it reads. -/
theorem shelfAndFills : Obligations.ShelfAndFills := by
  refine ⟨fun f k n waits late s hnap hgoal hiso => ⟨spanRead_runs hnap hgoal hiso, spanWrite_runs hnap hgoal hiso⟩,
    fun k f s s1 bs hk hpos htile hbuf hread => ⟨lbFillWrite_lands hk hpos hbuf hread, lbFillWrite_drops hk hpos htile hbuf hread⟩,
    fun k f s hk hpos hcur hst => ?completes⟩
  obtain ⟨t, hexec, hregs, honly, hfills, hsent⟩ := exec_fillComplete hk hpos hcur hst
  exact ⟨t, hexec, (State.fget_of_regs hregs _ _).trans (s.fget_fput_self _ _ _), hfills, hsent, honly,
    (s.fput_regsOnly _ _ _).trans (.of_regs hregs _)⟩

end Sys2Proof.Proofs
end
